-- ==== Sys2Proof/Word.lean ====
section
/-! DEFINITION. The word types of the Stawyn 880 (00 R6, R7): bytes, 64-bit scalars, 512-bit vector registers, and the
numbers of its register files. -/

namespace Sys2Proof

/-- One byte (00 R7). -/
abbrev Byte := BitVec 8
/-- A scalar register's value, a virtual address, a doubleword (00 R6). -/
abbrev Word := BitVec 64
/-- A vector register's value (00 R6). -/
abbrev Vec := BitVec 512
/-- A number of x0 to x31 (02 R35). -/
abbrev XReg := Fin 32
/-- A number of v0 to v7 (02 R35). -/
abbrev VReg := Fin 8
/-- A number of m0 to m3 (02 R35). -/
abbrev MReg := Fin 4
/-- A context number within a core: 0 is the control context, 1 to 10 the helpers (00 R3). -/
abbrev CtxNo := Fin 11

end Sys2Proof
end

