-- ==== Sys2Proof/Syntax/Kinds.lean ====
section
/-! DEFINITION. The named values of the encoding's fields (02 R48, R50 and the function maps of 04 to 10), the trap causes
(10 R238), the state registers (10 R233), and the records that the events of the opcode table carry. -/

namespace Sys2Proof

/-- The lane type `ty` of the vector groups (05 R95). -/
inductive LaneTy where
  | f32 | bf16 | f16 | i32 | i16 | i8 | i64
  deriving DecidableEq, Repr

/-- The conditions of R82; `any` and `none` are spelled `odd` and `even` in `br`. -/
inductive Cond where
  | eq | ne | lt | ge | gt | le | ltu | geu | gtu | leu | any | none
  deriving DecidableEq, Repr

/-- The conditions of `vcmp` (05 R102): those of R82, and `un`. -/
inductive VCond where
  | cond (c : Cond)
  | un
  deriving DecidableEq, Repr

/-- The `ord` field (02 R50). -/
inductive MemOrd where
  | rlx | acq | rel | ar
  deriving DecidableEq, Repr

/-- The `sz` field (02 R50): 1, 2, 4 or 8 bytes. -/
inductive Size where
  | b | h | w | d
  deriving DecidableEq, Repr

/-- The scope of a fence (06 R134). -/
inductive Scope where
  | ctx | core | clu | grp | die | mod | sys
  deriving DecidableEq, Repr

/-- The kind of a fence (06 R134). -/
inductive FenceKind where
  | acq | rel | ar
  deriving DecidableEq, Repr

/-- The kinds of hint words (04 R88). -/
inductive HintKind where
  | imm | imx | mod | reg
  deriving DecidableEq, Repr

/-- The operations of `amo` (06 R126). -/
inductive AmoOp where
  | add | and | or | xor | min | max | minu | maxu | fadd | swap | cas
  deriving DecidableEq, Repr

/-- The operations of `rwl` (06 R131). -/
inductive LockOp where
  | racq | rrel | wacq | wrel
  deriving DecidableEq, Repr

/-- The engines that take jobs from the queue (07 R154). -/
inductive Engine where
  | matrix | copy
  deriving DecidableEq, Repr

/-- The state registers (10 R233). -/
inductive SReg where
  | pc | ctxstat | trapcause | trappc | trapval | trapvec
  | barrect | barphase | wbartag | qmap | spillbase | spillovf | rowprog | slewstat | vfstat
  | prot (n : Fin 8)
  | cxtick | cxstorm | srseed
  | frspeed | frlap | wsref | actfc | launchstat
  deriving DecidableEq, Repr

/-- The trap causes (10 R238). -/
inductive Cause where
  | illegal | reservedField | zeroWord | unmarkedTarget | headerSlot | misaligned | protection | translation
  | privilege | windowHazard | queueUnbound | poison | storm | manifest | brk | preempt | machineCheck
  deriving DecidableEq, Repr

/-- A trap: its cause and what TRAPVAL takes (10 R238). -/
structure Trap where
  cause : Cause
  val : Word
  deriving DecidableEq, Repr

/-- A context of the module, by core index and context number (00 R3). -/
structure CtxId where
  core : Nat
  ctx : CtxNo
  deriving DecidableEq, Repr

/-- The context that an access belongs to: the slot in which it issued it, the number of its start, and how many arrivals at barriers it had
made by then (06 R120, R129; 15 R313). A slot may hold another context by the time that the access is answered. -/
structure Issuer where
  slot : CtxId
  serial : Nat
  epoch : Nat
  deriving DecidableEq, Repr

/-- A destination register: an x, v or m register (01 R21). -/
inductive Dest where
  | x (r : XReg)
  | v (r : VReg)
  | m (r : MReg)
  deriving DecidableEq, Repr

/-- The five floating-point flags (03 R55). -/
structure FFlags where
  nv : Bool
  dz : Bool
  ofl : Bool
  ufl : Bool
  nx : Bool
  deriving DecidableEq, Repr

/-- A variable-latency result on its way to its destination (01 R18, R20): the register, the value (the lanes that
`keep` marks take the register's bits at the time of the write, 05 R97), and the flags it raises (05 R98). -/
structure Result where
  dest : Dest
  value : Vec
  keep : Vec
  flags : FFlags
  /-- The access lay beyond the group, and its reply was marked (14 R300, R301). -/
  beyond : Bool
  mark : Bool
  deriving DecidableEq, Repr

/-- An atomic request, or a bundle of posted requests, on its way to its home (06 R126 to R128): `addr` is the
memory cell, `va` the address the word named, and `more` the contributions merged behind the first. -/
structure AtomicReq where
  op : AmoOp
  sz : Size
  addr : Nat
  va : Word
  operand : Word
  compare : Word
  more : List Word
  who : Issuer
  dest : Option XReg
  members : List Issuer
  /-- Core cycles from its application to its reply or acknowledgement, and the format code of its page or region (03 R72). -/
  reply : Nat
  format : Nat
  beyond : Bool
  deriving DecidableEq, Repr

/-- A lock request (06 R131 to R133). -/
structure LockReq where
  op : LockOp
  noWait : Bool
  addr : Nat
  va : Word
  who : CtxId
  dest : XReg
  counted : Bool
  reply : Nat
  beyond : Bool
  /-- The format code of the page of the word (03 R72). -/
  format : Nat
  /-- The die that holds the word's wait list, where that is not its address's home: the owner of a forwarded page (21 R383). -/
  owner : Option Nat := none
  deriving DecidableEq, Repr

/-- A message of `msg.send` on its way to a ring (06 R139, 14 R293). -/
structure Message where
  src : Nat
  core : Nat
  ring : Nat
  bytes : List Byte
  who : Issuer
  dest : XReg
  delay : Nat
  deriving DecidableEq, Repr

/-- A second read of the watches of a line (06 R122): a cell of the line, and the core cycle from which a load that the read satisfies lets its
context issue. -/
structure WatchLook where
  addr : Nat
  ready : Nat
  deriving DecidableEq, Repr

/-- A register-context message on its way to a core (08 R188), by the serial number of its context. -/
structure MigrantId where
  core : Nat
  serial : Nat
  deriving DecidableEq, Repr

/-- A boarding request on its way to the pier (09 R223). -/
structure BoardReq where
  who : CtxId
  dest : XReg
  lid : Nat
  next : Bool
  lap : Nat
  layer : Nat
  chunk0 : Nat
  nch : Nat
  tiles : Nat
  deriving DecidableEq, Repr

/-- A reduction contribution in the routers (09 R229, 14 R303): chunk identity fields, the number of contributions
merged, the 128 accumulators, the sticky bits and the manifest sum. -/
structure Contribution where
  die : Nat
  slot : Nat
  chunk : Nat
  step : Nat
  count : Nat
  accs : List Int
  nanf : List Bool
  pinf : List Bool
  ninf : List Bool
  manifest : Nat
  deriving DecidableEq, Repr

/-- A module file as the loader holds it (11 R254): its bytes, and the virtual address that the loader gives each section, in
section-table order (not read for a `spad` section, which 11 R244 places); the addresses that it gives the load list and the handler table
of the launch (11 R260) stand in the first file. -/
structure ModuleFile where
  bytes : List Byte
  addrs : List Word
  tables : Word
  htab : Word
  deriving DecidableEq, Repr

/-- What an access does (21 R375). -/
inductive AccessKind where
  | fetch | read | write | atomic | lock
  deriving DecidableEq, Repr

/-- Where an error-correcting code looks (23 R406): a memory cell; a word of a core's register files, of its engines' tables, of a dock or of a router queue,
which carries no poison; the header of a chunk in flight, by the place of its pair among those on the ring; a die controller's own state. -/
inductive EccPlace where
  | cell (key : Nat)
  | word (core : Nat)
  | header (pair chunk : Nat)
  | controller (die : Nat)
  deriving DecidableEq, Repr

/-- What the error-correcting code finds at a granule (23 R406). -/
inductive EccFinding where
  | clean | corrected | uncorrectable
  deriving DecidableEq, Repr

/-- A packet whose tenant field a receiver finds uncorrectable (23 R409), by what its sender waits for: a reply for a register, or one
that a parked word waits for; an acknowledgement; an engine's access; a contribution on its way to a router. -/
inductive Packet where
  | reply (dest : Dest)
  | parked
  | posted
  | engine (e : Engine)
  | contribution (router die slot chunk step : Nat)
  deriving DecidableEq, Repr

/-- A firmware image: version, body hash, signature (24 R428); `body` stands for the bytes hashed. -/
structure FirmwareImage where
  version : BitVec 32
  hash : BitVec 256
  signature : BitVec 512
  body : List Byte
  deriving DecidableEq, Repr

end Sys2Proof
end

