-- ==== Sys2Proof/Syntax.lean ====
section
/-! DEFINITION. The instruction type: one constructor per row of spec/opcode_table.json (02 R39 and the function maps of 04 to
10 for the encoded words; 95 for the events). `sw` is the switch marker, bit 31 (02 R33). Order: encoded words; events
that the model posts; events from outside and those the step performs itself (a constructor past the 244th cannot be built by
compiled code). -/

namespace Sys2Proof

/-- Every instruction word and every event of the module. -/
inductive Instr where
  /-- `ALU_ADD` (R83). -/
  | aluAdd (sw : Bool) (d a b : XReg)
  /-- `ALU_SUB` (R83). -/
  | aluSub (sw : Bool) (d a b : XReg)
  /-- `ALU_AND` (R83). -/
  | aluAnd (sw : Bool) (d a b : XReg)
  /-- `ALU_OR` (R83). -/
  | aluOr (sw : Bool) (d a b : XReg)
  /-- `ALU_XOR` (R83). -/
  | aluXor (sw : Bool) (d a b : XReg)
  /-- `ALU_ANOT` (R83). -/
  | aluAnot (sw : Bool) (d a b : XReg)
  /-- `ALU_SLL` (R83). -/
  | aluSll (sw : Bool) (d a b : XReg)
  /-- `ALU_SRL` (R83). -/
  | aluSrl (sw : Bool) (d a b : XReg)
  /-- `ALU_SRA` (R83). -/
  | aluSra (sw : Bool) (d a b : XReg)
  /-- `ALU_ROL` (R83). -/
  | aluRol (sw : Bool) (d a b : XReg)
  /-- `ALU_MIN` (R83). -/
  | aluMin (sw : Bool) (d a b : XReg)
  /-- `ALU_MAX` (R83). -/
  | aluMax (sw : Bool) (d a b : XReg)
  /-- `ALU_UMIN` (R83). -/
  | aluUmin (sw : Bool) (d a b : XReg)
  /-- `ALU_UMAX` (R83). -/
  | aluUmax (sw : Bool) (d a b : XReg)
  /-- `ALU_STEP2` (R83). -/
  | aluStep2 (sw : Bool) (d a b : XReg)
  /-- `ALU_STEP4` (R83). -/
  | aluStep4 (sw : Bool) (d a b : XReg)
  /-- `ALU_STEP8` (R83). -/
  | aluStep8 (sw : Bool) (d a b : XReg)
  /-- `ALU_STEP64` (R83). -/
  | aluStep64 (sw : Bool) (d a b : XReg)
  /-- `ALU_CMP` (R82). -/
  | aluCmp (sw : Bool) (cond : Cond) (d a b : XReg)
  /-- `ALU_LZC` (R83). -/
  | aluLzc (sw : Bool) (d a : XReg)
  /-- `ALU_TZC` (R83). -/
  | aluTzc (sw : Bool) (d a : XReg)
  /-- `ALU_ONES` (R83). -/
  | aluOnes (sw : Bool) (d a : XReg)
  /-- `ALU_SX8` (R83). -/
  | aluSx8 (sw : Bool) (d a : XReg)
  /-- `ALU_SX16` (R83). -/
  | aluSx16 (sw : Bool) (d a : XReg)
  /-- `ALU_SX32` (R83). -/
  | aluSx32 (sw : Bool) (d a : XReg)
  /-- `ALU_ZX32` (R83). -/
  | aluZx32 (sw : Bool) (d a : XReg)
  /-- `ALU_MUL` (R84). -/
  | aluMul (sw : Bool) (d a b : XReg)
  /-- `ALU_HISS` (R84). -/
  | aluHiss (sw : Bool) (d a b : XReg)
  /-- `ALU_HIUU` (R84). -/
  | aluHiuu (sw : Bool) (d a b : XReg)
  /-- `ALU_HISU` (R84). -/
  | aluHisu (sw : Bool) (d a b : XReg)
  /-- `ALU_QUO` (R84). -/
  | aluQuo (sw : Bool) (d a b : XReg)
  /-- `ALU_QUOU` (R84). -/
  | aluQuou (sw : Bool) (d a b : XReg)
  /-- `ALU_RMD` (R84). -/
  | aluRmd (sw : Bool) (d a b : XReg)
  /-- `ALU_RMDU` (R84). -/
  | aluRmdu (sw : Bool) (d a b : XReg)
  /-- `ADDI` (R87). -/
  | addi (sw : Bool) (d a : XReg) (imm : BitVec 15)
  /-- `ANDI` (R87). -/
  | andi (sw : Bool) (d a : XReg) (imm : BitVec 15)
  /-- `ORI` (R87). -/
  | ori (sw : Bool) (d a : XReg) (imm : BitVec 15)
  /-- `XORI` (R87). -/
  | xori (sw : Bool) (d a : XReg) (imm : BitVec 15)
  /-- `CMPI` (R87). -/
  | cmpi (sw : Bool) (cond : Cond) (d a : XReg) (imm : BitVec 11)
  /-- `LIM` (R87). -/
  | lim (sw : Bool) (d : XReg) (imm : BitVec 20)
  /-- `BR` (R91). -/
  | br (sw : Bool) (cond : Cond) (a : XReg) (disp : BitVec 16)
  /-- `JMP` (R91). -/
  | jmp (sw : Bool) (d : XReg) (imm : BitVec 20)
  /-- `JR` (R91). -/
  | jr (sw : Bool) (d a : XReg) (imm : BitVec 15)
  /-- `HINT_IMM` (R89). -/
  | hintImm (sw : Bool) (data : BitVec 23)
  /-- `HINT_IMX` (R89). -/
  | hintImx (sw : Bool) (data : BitVec 23)
  /-- `HINT_MOD` (R88). -/
  | hintMod (sw : Bool) (data : BitVec 23)
  /-- `HINT_REG` (R88). -/
  | hintReg (sw : Bool) (data : BitVec 23)
  /-- `LD` (R119). -/
  | ld (sw : Bool) (sz : Size) (sext : Bool) (ord : MemOrd) (d a : XReg) (off : BitVec 10)
  /-- `ST` (R120). -/
  | st (sw : Bool) (sz : Size) (ord : MemOrd) (d a : XReg) (off : BitVec 10)
  /-- `IDX_LD` (R125). -/
  | idxLd (sw : Bool) (sz : Size) (sext : Bool) (ord : MemOrd) (d a b : XReg)
  /-- `IDX_ST` (R125). -/
  | idxSt (sw : Bool) (sz : Size) (ord : MemOrd) (d a b : XReg)
  /-- `AMO_ADD` (R127). -/
  | amoAdd (sw : Bool) (sz : Size) (ord : MemOrd) (d a b : XReg)
  /-- `AMO_AND` (R127). -/
  | amoAnd (sw : Bool) (sz : Size) (ord : MemOrd) (d a b : XReg)
  /-- `AMO_OR` (R127). -/
  | amoOr (sw : Bool) (sz : Size) (ord : MemOrd) (d a b : XReg)
  /-- `AMO_XOR` (R127). -/
  | amoXor (sw : Bool) (sz : Size) (ord : MemOrd) (d a b : XReg)
  /-- `AMO_MIN` (R127). -/
  | amoMin (sw : Bool) (sz : Size) (ord : MemOrd) (d a b : XReg)
  /-- `AMO_MAX` (R127). -/
  | amoMax (sw : Bool) (sz : Size) (ord : MemOrd) (d a b : XReg)
  /-- `AMO_MINU` (R127). -/
  | amoMinu (sw : Bool) (sz : Size) (ord : MemOrd) (d a b : XReg)
  /-- `AMO_MAXU` (R127). -/
  | amoMaxu (sw : Bool) (sz : Size) (ord : MemOrd) (d a b : XReg)
  /-- `AMO_FADD` (R128). -/
  | amoFadd (sw : Bool) (sz : Size) (ord : MemOrd) (d a b : XReg)
  /-- `AMO_SWAP` (R127). -/
  | amoSwap (sw : Bool) (sz : Size) (ord : MemOrd) (d a b : XReg)
  /-- `AMO_CAS` (R127). -/
  | amoCas (sw : Bool) (sz : Size) (ord : MemOrd) (d a b : XReg)
  /-- `RWL_RACQ` (R132). -/
  | rwlRacq (sw : Bool) (noWait : Bool) (d a : XReg)
  /-- `RWL_RREL` (R132). -/
  | rwlRrel (sw : Bool) (d a : XReg)
  /-- `RWL_WACQ` (R132). -/
  | rwlWacq (sw : Bool) (noWait : Bool) (d a : XReg)
  /-- `RWL_WREL` (R132). -/
  | rwlWrel (sw : Bool) (d a : XReg)
  /-- `FENCE_ACQ` (R135). -/
  | fenceAcq (sw : Bool) (scope : Scope)
  /-- `FENCE_REL` (R135). -/
  | fenceRel (sw : Bool) (scope : Scope)
  /-- `FENCE_AR` (R135). -/
  | fenceAr (sw : Bool) (scope : Scope)
  /-- `MSG_BIND` (R138). -/
  | msgBind (sw : Bool) (a b : XReg)
  /-- `MSG_UNBIND` (R138). -/
  | msgUnbind (sw : Bool) (d b : XReg)
  /-- `MSG_QLEN` (R138). -/
  | msgQlen (sw : Bool) (d b : XReg)
  /-- `MSG_SEND` (R139). -/
  | msgSend (sw : Bool) (d a b : XReg)
  /-- `MSG_OVF` (R140). -/
  | msgOvf (sw : Bool) (d a : XReg)
  /-- `BAR_REG` (R143). -/
  | barReg (sw : Bool)
  /-- `BAR_WD` (R146). -/
  | barWd (sw : Bool)
  /-- `BAR_ARRIVE` (R143). -/
  | barArrive (sw : Bool) (d : XReg)
  /-- `BAR_WAIT` (R144). -/
  | barWait (sw : Bool) (a : XReg)
  /-- `BAR_SYNC` (R142). -/
  | barSync (sw : Bool)
  /-- `BAR_WSYNC` (R145). -/
  | barWsync (sw : Bool) (a : XReg)
  /-- `VF_PUSH` (R150). -/
  | vfPush (sw : Bool) (a : XReg)
  /-- `VF_POP` (R150). -/
  | vfPop (sw : Bool) (a : XReg)
  /-- `VF_COUNT` (R150). -/
  | vfCount (sw : Bool) (d : XReg)
  /-- `VOP_ADD` (R100). -/
  | vopAdd (sw : Bool) (ty : LaneTy) (sat : Bool) (vd va vb : VReg) (m : MReg)
  /-- `VOP_ADD_SX` (R100). -/
  | vopAddSx (sw : Bool) (ty : LaneTy) (sat : Bool) (vd va : VReg) (xs : XReg) (m : MReg)
  /-- `VOP_SUB` (R100). -/
  | vopSub (sw : Bool) (ty : LaneTy) (sat : Bool) (vd va vb : VReg) (m : MReg)
  /-- `VOP_SUB_SX` (R100). -/
  | vopSubSx (sw : Bool) (ty : LaneTy) (sat : Bool) (vd va : VReg) (xs : XReg) (m : MReg)
  /-- `VOP_MUL` (R100). -/
  | vopMul (sw : Bool) (ty : LaneTy) (sat : Bool) (vd va vb : VReg) (m : MReg)
  /-- `VOP_MUL_SX` (R100). -/
  | vopMulSx (sw : Bool) (ty : LaneTy) (sat : Bool) (vd va : VReg) (xs : XReg) (m : MReg)
  /-- `VOP_MIN` (R100). -/
  | vopMin (sw : Bool) (ty : LaneTy) (vd va vb : VReg) (m : MReg)
  /-- `VOP_MIN_SX` (R100). -/
  | vopMinSx (sw : Bool) (ty : LaneTy) (vd va : VReg) (xs : XReg) (m : MReg)
  /-- `VOP_MAX` (R100). -/
  | vopMax (sw : Bool) (ty : LaneTy) (vd va vb : VReg) (m : MReg)
  /-- `VOP_MAX_SX` (R100). -/
  | vopMaxSx (sw : Bool) (ty : LaneTy) (vd va : VReg) (xs : XReg) (m : MReg)
  /-- `VOP_ABS` (R100). -/
  | vopAbs (sw : Bool) (ty : LaneTy) (sat : Bool) (vd va : VReg) (m : MReg)
  /-- `VOP_NEG` (R100). -/
  | vopNeg (sw : Bool) (ty : LaneTy) (sat : Bool) (vd va : VReg) (m : MReg)
  /-- `VOP_DIV` (R100). -/
  | vopDiv (sw : Bool) (ty : LaneTy) (sat : Bool) (vd va vb : VReg) (m : MReg)
  /-- `VOP_DIV_SX` (R100). -/
  | vopDivSx (sw : Bool) (ty : LaneTy) (sat : Bool) (vd va : VReg) (xs : XReg) (m : MReg)
  /-- `VOP_SQRT` (R100). -/
  | vopSqrt (sw : Bool) (ty : LaneTy) (vd va : VReg) (m : MReg)
  /-- `VOP_AND` (R100). -/
  | vopAnd (sw : Bool) (ty : LaneTy) (vd va vb : VReg) (m : MReg)
  /-- `VOP_AND_SX` (R100). -/
  | vopAndSx (sw : Bool) (ty : LaneTy) (vd va : VReg) (xs : XReg) (m : MReg)
  /-- `VOP_OR` (R100). -/
  | vopOr (sw : Bool) (ty : LaneTy) (vd va vb : VReg) (m : MReg)
  /-- `VOP_OR_SX` (R100). -/
  | vopOrSx (sw : Bool) (ty : LaneTy) (vd va : VReg) (xs : XReg) (m : MReg)
  /-- `VOP_XOR` (R100). -/
  | vopXor (sw : Bool) (ty : LaneTy) (vd va vb : VReg) (m : MReg)
  /-- `VOP_XOR_SX` (R100). -/
  | vopXorSx (sw : Bool) (ty : LaneTy) (vd va : VReg) (xs : XReg) (m : MReg)
  /-- `VOP_SLL` (R100). -/
  | vopSll (sw : Bool) (ty : LaneTy) (vd va vb : VReg) (m : MReg)
  /-- `VOP_SLL_SX` (R100). -/
  | vopSllSx (sw : Bool) (ty : LaneTy) (vd va : VReg) (xs : XReg) (m : MReg)
  /-- `VOP_SRL` (R100). -/
  | vopSrl (sw : Bool) (ty : LaneTy) (vd va vb : VReg) (m : MReg)
  /-- `VOP_SRL_SX` (R100). -/
  | vopSrlSx (sw : Bool) (ty : LaneTy) (vd va : VReg) (xs : XReg) (m : MReg)
  /-- `VOP_SRA` (R100). -/
  | vopSra (sw : Bool) (ty : LaneTy) (vd va vb : VReg) (m : MReg)
  /-- `VOP_SRA_SX` (R100). -/
  | vopSraSx (sw : Bool) (ty : LaneTy) (vd va : VReg) (xs : XReg) (m : MReg)
  /-- `VOP_MULH` (R100). -/
  | vopMulh (sw : Bool) (ty : LaneTy) (vd va vb : VReg) (m : MReg)
  /-- `VOP_MULH_SX` (R100). -/
  | vopMulhSx (sw : Bool) (ty : LaneTy) (vd va : VReg) (xs : XReg) (m : MReg)
  /-- `VFMA_FMA` (R101). -/
  | vfmaFma (sw : Bool) (ty : LaneTy) (sat : Bool) (vd va vb vc : VReg) (m : MReg)
  /-- `VFMA_FMA_SX` (R101). -/
  | vfmaFmaSx (sw : Bool) (ty : LaneTy) (sat : Bool) (vd va : VReg) (xs : XReg) (m : MReg)
  /-- `VFMA_FMS` (R101). -/
  | vfmaFms (sw : Bool) (ty : LaneTy) (sat : Bool) (vd va vb vc : VReg) (m : MReg)
  /-- `VFMA_FMS_SX` (R101). -/
  | vfmaFmsSx (sw : Bool) (ty : LaneTy) (sat : Bool) (vd va : VReg) (xs : XReg) (m : MReg)
  /-- `VFMA_FNMA` (R101). -/
  | vfmaFnma (sw : Bool) (ty : LaneTy) (sat : Bool) (vd va vb vc : VReg) (m : MReg)
  /-- `VFMA_FNMA_SX` (R101). -/
  | vfmaFnmaSx (sw : Bool) (ty : LaneTy) (sat : Bool) (vd va : VReg) (xs : XReg) (m : MReg)
  /-- `VFMA_FNMS` (R101). -/
  | vfmaFnms (sw : Bool) (ty : LaneTy) (sat : Bool) (vd va vb vc : VReg) (m : MReg)
  /-- `VFMA_FNMS_SX` (R101). -/
  | vfmaFnmsSx (sw : Bool) (ty : LaneTy) (sat : Bool) (vd va : VReg) (xs : XReg) (m : MReg)
  /-- `VFMA_DOT2` (R101). -/
  | vfmaDot2 (sw : Bool) (ty : LaneTy) (sat : Bool) (vd va vb vc : VReg) (m : MReg)
  /-- `VFMA_DOT2_SX` (R101). -/
  | vfmaDot2Sx (sw : Bool) (ty : LaneTy) (sat : Bool) (vd va : VReg) (xs : XReg) (m : MReg)
  /-- `VFMA_DOT4` (R101). -/
  | vfmaDot4 (sw : Bool) (sat : Bool) (vd va vb vc : VReg) (m : MReg)
  /-- `VFMA_DOT4_SX` (R101). -/
  | vfmaDot4Sx (sw : Bool) (sat : Bool) (vd va : VReg) (xs : XReg) (m : MReg)
  /-- `VCMP` (R102). -/
  | vcmp (sw : Bool) (ty : LaneTy) (cond : VCond) (md : MReg) (va vb : VReg) (m : MReg)
  /-- `VCMP_SX` (R102). -/
  | vcmpSx (sw : Bool) (ty : LaneTy) (cond : VCond) (md : MReg) (va : VReg) (xs : XReg) (m : MReg)
  /-- `VRED_SUM` (R103). -/
  | vredSum (sw : Bool) (ty : LaneTy) (sat : Bool) (vd va : VReg) (m : MReg)
  /-- `VRED_MIN` (R103). -/
  | vredMin (sw : Bool) (ty : LaneTy) (vd va : VReg) (m : MReg)
  /-- `VRED_MAX` (R103). -/
  | vredMax (sw : Bool) (ty : LaneTy) (vd va : VReg) (m : MReg)
  /-- `VRED_AND` (R103). -/
  | vredAnd (sw : Bool) (ty : LaneTy) (vd va : VReg) (m : MReg)
  /-- `VRED_OR` (R103). -/
  | vredOr (sw : Bool) (ty : LaneTy) (vd va : VReg) (m : MReg)
  /-- `VRED_XOR` (R103). -/
  | vredXor (sw : Bool) (ty : LaneTy) (vd va : VReg) (m : MReg)
  /-- `VRED_PERM` (R103). -/
  | vredPerm (sw : Bool) (ty : LaneTy) (vd va vb : VReg) (m : MReg)
  /-- `VRED_ROT` (R103). -/
  | vredRot (sw : Bool) (ty : LaneTy) (vd va : VReg) (xs : XReg) (m : MReg)
  /-- `VCVT` (R105). -/
  | vcvt (sw : Bool) (src dst : LaneTy) (high : Bool) (sat : Bool) (vd va vb : VReg) (m : MReg)
  /-- `VMOV_MOV` (R106). -/
  | vmovMov (sw : Bool) (vd va : VReg) (m : MReg)
  /-- `VMOV_SEL` (R106). -/
  | vmovSel (sw : Bool) (ty : LaneTy) (vd va vb : VReg) (m : MReg)
  /-- `VMOV_BCAST` (R106). -/
  | vmovBcast (sw : Bool) (ty : LaneTy) (vd : VReg) (xs : XReg) (m : MReg)
  /-- `VMOV_EXT` (R106). -/
  | vmovExt (sw : Bool) (ty : LaneTy) (va : VReg) (xs : XReg) (m : MReg)
  /-- `VMOV_GETM` (R106). -/
  | vmovGetm (sw : Bool) (xs : XReg) (m : MReg)
  /-- `VMOV_SETM` (R106). -/
  | vmovSetm (sw : Bool) (xs : XReg) (m : MReg)
  /-- `VMOV_ZERO` (R106). -/
  | vmovZero (sw : Bool) (vd : VReg) (m : MReg)
  /-- `VMEM_LD` (R107). -/
  | vmemLd (sw : Bool) (ord : MemOrd) (v : VReg) (m : MReg) (a : XReg) (off : BitVec 10)
  /-- `VMEM_ST` (R107). -/
  | vmemSt (sw : Bool) (ord : MemOrd) (v : VReg) (m : MReg) (a : XReg) (off : BitVec 10)
  /-- `VMEM_LDF` (R109). -/
  | vmemLdf (sw : Bool) (ord : MemOrd) (v : VReg) (m : MReg) (a : XReg) (off : BitVec 10)
  /-- `VMEM_LDB` (R109). -/
  | vmemLdb (sw : Bool) (ord : MemOrd) (v : VReg) (m : MReg) (a : XReg) (off : BitVec 10)
  /-- `PAT_CFG` (R113). -/
  | patCfg (sw : Bool) (a : XReg)
  /-- `PAT_EXEC` (R114). -/
  | patExec (sw : Bool) (d a b : XReg)
  /-- `MX_GANG` (R160). -/
  | mxGang (sw : Bool) (d a : XReg)
  /-- `MX_ROWOUT` (R164). -/
  | mxRowout (sw : Bool)
  /-- `JOB_SUB` (R171). -/
  | jobSub (sw : Bool) (d a : XReg)
  /-- `JOB_POLL` (R169). -/
  | jobPoll (sw : Bool) (d a : XReg)
  /-- `JOB_WAIT` (R169). -/
  | jobWait (sw : Bool) (d a : XReg)
  /-- `XBAR_CNT` (R174). -/
  | xbarCnt (sw : Bool) (a b : XReg)
  /-- `XBAR_TERM` (R174). -/
  | xbarTerm (sw : Bool) (a b : XReg)
  /-- `XBAR_RDC` (R174). -/
  | xbarRdc (sw : Bool) (d a : XReg)
  /-- `XBAR_PULSE` (R174). -/
  | xbarPulse (sw : Bool) (a : XReg)
  /-- `XBAR_CLR` (R174). -/
  | xbarClr (sw : Bool) (a : XReg)
  /-- `WORK_START` (R178). -/
  | workStart (sw : Bool) (d a b : XReg)
  /-- `WORK_FORK` (R179). -/
  | workFork (sw : Bool) (d a b : XReg)
  /-- `WORK_JOIN` (R180). -/
  | workJoin (sw : Bool) (a : XReg)
  /-- `WORK_EXIT` (R181). -/
  | workExit (sw : Bool) (a : XReg)
  /-- `WORK_YIELD` (R183). -/
  | workYield (sw : Bool)
  /-- `WORK_HOLD` (R184). -/
  | workHold (sw : Bool) (d a : XReg)
  /-- `WORK_RELEASE` (R184). -/
  | workRelease (sw : Bool) (d a : XReg)
  /-- `WORK_LAUNCH` (R186). -/
  | workLaunch (sw : Bool) (d a : XReg)
  /-- `WORK_MIGRATE` (R187). -/
  | workMigrate (sw : Bool) (d a : XReg)
  /-- `OTASK_SUB` (R192). -/
  | otaskSub (sw : Bool) (d a : XReg)
  /-- `OTASK_STAT` (R197). -/
  | otaskStat (sw : Bool) (d a : XReg)
  /-- `GANG_LEAD` (R199). -/
  | gangLead (sw : Bool) (d a : XReg)
  /-- `GANG_FOLLOW` (R199). -/
  | gangFollow (sw : Bool) (d a : XReg)
  /-- `GANG_JOIN` (R201). -/
  | gangJoin (sw : Bool) (a : XReg)
  /-- `GANG_END` (R202). -/
  | gangEnd (sw : Bool)
  /-- `GANG_STAT` (R198). -/
  | gangStat (sw : Bool) (d : XReg)
  /-- `CX_DEF` (R208). -/
  | cxDef (sw : Bool) (d a : XReg)
  /-- `CX_DEP` (R209). -/
  | cxDep (sw : Bool) (d a b : XReg)
  /-- `CX_RUN` (R207). -/
  | cxRun (sw : Bool)
  /-- `CX_STOP` (R207). -/
  | cxStop (sw : Bool)
  /-- `CX_RD` (R210). -/
  | cxRd (sw : Bool) (d a b : XReg)
  /-- `CX_SLOPE` (R211). -/
  | cxSlope (sw : Bool) (a b : XReg)
  /-- `CX_SAMPLE` (R212). -/
  | cxSample (sw : Bool) (d a b : XReg)
  /-- `SR_DEF` (R216). -/
  | srDef (sw : Bool) (a : XReg)
  /-- `SR_PUT` (R217). -/
  | srPut (sw : Bool) (d a b : XReg)
  /-- `SR_DONE` (R219). -/
  | srDone (sw : Bool) (a : XReg)
  /-- `SR_REJ` (R219). -/
  | srRej (sw : Bool) (a : XReg)
  /-- `SR_STAT` (R220). -/
  | srStat (sw : Bool) (d a : XReg)
  /-- `SR_DRAIN` (R220). -/
  | srDrain (sw : Bool) (d a : XReg)
  /-- `FR_BOARD` (R223). -/
  | frBoard (sw : Bool) (d a : XReg)
  /-- `FR_CANCEL` (R225). -/
  | frCancel (sw : Bool) (d a : XReg)
  /-- `FR_STAT` (R225). -/
  | frStat (sw : Bool) (d a : XReg)
  /-- `RED_TREE` (R228). -/
  | redTree (sw : Bool) (d a : XReg)
  /-- `RED_PUT` (R229). -/
  | redPut (sw : Bool) (d a b : XReg)
  /-- `RED_WAIT` (R230). -/
  | redWait (sw : Bool) (d a : XReg)
  /-- `RED_STAT` (R230). -/
  | redStat (sw : Bool) (d a b : XReg)
  /-- `RED_MAN` (R231). -/
  | redMan (sw : Bool) (d a b : XReg)
  /-- `SYS_GETS` (R234). -/
  | sysGets (sw : Bool) (d : XReg) (sn : SReg)
  /-- `SYS_SETS` (R234). -/
  | sysSets (sw : Bool) (d : XReg) (sn : SReg)
  /-- `SYS_BRK` (R239). -/
  | sysBrk (sw : Bool) (a : XReg)
  /-- `SYS_RET` (R237). -/
  | sysRet (sw : Bool)
  /-- `SYS_GATE` (R241). -/
  | sysGate (sw : Bool) (d a : XReg)
  /-- `SYS_INVP` (R242). -/
  | sysInvp (sw : Bool) (a b : XReg)
  /-- `SYS_INVA` (R242). -/
  | sysInva (sw : Bool) (b : XReg)
  /-- `SYS_MRET` (R240). -/
  | sysMret (sw : Bool)
  /-- `AMO_HOME_APPLY` (R127). -/
  | amoHomeApply (r : AtomicReq)
  /-- `LOCK_REEVALUATE` (R133). -/
  | lockReevaluate (addr : Nat)
  /-- `LOCK_RESEND` (R133). -/
  | lockResend (r : LockReq)
  /-- `MESSAGE_ARRIVAL` (R294). -/
  | messageArrival (msg : Message)
  /-- `SEND_OUTCOME` (R139). -/
  | sendOutcome (who : Issuer) (dest : XReg) (outcome : Nat)
  /-- `CONSUME` (R295). -/
  | consume (core ring : Nat) (n : Word)
  /-- `QUEUE_ENTRY_ARRIVAL` (R297). -/
  | queueEntryArrival (core : Nat) (port : Fin 8) (value : Word)
  /-- `CREDIT_RETURN` (R297). -/
  | creditReturn (core : Nat) (port : Fin 8)
  /-- `MESH_PHASE_RELEASE` (R144). -/
  | meshPhaseRelease (die col row w h : Nat)
  /-- `WIRED_TAG_RELEASE` (R145). -/
  | wiredTagRelease (die : Nat) (tag : Fin 8)
  /-- `GANG_BARRIER_CONSUME` (R160). -/
  | gangBarrierConsume (cluster : Nat)
  /-- `JOB_START` (R154). -/
  | jobStart (cluster : Nat) (engine : Engine)
  /-- `ROW_END` (R163). -/
  | rowEnd (cluster : Nat) (slice : Fin 8)
  /-- `DRAIN_PATH_WRITE` (R264). -/
  | drainPathWrite (cluster : Nat) (slice : Fin 8)
  /-- `MATRIX_OPERATION_COMPLETE` (R165). -/
  | matrixOperationComplete (cluster : Nat)
  /-- `COPY_JOB_COMPLETE` (R171). -/
  | copyJobComplete (cluster : Nat)
  /-- `OPERATION_FAILURE` (R166). -/
  | operationFailure (cluster : Nat) (engine : Engine) (cause : Cause) (va : Word)
  /-- `FORWARDED_WORD_ARRIVAL` (R200). -/
  | forwardedWordArrival (core : Nat) (word : BitVec 32) (pc : Word)
  /-- `CROSSING_SUBMIT` (R325). -/
  | crossingSubmit (cluster slot : Nat)
  /-- `BOARDING_REQUEST` (R398). -/
  | boardingRequest (req : BoardReq)
  /-- `CANCEL_REQUEST` (R225). -/
  | cancelRequest (who : CtxId) (dest : XReg) (ident : Nat)
  /-- `CONTRIBUTION_ARRIVAL` (R303). -/
  | contributionArrival (router : Nat) (port : Nat) (c : Contribution)
  /-- `CHUNK_COMPLETE` (R229). -/
  | chunkComplete (die slot chunk : Nat)
  /-- `FAILURE_NOTICE` (R414). -/
  | failureNotice (die slot chunk step : Nat) (hop : BitVec 32)
  /-- `SRSEED_WRITE` (R221). -/
  | srseedWrite (cluster : Nat) (value : Word)
  /-- `BARRECT_WRITE` (R147). -/
  | barrectWrite (core : Nat) (value : Word)
  /-- `WBARTAG_WRITE` (R148). -/
  | wbartagWrite (core : Nat) (value : Word)
  /-- `FRSPEED_WRITE` (R397). -/
  | frspeedWrite (value : Word)
  /-- `RESULT_WRITE` (R20). -/
  | resultWrite (who : CtxId) (r : Result)
  /-- `STORE_ACKNOWLEDGE` (R120). -/
  | storeAcknowledge (who : Issuer) (beyond mark : Bool)
  /-- `WATCH_REEVALUATE` (R122). -/
  | watchReevaluate (look : WatchLook)
  /-- `POSTED_POISON_TRAP` (R129). -/
  | postedPoisonTrap (who : Issuer) (va : Word)
  /-- `DOCK_WRITE` (R399). -/
  | dockWrite (pier : Nat)
  /-- `LAUNCH_ACCEPT_CHECK` (R352). -/
  | launchAcceptCheck (die lid : Nat)
  /-- `BERTH_LOAD` (R357): the load of a launch goes on; from outside, the module files of its description. -/
  | berthLoad (lid : Nat) (files : List ModuleFile)
  /-- `PREEMPTION_REQUEST` (R360). -/
  | preemptionRequest (lid : Nat)
  /-- `PREEMPTION_HALT` (R360). -/
  | preemptionHalt (lid : Nat)
  /-- `LAUNCH_END` (R358). -/
  | launchEnd (lid : Nat)
  /-- `LINE_FETCHED` (R17). -/
  | lineFetched (core : Nat) (line : Nat)
  /-- `MIGRATION_ARRIVAL` (R188). -/
  | migrationArrival (m : MigrantId)
  /-- `SAMPLE_CAPTURE` (R212). -/
  | sampleCapture (who : CtxId)
  /-- `SWAP_OUT_COMPLETE` (R272). -/
  | swapOutComplete (core : Nat)
  /-- `STEAL_BACKOFF_EXPIRY` (R271). -/
  | stealBackoffExpiry (core : Nat)
  /-- `STEAL_ATTEMPT` (R271). -/
  | stealAttempt (core : Nat)
  /-- `CROSSBAR_CYCLE` (R172). -/
  | crossbarCycle (cluster : Nat)
  /-- `STAGE_DRAW` (R334). -/
  | stageDraw (cluster : Nat)
  /-- `TRAP_ENTRY` (R237). -/
  | trapEntry (who : CtxId) (trap : Trap)
  /-- `LIMITER_STEP` (R29). -/
  | limiterStep (group : Nat)
  /-- `START_SELECTOR` (R268). -/
  | startSelector (core : Nat)
  /-- `TASK_DISPATCH` (R267). -/
  | taskDispatch (die : Nat)
  /-- `SWAP_OUT` (R272). -/
  | swapOut (core : Nat)
  /-- `RESUME_RESTORE` (R273). -/
  | resumeRestore (core : Nat)
  /-- `TASK_COMMIT` (R194). -/
  | taskCommit (die : Nat)
  /-- `TILE_TAG_STORE` (R289). -/
  | tileTagStore (core : Nat) (tile : Nat) (value : Word)
  /-- `TILE_READY_ENTRY_STORE` (R291). -/
  | tileReadyEntryStore (core : Nat) (entry : Nat) (dw : Nat) (value : Word)
  /-- `TILE_READY_FIRE` (R291). -/
  | tileReadyFire (core entry : Nat)
  /-- `STALL_WATCHDOG_TRIP` (R299). -/
  | stallWatchdogTrip (group : Nat)
  /-- `FERRY_STEP` (R394). -/
  | ferryStep
  /-- `RING_PAUSE` (R395). -/
  | ringPause
  /-- `LAP_BOUNDARY` (R403). -/
  | lapBoundary
  /-- `HOLDBACK` (R397). -/
  | holdback
  /-- `REFRESH_WINDOW` (R405). -/
  | refreshWindow
  /-- `HOME_TRANSLATION` (R370). -/
  | homeTranslation (die tenant : Nat) (kind : AccessKind) (va : Word)
  /-- `PAGE_MIGRATION` (R385). -/
  | pageMigration (die tenant : Nat) (va : Word) (owner : Nat) (frame : Nat)
  /-- `LREQ` (R351). -/
  | lreq (die : Nat) (value : Word)
  /-- `PREEMPTLID` (R356). -/
  | preemptlid (die : Nat) (value : Word)
  /-- `RESTOREBASE` (R368). -/
  | restorebase (die : Nat) (value : Word)
  /-- `INVAL` (R387). -/
  | inval (die : Nat) (value : Word)
  /-- `PRESOLVE` (R379). -/
  | presolve (die : Nat) (value : Word)
  /-- `FQBASE` (R417). -/
  | fqbase (die : Nat) (value : Word)
  /-- `HOST_REGISTER_WRITE` (R351). -/
  | hostRegisterWrite (die : Nat) (offset : Nat) (value : Word)
  /-- `HEAD_PLACEMENT` (R355). -/
  | headPlacement (die : Nat)
  /-- `QUANTUM_EXHAUSTED` (R356). -/
  | quantumExhausted (lid : Nat)
  /-- `ACTFC_UPDATE` (R359). -/
  | actfcUpdate (die : Nat)
  /-- `LINK_FLIT_REFUSED` (R408): by number, between two dies; `again` when it is the flit that the link refused last. -/
  | linkFlitRefused (link dieA dieB : Nat) (again : Bool)
  /-- `TENANT_FIELD_ERROR` (R409). -/
  | tenantFieldError (who : CtxId) (va : Word) (packet : Packet) (copyGood : Bool)
  /-- `MACHINE_CHECK` (R410). -/
  | machineCheck (core : Nat) (intact : Bool)
  /-- `SCRUB` (R407). -/
  | scrub (addr : EccPlace) (finding : EccFinding)
  /-- `CORE_RETIREMENT` (R418). -/
  | coreRetirement (die rowPair : Nat)
  /-- `POWER_DOWN` (R421). -/
  | powerDown (core : Nat)
  /-- `WAKE` (R422). -/
  | wake (core : Nat)
  /-- `ROUTER_CLOCK_GATE` (R423). -/
  | routerClockGate (core : Nat)
  /-- `MODULE_RESET` (R425). -/
  | moduleReset
  /-- `RDMA_WRITE` (R388). -/
  | rdmaWrite (tenant : Nat) (va : Word) (bytes : List Byte)
  /-- `RDMA_READ` (R388). -/
  | rdmaRead (tenant : Nat) (va : Word) (len : Nat)
  /-- `SEND` (R388). -/
  | send (tenant : Nat) (bytes : List Byte)
  /-- `CXL_MEM_ACCESS` (R386). -/
  | cxlMemAccess (pa : Nat) (write : Option (List Byte)) (len : Nat)
  /-- `GET_VERSION` (R429). -/
  | getVersion
  /-- `GET_CAPABILITIES` (R429). -/
  | getCapabilities
  /-- `NEGOTIATE_ALGORITHMS` (R429). -/
  | negotiateAlgorithms (asym hash : Nat)
  /-- `GET_DIGESTS` (R429). -/
  | getDigests
  /-- `GET_CERTIFICATE` (R429). -/
  | getCertificate (slot offset len : Nat)
  /-- `CHALLENGE` (R429). -/
  | challenge (slot : Nat) (nonce : List Byte)
  /-- `GET_MEASUREMENTS` (R429). -/
  | getMeasurements (index : Nat)
  /-- `PRQHEAD` (R387). -/
  | prqhead (die : Nat) (value : Word)
  /-- `FIRMWARE_IMAGE_WRITE` (R428). -/
  | firmwareImageWrite (image : FirmwareImage)
  /-- `JUNCTION_LIMIT` (R424). -/
  | junctionLimit (die : Nat)
  deriving DecidableEq, Repr

end Sys2Proof
end

