-- ==== Sys2Proof/WellFormed.lean ====
section
/-! DEFINITION. Which terms of `Instr` are instructions of the module: the combinations of field values that the function maps
assign (02 R50 and the maps of 04 to 10), and for events the ranges of the entities they name (00 R2, R3). -/

namespace Sys2Proof

/-- The float lane types (05 R95). -/
def LaneTy.isFloat : LaneTy → Bool
  | .f32 | .bf16 | .f16 => true
  | .i32 | .i16 | .i8 | .i64 => false

/-- `sz` = d takes no sign extension (02 R50); loads take `rlx` or `acq` (06 R118). -/
def WellFormed.load (sz : Size) (sext : Bool) (ord : MemOrd) : Bool :=
  !(decide (sz = .d) && sext) && (decide (ord = .rlx) || decide (ord = .acq))

/-- Stores take `rlx` or `rel` (06 R118). -/
def WellFormed.store (ord : MemOrd) : Bool := decide (ord = .rlx) || decide (ord = .rel)

/-- `amo` takes `w` and `d` (06 R126). -/
def WellFormed.amo (sz : Size) : Bool := decide (sz = .w) || decide (sz = .d)

/-- The conditions that `br` assigns (04 R82). -/
def WellFormed.br : Cond → Bool
  | .eq | .ne | .lt | .ge | .gt | .le | .any | .none => true
  | .ltu | .geu | .gtu | .leu => false

/-- The conditions that `vcmp` accepts for a lane type (05 R102). -/
def WellFormed.vcmp (ty : LaneTy) (c : VCond) : Bool :=
  match ty with
  | .f32 | .bf16 | .f16 =>
    match c with
    | .un => true
    | .cond .eq | .cond .ne | .cond .lt | .cond .ge | .cond .gt | .cond .le => true
    | .cond _ => false
  | .i32 | .i16 | .i64 => match c with | .un => false | .cond _ => true
  | .i8 => false

/-- The lane types of `fma` and its kin (05 R101). -/
def WellFormed.fma (ty : LaneTy) : Bool := decide (ty ≠ .i64)

/-- The pairs of `vcvt` (05 R104). -/
inductive CvtKind where
  | same | narrow | widen
  deriving DecidableEq, Repr

/-- The kind of the pair source → destination, if it exists (05 R104). -/
def cvtKind (src dst : LaneTy) : Option CvtKind :=
  match src, dst with
  | .f32, .i32 | .i32, .f32 | .bf16, .f16 | .f16, .bf16 | .bf16, .i16 | .i16, .bf16 | .f16, .i16 | .i16, .f16 => some .same
  | .f32, .bf16 | .f32, .f16 | .f32, .i16 | .i32, .i16 | .i16, .i8 | .bf16, .i8 | .f16, .i8 | .i64, .i32 => some .narrow
  | .bf16, .f32 | .f16, .f32 | .i16, .i32 | .i16, .f32 | .i8, .i16 | .i8, .bf16 | .i8, .f16 | .i32, .i64 => some .widen
  | _, _ => none

/-- Where `sat` is assigned in `vcvt` (05 R104). -/
def cvtSat (src dst : LaneTy) : Bool :=
  match cvtKind src dst with
  | some .same => (src.isFloat && !dst.isFloat) || (decide (src = .bf16) && decide (dst = .f16))
  | some .narrow => true
  | _ => false

/-- The assigned forms of `vcvt`: the half bit only for widening, vb only for narrowing (05 R104, 02 R37). -/
def WellFormed.vcvt (src dst : LaneTy) (high sat : Bool) (vb : VReg) : Bool :=
  match cvtKind src dst with
  | none => false
  | some k => (!high || decide (k = .widen)) && (!sat || cvtSat src dst) && (decide (k = .narrow) || decide (vb = 0))

/-- Core, cluster, group, die indices (00 R2, R3). -/
def isCore (n : Nat) : Bool := decide (n < 262144)
def isCluster (n : Nat) : Bool := decide (n < 32768)
def isGroup (n : Nat) : Bool := decide (n < 4096)
def isDie (n : Nat) : Bool := decide (n < 32)

/-- The instruction is one that the module has. -/
def WellFormed (i : Instr) : Bool :=
  match i with
  | .br _ cond _ _ => WellFormed.br cond
  | .ld _ sz sext ord _ _ _ => WellFormed.load sz sext ord
  | .st _ _ ord _ _ _ => WellFormed.store ord
  | .idxLd _ sz sext ord _ _ _ => WellFormed.load sz sext ord
  | .idxSt _ _ ord _ _ _ => WellFormed.store ord
  | .amoAdd _ sz _ _ _ _ | .amoAnd _ sz _ _ _ _ | .amoOr _ sz _ _ _ _ | .amoXor _ sz _ _ _ _ | .amoMin _ sz _ _ _ _
  | .amoMax _ sz _ _ _ _ | .amoMinu _ sz _ _ _ _ | .amoMaxu _ sz _ _ _ _ | .amoSwap _ sz _ _ _ _ | .amoCas _ sz _ _ _ _ =>
    WellFormed.amo sz
  | .amoFadd _ sz _ _ _ _ => decide (sz = .w)
  | .msgBind _ _ b | .msgUnbind _ _ b | .msgQlen _ _ b => decide (24 ≤ b.val)
  | .vopAbs _ ty sat _ _ _ | .vopNeg _ ty sat _ _ _ => !sat || !ty.isFloat
  | .vopDiv _ ty _ _ _ _ _ | .vopDivSx _ ty _ _ _ _ _ => ty.isFloat
  | .vopSqrt _ ty _ _ _ => ty.isFloat
  | .vopAnd _ ty _ _ _ _ | .vopOr _ ty _ _ _ _ | .vopXor _ ty _ _ _ _ | .vopSll _ ty _ _ _ _ | .vopSrl _ ty _ _ _ _
  | .vopSra _ ty _ _ _ _ => !ty.isFloat
  | .vopAndSx _ ty _ _ _ _ | .vopOrSx _ ty _ _ _ _ | .vopXorSx _ ty _ _ _ _ | .vopSllSx _ ty _ _ _ _ | .vopSrlSx _ ty _ _ _ _
  | .vopSraSx _ ty _ _ _ _ => !ty.isFloat
  | .vopMulh _ ty _ _ _ _ => !ty.isFloat && decide (ty ≠ .i64)
  | .vopMulhSx _ ty _ _ _ _ => !ty.isFloat && decide (ty ≠ .i64)
  | .vfmaFma _ ty _ _ _ _ _ _ | .vfmaFms _ ty _ _ _ _ _ _ | .vfmaFnma _ ty _ _ _ _ _ _ | .vfmaFnms _ ty _ _ _ _ _ _ =>
    WellFormed.fma ty
  | .vfmaFmaSx _ ty _ _ _ _ _ | .vfmaFmsSx _ ty _ _ _ _ _ | .vfmaFnmaSx _ ty _ _ _ _ _ | .vfmaFnmsSx _ ty _ _ _ _ _ =>
    WellFormed.fma ty
  | .vfmaDot2 _ ty _ _ _ _ _ _ => decide (ty = .bf16) || decide (ty = .f16)
  | .vfmaDot2Sx _ ty _ _ _ _ _ => decide (ty = .bf16) || decide (ty = .f16)
  | .vcmp _ ty cond md _ _ _ => WellFormed.vcmp ty cond && decide (md ≠ 0)
  | .vcmpSx _ ty cond md _ _ _ => WellFormed.vcmp ty cond && decide (md ≠ 0)
  | .vredAnd _ ty _ _ _ | .vredOr _ ty _ _ _ | .vredXor _ ty _ _ _ => !ty.isFloat
  | .vcvt _ src dst high sat _ _ vb _ => WellFormed.vcvt src dst high sat vb
  | .vmovSetm _ _ m => decide (m ≠ 0)
  | .vmemLd _ ord _ _ _ _ | .vmemLdf _ ord _ _ _ _ | .vmemLdb _ ord _ _ _ _ => decide (ord = .rlx) || decide (ord = .acq)
  | .vmemSt _ ord _ _ _ _ => decide (ord = .rlx) || decide (ord = .rel)
  | .amoHomeApply r => isCore r.who.slot.core
  | .postedPoisonTrap who _ | .sendOutcome who _ _ | .storeAcknowledge who _ _ => isCore who.slot.core
  | .sampleCapture who | .cancelRequest who _ _ | .trapEntry who _ | .resultWrite who _ | .tenantFieldError who _ _ _ => isCore who.core
  | .lockResend r => isCore r.who.core
  | .messageArrival m => isCore m.core && decide (m.ring < 8)
  | .boardingRequest r => isCore r.who.core
  | .queueEntryArrival c _ _ | .creditReturn c _ | .forwardedWordArrival c _ _ | .barrectWrite c _ | .wbartagWrite c _
  | .startSelector c | .stealAttempt c | .stealBackoffExpiry c | .swapOut c | .swapOutComplete c | .resumeRestore c | .powerDown c
  | .wake c | .migrationArrival { core := c, .. } | .routerClockGate c | .machineCheck c _ | .lineFetched c _ => isCore c
  | .tileTagStore c t _ => isCore c && decide (t < 192)
  | .tileReadyEntryStore c e dw _ => isCore c && decide (e < 16) && decide (dw < 4)
  | .tileReadyFire c e => isCore c && decide (e < 16)
  | .consume c r _ => isCore c && decide (r < 8)
  | .meshPhaseRelease die col row w h =>
    isDie die && decide (1 ≤ w) && decide (1 ≤ h) && decide (col + w ≤ 128) && decide (row + h ≤ 64)
  | .wiredTagRelease die _ => isDie die
  | .gangBarrierConsume cl | .matrixOperationComplete cl | .copyJobComplete cl | .crossbarCycle cl | .stageDraw cl
  | .srseedWrite cl _ | .jobStart cl _ | .rowEnd cl _ | .drainPathWrite cl _ | .operationFailure cl _ _ _ => isCluster cl
  | .crossingSubmit cl slot => isCluster cl && decide (slot < 512)
  | .contributionArrival router port _ => isCore router && decide (port < 6)
  | .chunkComplete die slot chunk => isDie die && decide (slot < 1024) && decide (chunk < 65536)
  | .failureNotice die slot chunk _ _ => isDie die && decide (slot < 1024) && decide (chunk < 65536)
  | .limiterStep g | .stallWatchdogTrip g => isGroup g
  | .taskDispatch d | .taskCommit d | .headPlacement d | .actfcUpdate d | .junctionLimit d | .dockWrite d => isDie d
  | .homeTranslation d _ _ _ => isDie d
  | .linkFlitRefused _ a b _ => isDie a && isDie b
  | .pageMigration d _ _ owner _ => isDie d && isDie owner
  | .lreq d _ | .preemptlid d _ | .restorebase d _ | .inval d _ | .presolve d _ | .fqbase d _ | .prqhead d _ => isDie d
  | .hostRegisterWrite d off _ => isDie d && decide (off < 4096)
  | .launchAcceptCheck d _ => isDie d
  | .coreRetirement d rp => isDie d && decide (rp < 32)
  | .scrub (.word c) _ => isCore c
  | .scrub (.controller d) _ => isDie d
  | .scrub (.cell _) _ | .scrub (.header _ _) _ => true
  | .cxlMemAccess pa _ _ => decide (pa < 2 ^ 40)
  | .aluAdd .. | .aluSub .. | .aluAnd .. | .aluOr .. | .aluXor .. | .aluAnot .. | .aluSll .. | .aluSrl .. | .aluSra .. | .aluRol ..
  | .aluMin .. | .aluMax .. | .aluUmin .. | .aluUmax .. | .aluStep2 .. | .aluStep4 .. | .aluStep8 .. | .aluStep64 .. | .aluCmp ..
  | .aluLzc .. | .aluTzc .. | .aluOnes .. | .aluSx8 .. | .aluSx16 .. | .aluSx32 .. | .aluZx32 .. | .aluMul .. | .aluHiss ..
  | .aluHiuu .. | .aluHisu .. | .aluQuo .. | .aluQuou .. | .aluRmd .. | .aluRmdu .. | .addi .. | .andi .. | .ori .. | .xori ..
  | .cmpi .. | .lim .. | .jmp .. | .jr .. | .hintImm .. | .hintImx .. | .hintMod .. | .hintReg .. | .rwlRacq .. | .rwlRrel ..
  | .rwlWacq .. | .rwlWrel .. | .fenceAcq .. | .fenceRel .. | .fenceAr .. | .msgSend .. | .msgOvf .. | .barReg .. | .barWd ..
  | .barArrive .. | .barWait .. | .barSync .. | .barWsync .. | .vfPush .. | .vfPop .. | .vfCount .. | .vopAdd .. | .vopAddSx ..
  | .vopSub .. | .vopSubSx .. | .vopMul .. | .vopMulSx .. | .vopMin .. | .vopMinSx .. | .vopMax .. | .vopMaxSx .. | .vfmaDot4 ..
  | .vfmaDot4Sx .. | .vredSum .. | .vredMin .. | .vredMax .. | .vredPerm .. | .vredRot .. | .vmovMov .. | .vmovSel ..
  | .vmovBcast .. | .vmovExt .. | .vmovGetm .. | .vmovZero .. | .patCfg .. | .patExec .. | .mxGang .. | .mxRowout .. | .jobSub ..
  | .jobPoll .. | .jobWait .. | .xbarCnt .. | .xbarTerm .. | .xbarRdc .. | .xbarPulse .. | .xbarClr .. | .workStart .. | .workFork ..
  | .workJoin .. | .workExit .. | .workYield .. | .workHold .. | .workRelease .. | .workLaunch .. | .workMigrate .. | .otaskSub ..
  | .otaskStat .. | .gangLead .. | .gangFollow .. | .gangJoin .. | .gangEnd .. | .gangStat .. | .cxDef .. | .cxDep .. | .cxRun ..
  | .cxStop .. | .cxRd .. | .cxSlope .. | .cxSample .. | .srDef .. | .srPut .. | .srDone .. | .srRej .. | .srStat .. | .srDrain ..
  | .frBoard .. | .frCancel .. | .frStat .. | .redTree .. | .redPut .. | .redWait .. | .redStat .. | .redMan .. | .sysGets ..
  | .sysSets .. | .sysBrk .. | .sysRet .. | .sysGate .. | .sysInvp .. | .sysInva .. | .sysMret .. => true
  | .lockReevaluate .. | .watchReevaluate .. | .frspeedWrite .. | .ferryStep | .ringPause | .lapBoundary | .holdback
  | .refreshWindow | .quantumExhausted .. | .berthLoad .. | .preemptionRequest .. | .preemptionHalt .. | .launchEnd ..
  | .moduleReset | .rdmaWrite .. | .rdmaRead .. | .send .. | .getVersion | .getCapabilities
  | .negotiateAlgorithms .. | .getDigests | .getCertificate .. | .challenge .. | .getMeasurements .. | .firmwareImageWrite .. => true

end Sys2Proof
end

