-- ==== Sys2Proof/Decode.lean ====
section
/-! DEFINITION. The decoder of instruction words (02 R33 to R41, the function maps of 04 to 10), total on any word and on any
bytes, and after it the encoder, written from the same tables. The checks that need the context (rows 5 to 7 of
02 R41) belong to the meanings. -/

namespace Sys2Proof

/-- Why a word is no instruction: rows 1 to 4 of 02 R41, and fewer than four bytes. -/
inductive DecodeFault where
  | zeroWord
  | illegal
  | reservedField
  | truncated
  deriving DecidableEq, Repr

namespace Decode

/-- The bits hi down to lo of a word (00 R7, R10). -/
def fld (w hi lo : Nat) : Nat := w / 2 ^ lo % 2 ^ (hi + 1 - lo)

def xr (n : Nat) : XReg := Fin.ofNat 32 n
def vr (n : Nat) : VReg := Fin.ofNat 8 n
def mr (n : Nat) : MReg := Fin.ofNat 4 n

/-- Row 4 of 02 R41: every reserved field must be zero (02 R37). -/
def ok (i : Instr) (reserved : List Nat) : Except DecodeFault Instr :=
  if reserved.all (· == 0) then .ok i else .error .reservedField

/-- Row 3 of 02 R41: a combination that no function map assigns is unassigned (02 R40). -/
def assigned (c : Bool) (r : Except DecodeFault Instr) : Except DecodeFault Instr :=
  if c then r else .error .illegal

/-- The cond field (04 R82); 12 to 15 are unassigned. -/
def cond : Nat → Option Cond
  | 0 => some .eq | 1 => some .ne | 2 => some .lt | 3 => some .ge | 4 => some .gt | 5 => some .le
  | 6 => some .ltu | 7 => some .geu | 8 => some .gtu | 9 => some .leu | 10 => some .any | 11 => some .none
  | _ => none

/-- The ty sub-field (05 R95); 7 is unassigned. -/
def ty : Nat → Option LaneTy
  | 0 => some .f32 | 1 => some .bf16 | 2 => some .f16 | 3 => some .i32 | 4 => some .i16 | 5 => some .i8 | 6 => some .i64
  | _ => none

/-- The ord field (02 R50). -/
def ord (n : Nat) : MemOrd :=
  match n % 4 with | 0 => .rlx | 1 => .acq | 2 => .rel | _ => .ar

/-- The sz field (02 R50). -/
def size (n : Nat) : Size :=
  match n % 4 with | 0 => .b | 1 => .h | 2 => .w | _ => .d

/-- The scope of a fence (06 R134); 7 is unassigned. -/
def scope : Nat → Option Scope
  | 0 => some .ctx | 1 => some .core | 2 => some .clu | 3 => some .grp | 4 => some .die | 5 => some .mod | 6 => some .sys
  | _ => none

/-- The state register numbers (10 R233). -/
def sreg (n : Nat) : Option SReg :=
  if n < 8 then
    match n with
    | 0 => some .pc | 1 => some .ctxstat | 2 => some .trapcause | 3 => some .trappc | 4 => some .trapval | 5 => some .trapvec
    | _ => none
  else if n < 0x20 then
    match n - 0x10 with
    | 0 => if n = 0x10 then some .barrect else none
    | 1 => some .barphase | 2 => some .wbartag | 3 => some .qmap | 4 => some .spillbase | 5 => some .spillovf
    | 6 => some .rowprog | 7 => some .slewstat | 8 => some .vfstat
    | _ => none
  else if n < 0x28 then some (.prot (Fin.ofNat 8 n))
  else
    match n with
    | 0x40 => some .cxtick | 0x41 => some .cxstorm | 0x42 => some .srseed
    | 0x80 => some .frspeed | 0x81 => some .frlap | 0x82 => some .wsref | 0x83 => some .actfc | 0x84 => some .launchstat
    | _ => none

/-- The alu major (04 R81). -/
def alu (s : Bool) (d a b fn : Nat) : Except DecodeFault Instr :=
  let c := fn % 16
  let bin (i : Instr) := ok i [c]
  let un (i : Instr) := ok i [c, b]
  match fn / 16 with
  | 0x00 => bin (.aluAdd s (xr d) (xr a) (xr b))
  | 0x01 => bin (.aluSub s (xr d) (xr a) (xr b))
  | 0x02 => bin (.aluAnd s (xr d) (xr a) (xr b))
  | 0x03 => bin (.aluOr s (xr d) (xr a) (xr b))
  | 0x04 => bin (.aluXor s (xr d) (xr a) (xr b))
  | 0x05 => bin (.aluAnot s (xr d) (xr a) (xr b))
  | 0x06 => bin (.aluSll s (xr d) (xr a) (xr b))
  | 0x07 => bin (.aluSrl s (xr d) (xr a) (xr b))
  | 0x08 => bin (.aluSra s (xr d) (xr a) (xr b))
  | 0x09 => bin (.aluRol s (xr d) (xr a) (xr b))
  | 0x0A => bin (.aluMin s (xr d) (xr a) (xr b))
  | 0x0B => bin (.aluMax s (xr d) (xr a) (xr b))
  | 0x0C => bin (.aluUmin s (xr d) (xr a) (xr b))
  | 0x0D => bin (.aluUmax s (xr d) (xr a) (xr b))
  | 0x0E => bin (.aluStep2 s (xr d) (xr a) (xr b))
  | 0x0F => bin (.aluStep4 s (xr d) (xr a) (xr b))
  | 0x10 => bin (.aluStep8 s (xr d) (xr a) (xr b))
  | 0x11 => bin (.aluStep64 s (xr d) (xr a) (xr b))
  | 0x12 =>
    match cond c with
    | some k => ok (.aluCmp s k (xr d) (xr a) (xr b)) []
    | none => .error .illegal
  | 0x14 => un (.aluLzc s (xr d) (xr a))
  | 0x15 => un (.aluTzc s (xr d) (xr a))
  | 0x16 => un (.aluOnes s (xr d) (xr a))
  | 0x17 => un (.aluSx8 s (xr d) (xr a))
  | 0x18 => un (.aluSx16 s (xr d) (xr a))
  | 0x19 => un (.aluSx32 s (xr d) (xr a))
  | 0x1A => un (.aluZx32 s (xr d) (xr a))
  | 0x20 => bin (.aluMul s (xr d) (xr a) (xr b))
  | 0x21 => bin (.aluHiss s (xr d) (xr a) (xr b))
  | 0x22 => bin (.aluHiuu s (xr d) (xr a) (xr b))
  | 0x23 => bin (.aluHisu s (xr d) (xr a) (xr b))
  | 0x24 => bin (.aluQuo s (xr d) (xr a) (xr b))
  | 0x25 => bin (.aluQuou s (xr d) (xr a) (xr b))
  | 0x26 => bin (.aluRmd s (xr d) (xr a) (xr b))
  | 0x27 => bin (.aluRmdu s (xr d) (xr a) (xr b))
  | _ => .error .illegal

/-- The amo major (06 R126). -/
def amo (s : Bool) (d a b fn : Nat) : Except DecodeFault Instr :=
  let sz := size (fn / 8)
  let o := ord (fn / 2)
  let wd (i : Instr) := assigned (WellFormed.amo sz) (ok i [fn % 2])
  match fn / 32 with
  | 0 => wd (.amoAdd s sz o (xr d) (xr a) (xr b))
  | 1 => wd (.amoAnd s sz o (xr d) (xr a) (xr b))
  | 2 => wd (.amoOr s sz o (xr d) (xr a) (xr b))
  | 3 => wd (.amoXor s sz o (xr d) (xr a) (xr b))
  | 4 => wd (.amoMin s sz o (xr d) (xr a) (xr b))
  | 5 => wd (.amoMax s sz o (xr d) (xr a) (xr b))
  | 6 => wd (.amoMinu s sz o (xr d) (xr a) (xr b))
  | 7 => wd (.amoMaxu s sz o (xr d) (xr a) (xr b))
  | 8 => assigned (decide (sz = .w)) (ok (.amoFadd s sz o (xr d) (xr a) (xr b)) [fn % 2])
  | 9 => wd (.amoSwap s sz o (xr d) (xr a) (xr b))
  | 10 => wd (.amoCas s sz o (xr d) (xr a) (xr b))
  | _ => .error .illegal

/-- The rwl major (06 R131). -/
def rwl (s : Bool) (d a b fn : Nat) : Except DecodeFault Instr :=
  let t := decide (fn / 64 % 2 = 1)
  let rest := [fn % 64, b]
  match fn / 128 with
  | 0 => ok (.rwlRacq s t (xr d) (xr a)) rest
  | 1 => assigned (!t) (ok (.rwlRrel s (xr d) (xr a)) rest)
  | 2 => ok (.rwlWacq s t (xr d) (xr a)) rest
  | 3 => assigned (!t) (ok (.rwlWrel s (xr d) (xr a)) rest)
  | _ => .error .illegal

/-- The fence major (06 R134). -/
def fence (s : Bool) (d a b fn : Nat) : Except DecodeFault Instr :=
  let rest := [fn % 32, d, a, b]
  match fn / 256 % 4, scope (fn / 32 % 8) with
  | 1, some sc => ok (.fenceAcq s sc) rest
  | 2, some sc => ok (.fenceRel s sc) rest
  | 3, some sc => ok (.fenceAr s sc) rest
  | _, _ => .error .illegal

/-- The msg major (06 R136). -/
def msg (s : Bool) (d a b fn : Nat) : Except DecodeFault Instr :=
  match fn with
  | 0 => assigned (decide (24 ≤ b)) (ok (.msgBind s (xr a) (xr b)) [d])
  | 1 => assigned (decide (24 ≤ b)) (ok (.msgUnbind s (xr d) (xr b)) [a])
  | 2 => assigned (decide (24 ≤ b)) (ok (.msgQlen s (xr d) (xr b)) [a])
  | 3 => ok (.msgSend s (xr d) (xr a) (xr b)) []
  | 4 => ok (.msgOvf s (xr d) (xr a)) [b]
  | _ => .error .illegal

/-- The bar major (06 R142). -/
def bar (s : Bool) (d a b fn : Nat) : Except DecodeFault Instr :=
  match fn with
  | 0 => ok (.barReg s) [d, a, b]
  | 1 => ok (.barWd s) [d, a, b]
  | 2 => ok (.barArrive s (xr d)) [a, b]
  | 3 => ok (.barWait s (xr a)) [d, b]
  | 4 => ok (.barSync s) [d, a, b]
  | 5 => ok (.barWsync s (xr a)) [d, b]
  | _ => .error .illegal

/-- The vf major (06 R149). -/
def vf (s : Bool) (d a b fn : Nat) : Except DecodeFault Instr :=
  match fn with
  | 0 => ok (.vfPush s (xr a)) [d, b]
  | 1 => ok (.vfPop s (xr a)) [d, b]
  | 2 => ok (.vfCount s (xr d)) [a, b]
  | _ => .error .illegal

/-- The low 25 bits of the vector formats V and VS (02 R34, 05 R96), with xs over bits 18:14. -/
structure VFields where
  vd : Nat
  va : Nat
  vb : Nat
  vc : Nat
  xs : Nat
  b13 : Nat
  m : Nat
  op : Nat
  ty : Nat
  sat : Bool
  sx : Bool

def vfields (w : Nat) : VFields :=
  { vd := fld w 24 22, va := fld w 21 19, vb := fld w 18 16, vc := fld w 15 13, xs := fld w 18 14, b13 := fld w 13 13
    m := fld w 12 11, op := fld w 10 5, ty := fld w 4 2, sat := decide (fld w 1 1 = 1), sx := decide (fld w 0 0 = 1) }

/-- The vop major (05 R99). -/
def vop (s : Bool) (f : VFields) : Except DecodeFault Instr :=
  match ty f.ty with
  | none => .error .illegal
  | some t =>
    let d := vr f.vd
    let a := vr f.va
    let b := vr f.vb
    let x := xr f.xs
    let m := mr f.m
    let bin (okTy okSat : Bool) (i j : Instr) :=
      assigned (okTy && (!f.sat || okSat)) (if f.sx then ok j [f.b13] else ok i [f.vc])
    let un (okTy okSat : Bool) (i : Instr) := assigned (okTy && (!f.sat || okSat) && !f.sx) (ok i [f.vb, f.vc])
    match f.op with
    | 0x00 => bin true true (.vopAdd s t f.sat d a b m) (.vopAddSx s t f.sat d a x m)
    | 0x01 => bin true true (.vopSub s t f.sat d a b m) (.vopSubSx s t f.sat d a x m)
    | 0x02 => bin true true (.vopMul s t f.sat d a b m) (.vopMulSx s t f.sat d a x m)
    | 0x03 => bin true false (.vopMin s t d a b m) (.vopMinSx s t d a x m)
    | 0x04 => bin true false (.vopMax s t d a b m) (.vopMaxSx s t d a x m)
    | 0x05 => un true (!t.isFloat) (.vopAbs s t f.sat d a m)
    | 0x06 => un true (!t.isFloat) (.vopNeg s t f.sat d a m)
    | 0x07 => bin t.isFloat true (.vopDiv s t f.sat d a b m) (.vopDivSx s t f.sat d a x m)
    | 0x08 => un t.isFloat false (.vopSqrt s t d a m)
    | 0x09 => bin (!t.isFloat) false (.vopAnd s t d a b m) (.vopAndSx s t d a x m)
    | 0x0A => bin (!t.isFloat) false (.vopOr s t d a b m) (.vopOrSx s t d a x m)
    | 0x0B => bin (!t.isFloat) false (.vopXor s t d a b m) (.vopXorSx s t d a x m)
    | 0x0C => bin (!t.isFloat) false (.vopSll s t d a b m) (.vopSllSx s t d a x m)
    | 0x0D => bin (!t.isFloat) false (.vopSrl s t d a b m) (.vopSrlSx s t d a x m)
    | 0x0E => bin (!t.isFloat) false (.vopSra s t d a b m) (.vopSraSx s t d a x m)
    | 0x0F => bin (!t.isFloat && decide (t ≠ .i64)) false (.vopMulh s t d a b m) (.vopMulhSx s t d a x m)
    | _ => .error .illegal

/-- The vfma major (05 R101). -/
def vfma (s : Bool) (f : VFields) : Except DecodeFault Instr :=
  match ty f.ty with
  | none => .error .illegal
  | some t =>
    let d := vr f.vd
    let a := vr f.va
    let b := vr f.vb
    let c := vr f.vc
    let x := xr f.xs
    let m := mr f.m
    let form (okTy : Bool) (i j : Instr) := assigned okTy (if f.sx then ok j [f.b13] else ok i [])
    match f.op with
    | 0x00 => form (WellFormed.fma t) (.vfmaFma s t f.sat d a b c m) (.vfmaFmaSx s t f.sat d a x m)
    | 0x01 => form (WellFormed.fma t) (.vfmaFms s t f.sat d a b c m) (.vfmaFmsSx s t f.sat d a x m)
    | 0x02 => form (WellFormed.fma t) (.vfmaFnma s t f.sat d a b c m) (.vfmaFnmaSx s t f.sat d a x m)
    | 0x03 => form (WellFormed.fma t) (.vfmaFnms s t f.sat d a b c m) (.vfmaFnmsSx s t f.sat d a x m)
    | 0x04 => form (decide (t = .bf16) || decide (t = .f16)) (.vfmaDot2 s t f.sat d a b c m) (.vfmaDot2Sx s t f.sat d a x m)
    | 0x05 => form (decide (t = .i8)) (.vfmaDot4 s f.sat d a b c m) (.vfmaDot4Sx s f.sat d a x m)
    | _ => .error .illegal

/-- The condition of vcmp (05 R102): 0 to 11 as R82, 12 is `un`. -/
def vcond (n : Nat) : Option VCond :=
  if n = 12 then some .un else (cond n).map .cond

/-- The vcmp major (05 R102): vd names m1 to m3, other values are unassigned. -/
def vcmp (s : Bool) (f : VFields) : Except DecodeFault Instr :=
  match ty f.ty, vcond f.op with
  | some t, some c =>
    assigned (WellFormed.vcmp t c && !f.sat && decide (1 ≤ f.vd) && decide (f.vd ≤ 3))
      (if f.sx then ok (.vcmpSx s t c (mr f.vd) (vr f.va) (xr f.xs) (mr f.m)) [f.b13]
       else ok (.vcmp s t c (mr f.vd) (vr f.va) (vr f.vb) (mr f.m)) [f.vc])
  | _, _ => .error .illegal

/-- The vred major (05 R103). -/
def vred (s : Bool) (f : VFields) : Except DecodeFault Instr :=
  match ty f.ty with
  | none => .error .illegal
  | some t =>
    let d := vr f.vd
    let a := vr f.va
    let m := mr f.m
    let red (okTy okSat : Bool) (i : Instr) := assigned (okTy && (!f.sat || okSat) && !f.sx) (ok i [f.vb, f.vc])
    match f.op with
    | 0x00 => red true true (.vredSum s t f.sat d a m)
    | 0x01 => red true false (.vredMin s t d a m)
    | 0x02 => red true false (.vredMax s t d a m)
    | 0x03 => red (!t.isFloat) false (.vredAnd s t d a m)
    | 0x04 => red (!t.isFloat) false (.vredOr s t d a m)
    | 0x05 => red (!t.isFloat) false (.vredXor s t d a m)
    | 0x08 => assigned (!f.sat && !f.sx) (ok (.vredPerm s t d a (vr f.vb) m) [f.vc])
    | 0x09 => assigned (!f.sat && f.sx) (ok (.vredRot s t d a (xr f.xs) m) [f.b13])
    | _ => .error .illegal

/-- The vcvt major (05 R104): op is 2 × code of the destination type + half bit. -/
def vcvt (s : Bool) (f : VFields) : Except DecodeFault Instr :=
  match ty f.ty, ty (f.op / 2) with
  | some src, some dst =>
    let h := decide (f.op % 2 = 1)
    match cvtKind src dst with
    | none => .error .illegal
    | some k =>
      assigned ((!h || decide (k = .widen)) && (!f.sat || cvtSat src dst) && !f.sx)
        (ok (.vcvt s src dst h f.sat (vr f.vd) (vr f.va) (vr f.vb) (mr f.m)) (if k = .narrow then [f.vc] else [f.vb, f.vc]))
  | _, _ => .error .illegal

/-- The vmov major (05 R106): where ty is reserved, a non-zero ty is a reserved field. -/
def vmov (s : Bool) (f : VFields) : Except DecodeFault Instr :=
  let d := vr f.vd
  let a := vr f.va
  let m := mr f.m
  match f.op with
  | 0x00 => assigned (!f.sat && !f.sx) (ok (.vmovMov s d a m) [f.ty, f.vb, f.vc])
  | 0x01 =>
    match ty f.ty with
    | some t => assigned (!f.sat && !f.sx) (ok (.vmovSel s t d a (vr f.vb) m) [f.vc])
    | none => .error .illegal
  | 0x02 =>
    match ty f.ty with
    | some t => assigned (!f.sat && f.sx) (ok (.vmovBcast s t d (xr f.xs) m) [f.va, f.b13])
    | none => .error .illegal
  | 0x03 =>
    match ty f.ty with
    | some t => assigned (!f.sat && f.sx) (ok (.vmovExt s t a (xr f.xs) m) [f.vd, f.b13])
    | none => .error .illegal
  | 0x04 => assigned (!f.sat && f.sx) (ok (.vmovGetm s (xr f.xs) m) [f.ty, f.vd, f.va, f.b13])
  | 0x05 => assigned (!f.sat && f.sx && decide (f.m ≠ 0)) (ok (.vmovSetm s (xr f.xs) m) [f.ty, f.vd, f.va, f.b13])
  | 0x06 => assigned (!f.sat && !f.sx) (ok (.vmovZero s d m) [f.ty, f.va, f.vb, f.vc])
  | _ => .error .illegal

/-- The vmem major, format VM (02 R34, 05 R107). -/
def vmem (s : Bool) (w : Nat) : Except DecodeFault Instr :=
  let v := vr (fld w 24 22)
  let m := mr (fld w 21 20)
  let a := xr (fld w 19 15)
  let o := ord (fld w 11 10)
  let off := BitVec.ofNat 10 (fld w 9 0)
  let ldOrd := decide (o = .rlx) || decide (o = .acq)
  match fld w 14 12 with
  | 0 => assigned ldOrd (ok (.vmemLd s o v m a off) [])
  | 1 => assigned (WellFormed.store o) (ok (.vmemSt s o v m a off) [])
  | 2 => assigned ldOrd (ok (.vmemLdf s o v m a off) [])
  | 3 => assigned ldOrd (ok (.vmemLdb s o v m a off) [])
  | _ => .error .illegal

/-- The work major (08 R176). -/
def work (s : Bool) (d a b fn : Nat) : Except DecodeFault Instr :=
  match fn with
  | 0 => ok (.workStart s (xr d) (xr a) (xr b)) []
  | 1 => ok (.workFork s (xr d) (xr a) (xr b)) []
  | 2 => ok (.workJoin s (xr a)) [d, b]
  | 3 => ok (.workExit s (xr a)) [d, b]
  | 4 => ok (.workYield s) [d, a, b]
  | 5 => ok (.workHold s (xr d) (xr a)) [b]
  | 6 => ok (.workRelease s (xr d) (xr a)) [b]
  | 7 => ok (.workLaunch s (xr d) (xr a)) [b]
  | 8 => ok (.workMigrate s (xr d) (xr a)) [b]
  | _ => .error .illegal

/-- The gang major (08 R198). -/
def gang (s : Bool) (d a b fn : Nat) : Except DecodeFault Instr :=
  match fn with
  | 0 => ok (.gangLead s (xr d) (xr a)) [b]
  | 1 => ok (.gangFollow s (xr d) (xr a)) [b]
  | 2 => ok (.gangJoin s (xr a)) [d, b]
  | 3 => ok (.gangEnd s) [d, a, b]
  | 4 => ok (.gangStat s (xr d)) [a, b]
  | _ => .error .illegal

/-- The mx, job, xbar and otask majors (07 R157, R169, R174; 08 R189). -/
def engines (s : Bool) (major d a b fn : Nat) : Except DecodeFault Instr :=
  match major, fn with
  | 0x28, 0 => ok (.mxGang s (xr d) (xr a)) [b]
  | 0x28, 1 => ok (.mxRowout s) [d, a, b]
  | 0x29, 0 => ok (.jobSub s (xr d) (xr a)) [b]
  | 0x29, 1 => ok (.jobPoll s (xr d) (xr a)) [b]
  | 0x29, 2 => ok (.jobWait s (xr d) (xr a)) [b]
  | 0x2A, 0 => ok (.xbarCnt s (xr a) (xr b)) [d]
  | 0x2A, 1 => ok (.xbarTerm s (xr a) (xr b)) [d]
  | 0x2A, 2 => ok (.xbarRdc s (xr d) (xr a)) [b]
  | 0x2A, 3 => ok (.xbarPulse s (xr a)) [d, b]
  | 0x2A, 4 => ok (.xbarClr s (xr a)) [d, b]
  | 0x31, 0 => ok (.otaskSub s (xr d) (xr a)) [b]
  | 0x31, 1 => ok (.otaskStat s (xr d) (xr a)) [b]
  | _, _ => .error .illegal

/-- The cx, sr, fr and red majors (09 R205, R214, R222, R227). -/
def crossing (s : Bool) (major d a b fn : Nat) : Except DecodeFault Instr :=
  match major, fn with
  | 0x33, 0 => ok (.cxDef s (xr d) (xr a)) [b]
  | 0x33, 1 => ok (.cxDep s (xr d) (xr a) (xr b)) []
  | 0x33, 2 => ok (.cxRun s) [d, a, b]
  | 0x33, 3 => ok (.cxStop s) [d, a, b]
  | 0x33, 4 => ok (.cxRd s (xr d) (xr a) (xr b)) []
  | 0x33, 5 => ok (.cxSlope s (xr a) (xr b)) [d]
  | 0x33, 6 => ok (.cxSample s (xr d) (xr a) (xr b)) []
  | 0x34, 0 => ok (.srDef s (xr a)) [d, b]
  | 0x34, 1 => ok (.srPut s (xr d) (xr a) (xr b)) []
  | 0x34, 2 => ok (.srDone s (xr a)) [d, b]
  | 0x34, 3 => ok (.srRej s (xr a)) [d, b]
  | 0x34, 4 => ok (.srStat s (xr d) (xr a)) [b]
  | 0x34, 5 => ok (.srDrain s (xr d) (xr a)) [b]
  | 0x35, 0 => ok (.frBoard s (xr d) (xr a)) [b]
  | 0x35, 1 => ok (.frCancel s (xr d) (xr a)) [b]
  | 0x35, 2 => ok (.frStat s (xr d) (xr a)) [b]
  | 0x36, 0 => ok (.redTree s (xr d) (xr a)) [b]
  | 0x36, 1 => ok (.redPut s (xr d) (xr a) (xr b)) []
  | 0x36, 2 => ok (.redWait s (xr d) (xr a)) [b]
  | 0x36, 3 => ok (.redStat s (xr d) (xr a) (xr b)) []
  | 0x36, 4 => ok (.redMan s (xr d) (xr a) (xr b)) []
  | _, _ => .error .illegal

/-- The sys major (10 R232): for gets and sets, bits 19:8 are the state register number. -/
def sys (s : Bool) (w : Nat) : Except DecodeFault Instr :=
  let d := fld w 24 20
  let a := fld w 19 15
  let b := fld w 14 10
  let r := fld w 9 8
  match fld w 7 0 with
  | 0 =>
    match sreg (fld w 19 8) with
    | some n => ok (.sysGets s (xr d) n) []
    | none => .error .illegal
  | 1 =>
    match sreg (fld w 19 8) with
    | some n => ok (.sysSets s (xr d) n) []
    | none => .error .illegal
  | 2 => ok (.sysBrk s (xr a)) [d, b, r]
  | 3 => ok (.sysRet s) [d, a, b, r]
  | 4 => ok (.sysGate s (xr d) (xr a)) [b, r]
  | 5 => ok (.sysInvp s (xr a) (xr b)) [d, r]
  | 6 => ok (.sysInva s (xr b)) [d, a, r]
  | 7 => ok (.sysMret s) [d, a, b, r]
  | _ => .error .illegal

/-- Format M, the ld and st majors (02 R34, R50; 06 R118): ext = 1 is unassigned for sz = 3 and for stores. -/
def ldst (s : Bool) (load : Bool) (w : Nat) : Except DecodeFault Instr :=
  let d := xr (fld w 24 20)
  let a := xr (fld w 19 15)
  let sz := size (fld w 14 13)
  let e := decide (fld w 12 12 = 1)
  let o := ord (fld w 11 10)
  let off := BitVec.ofNat 10 (fld w 9 0)
  if load then assigned (WellFormed.load sz e o) (ok (.ld s sz e o d a off) [])
  else assigned (!e && WellFormed.store o) (ok (.st s sz o d a off) [])

/-- The idx major (06 R124). -/
def idx (s : Bool) (d a b fn : Nat) : Except DecodeFault Instr :=
  let sz := size (fn / 32)
  let e := decide (fn / 16 % 2 = 1)
  let o := ord (fn / 4)
  match fn / 128 with
  | 0 => assigned (WellFormed.load sz e o) (ok (.idxLd s sz e o (xr d) (xr a) (xr b)) [fn % 4])
  | 1 => assigned (!e && WellFormed.store o) (ok (.idxSt s sz o (xr d) (xr a) (xr b)) [fn % 4])
  | _ => .error .illegal

/-- The br major, format B (02 R34, 04 R82). -/
def br (s : Bool) (w : Nat) : Except DecodeFault Instr :=
  match cond (fld w 24 21) with
  | some c => assigned (WellFormed.br c) (ok (.br s c (xr (fld w 20 16)) (BitVec.ofNat 16 (fld w 15 0))) [])
  | none => .error .illegal

/-- The cmpi major, format IC (02 R34, 04 R82). -/
def cmpi (s : Bool) (w : Nat) : Except DecodeFault Instr :=
  match cond (fld w 14 11) with
  | some c => ok (.cmpi s c (xr (fld w 24 20)) (xr (fld w 19 15)) (BitVec.ofNat 11 (fld w 10 0))) []
  | none => .error .illegal

/-- The hint major, format H (02 R34, 04 R88). -/
def hint (s : Bool) (w : Nat) : Except DecodeFault Instr :=
  let data := BitVec.ofNat 23 (fld w 22 0)
  match fld w 24 23 with
  | 0 => ok (.hintImm s data) []
  | 1 => ok (.hintImx s data) []
  | 2 => ok (.hintMod s data) []
  | _ => ok (.hintReg s data) []

/-- The pat major (05 R110). -/
def pat (s : Bool) (d a b fn : Nat) : Except DecodeFault Instr :=
  match fn with
  | 0 => ok (.patCfg s (xr a)) [d, b]
  | 1 => ok (.patExec s (xr d) (xr a) (xr b)) []
  | _ => .error .illegal

/-- Rows 1 to 4 of 02 R41, by the major map of 02 R39. -/
def word (w : Nat) : Except DecodeFault Instr :=
  let s := decide (fld w 31 31 = 1)
  let d := fld w 24 20
  let a := fld w 19 15
  let b := fld w 14 10
  let fn := fld w 9 0
  let imm15 := BitVec.ofNat 15 (fld w 14 0)
  let imm20 := BitVec.ofNat 20 (fld w 19 0)
  match fld w 30 25 with
  | 0x00 => .error .zeroWord
  | 0x01 => alu s d a b fn
  | 0x02 => ok (.addi s (xr d) (xr a) imm15) []
  | 0x03 => ok (.andi s (xr d) (xr a) imm15) []
  | 0x04 => ok (.ori s (xr d) (xr a) imm15) []
  | 0x05 => ok (.xori s (xr d) (xr a) imm15) []
  | 0x06 => cmpi s w
  | 0x07 => ok (.lim s (xr d) imm20) []
  | 0x08 => br s w
  | 0x09 => ok (.jmp s (xr d) imm20) []
  | 0x0A => ok (.jr s (xr d) (xr a) imm15) []
  | 0x10 => ldst s true w
  | 0x11 => ldst s false w
  | 0x12 => idx s d a b fn
  | 0x13 => amo s d a b fn
  | 0x14 => rwl s d a b fn
  | 0x15 => fence s d a b fn
  | 0x16 => msg s d a b fn
  | 0x17 => bar s d a b fn
  | 0x18 => vf s d a b fn
  | 0x20 => vop s (vfields w)
  | 0x21 => vfma s (vfields w)
  | 0x22 => vcmp s (vfields w)
  | 0x23 => vred s (vfields w)
  | 0x24 => vcvt s (vfields w)
  | 0x25 => vmem s w
  | 0x26 => vmov s (vfields w)
  | 0x27 => pat s d a b fn
  | 0x28 => engines s 0x28 d a b fn
  | 0x29 => engines s 0x29 d a b fn
  | 0x2A => engines s 0x2A d a b fn
  | 0x30 => work s d a b fn
  | 0x31 => engines s 0x31 d a b fn
  | 0x32 => gang s d a b fn
  | 0x33 => crossing s 0x33 d a b fn
  | 0x34 => crossing s 0x34 d a b fn
  | 0x35 => crossing s 0x35 d a b fn
  | 0x36 => crossing s 0x36 d a b fn
  | 0x38 => sys s w
  | 0x3F => hint s w
  | _ => .error .illegal

end Decode

/-- The instruction that a word is, or why it is none (rows 1 to 4 of 02 R41). -/
def decode (w : BitVec 32) : Except DecodeFault Instr := Decode.word w.toNat

/-- Four bytes as a word, little-endian (00 R7). -/
def wordOfBytes (b0 b1 b2 b3 : Byte) : BitVec 32 :=
  BitVec.ofNat 32 (b0.toNat + 256 * b1.toNat + 65536 * b2.toNat + 16777216 * b3.toNat)

/-- The bytes of a word, lowest address first (00 R7). -/
def bytesOfWord (w : BitVec 32) : List Byte :=
  [BitVec.ofNat 8 w.toNat, BitVec.ofNat 8 (w.toNat / 256), BitVec.ofNat 8 (w.toNat / 65536), BitVec.ofNat 8 (w.toNat / 16777216)]

/-- The instruction at the head of a list of bytes, and the rest of the list. -/
def decodeBytes : List Byte → Except DecodeFault (Instr × List Byte)
  | b0 :: b1 :: b2 :: b3 :: rest =>
    match decode (wordOfBytes b0 b1 b2 b3) with
    | .ok i => .ok (i, rest)
    | .error e => .error e
  | _ => .error .truncated

/-- What the decoder reads from a row's word of the opcode table: every row with bits has 32 of them, stored as four
bytes in little-endian order. -/
def decodeTableWord (nbits w : Nat) : Option Instr :=
  if nbits = 0 then none
  else
    match decodeBytes (bytesOfWord (BitVec.ofNat 32 (w % 2 ^ nbits))) with
    | .ok (i, _) => some i
    | .error _ => none

namespace Encode

def condCode : Cond → Nat
  | .eq => 0 | .ne => 1 | .lt => 2 | .ge => 3 | .gt => 4 | .le => 5 | .ltu => 6 | .geu => 7 | .gtu => 8 | .leu => 9
  | .any => 10 | .none => 11

def vcondCode : VCond → Nat
  | .cond c => condCode c
  | .un => 12

def tyCode : LaneTy → Nat
  | .f32 => 0 | .bf16 => 1 | .f16 => 2 | .i32 => 3 | .i16 => 4 | .i8 => 5 | .i64 => 6

def ordCode : MemOrd → Nat
  | .rlx => 0 | .acq => 1 | .rel => 2 | .ar => 3

def sizeCode : Size → Nat
  | .b => 0 | .h => 1 | .w => 2 | .d => 3

def scopeCode : Scope → Nat
  | .ctx => 0 | .core => 1 | .clu => 2 | .grp => 3 | .die => 4 | .mod => 5 | .sys => 6

/-- The state register numbers (10 R233). -/
def sregCode : SReg → Nat
  | .pc => 0x000 | .ctxstat => 0x001 | .trapcause => 0x002 | .trappc => 0x003 | .trapval => 0x004 | .trapvec => 0x005
  | .barrect => 0x010 | .barphase => 0x011 | .wbartag => 0x012 | .qmap => 0x013 | .spillbase => 0x014 | .spillovf => 0x015
  | .rowprog => 0x016 | .slewstat => 0x017 | .vfstat => 0x018
  | .prot n => 0x020 + n.val
  | .cxtick => 0x040 | .cxstorm => 0x041 | .srseed => 0x042
  | .frspeed => 0x080 | .frlap => 0x081 | .wsref => 0x082 | .actfc => 0x083 | .launchstat => 0x084

def bit (b : Bool) : Nat := if b then 1 else 0

/-- Format A and format E (02 R34). -/
def fmtA (s : Bool) (major d a b fn : Nat) : Nat :=
  bit s * 2 ^ 31 + major * 2 ^ 25 + d * 2 ^ 20 + a * 2 ^ 15 + b * 2 ^ 10 + fn

/-- Format I (02 R34). -/
def fmtI (s : Bool) (major d a imm : Nat) : Nat := bit s * 2 ^ 31 + major * 2 ^ 25 + d * 2 ^ 20 + a * 2 ^ 15 + imm

/-- Format L (02 R34). -/
def fmtL (s : Bool) (major d imm : Nat) : Nat := bit s * 2 ^ 31 + major * 2 ^ 25 + d * 2 ^ 20 + imm

/-- Format V (02 R34, 05 R96). -/
def fmtV (s : Bool) (major vd va vb vc m op ty : Nat) (sat sx : Bool) : Nat :=
  bit s * 2 ^ 31 + major * 2 ^ 25 + vd * 2 ^ 22 + va * 2 ^ 19 + vb * 2 ^ 16 + vc * 2 ^ 13 + m * 2 ^ 11 + op * 2 ^ 5 + ty * 2 ^ 2
    + bit sat * 2 + bit sx

/-- Format VS (02 R34, 05 R96), with sx = 1. -/
def fmtVS (s : Bool) (major vd va xs m op ty : Nat) (sat : Bool) : Nat :=
  bit s * 2 ^ 31 + major * 2 ^ 25 + vd * 2 ^ 22 + va * 2 ^ 19 + xs * 2 ^ 14 + m * 2 ^ 11 + op * 2 ^ 5 + ty * 2 ^ 2
    + bit sat * 2 + 1

/-- Format M (02 R34, R50). -/
def fmtM (s : Bool) (major d a : Nat) (sz : Size) (ext : Bool) (o : MemOrd) (off : Nat) : Nat :=
  bit s * 2 ^ 31 + major * 2 ^ 25 + d * 2 ^ 20 + a * 2 ^ 15 + sizeCode sz * 2 ^ 13 + bit ext * 2 ^ 12 + ordCode o * 2 ^ 10 + off

/-- Format VM (02 R34, 05 R107). -/
def fmtVM (s : Bool) (v m a kind : Nat) (o : MemOrd) (off : Nat) : Nat :=
  bit s * 2 ^ 31 + 0x25 * 2 ^ 25 + v * 2 ^ 22 + m * 2 ^ 20 + a * 2 ^ 15 + kind * 2 ^ 12 + ordCode o * 2 ^ 10 + off

/-- alu words (04 R81). -/
def alu (s : Bool) (op c : Nat) (d a b : XReg) : Nat := fmtA s 0x01 d a b (op * 16 + c)

/-- idx words (06 R124). -/
def idx (s : Bool) (op : Nat) (sz : Size) (ext : Bool) (o : MemOrd) (d a b : XReg) : Nat :=
  fmtA s 0x12 d a b (op * 128 + sizeCode sz * 32 + bit ext * 16 + ordCode o * 4)

/-- amo words (06 R126). -/
def amo (s : Bool) (op : Nat) (sz : Size) (o : MemOrd) (d a b : XReg) : Nat :=
  fmtA s 0x13 d a b (op * 32 + sizeCode sz * 8 + ordCode o * 2)

/-- The word of an encoded instruction; events have none. -/
def word : Instr → Option Nat
  | .aluAdd s d a b => some (alu s 0x00 0 d a b)
  | .aluSub s d a b => some (alu s 0x01 0 d a b)
  | .aluAnd s d a b => some (alu s 0x02 0 d a b)
  | .aluOr s d a b => some (alu s 0x03 0 d a b)
  | .aluXor s d a b => some (alu s 0x04 0 d a b)
  | .aluAnot s d a b => some (alu s 0x05 0 d a b)
  | .aluSll s d a b => some (alu s 0x06 0 d a b)
  | .aluSrl s d a b => some (alu s 0x07 0 d a b)
  | .aluSra s d a b => some (alu s 0x08 0 d a b)
  | .aluRol s d a b => some (alu s 0x09 0 d a b)
  | .aluMin s d a b => some (alu s 0x0A 0 d a b)
  | .aluMax s d a b => some (alu s 0x0B 0 d a b)
  | .aluUmin s d a b => some (alu s 0x0C 0 d a b)
  | .aluUmax s d a b => some (alu s 0x0D 0 d a b)
  | .aluStep2 s d a b => some (alu s 0x0E 0 d a b)
  | .aluStep4 s d a b => some (alu s 0x0F 0 d a b)
  | .aluStep8 s d a b => some (alu s 0x10 0 d a b)
  | .aluStep64 s d a b => some (alu s 0x11 0 d a b)
  | .aluCmp s c d a b => some (alu s 0x12 (condCode c) d a b)
  | .aluLzc s d a => some (alu s 0x14 0 d a 0)
  | .aluTzc s d a => some (alu s 0x15 0 d a 0)
  | .aluOnes s d a => some (alu s 0x16 0 d a 0)
  | .aluSx8 s d a => some (alu s 0x17 0 d a 0)
  | .aluSx16 s d a => some (alu s 0x18 0 d a 0)
  | .aluSx32 s d a => some (alu s 0x19 0 d a 0)
  | .aluZx32 s d a => some (alu s 0x1A 0 d a 0)
  | .aluMul s d a b => some (alu s 0x20 0 d a b)
  | .aluHiss s d a b => some (alu s 0x21 0 d a b)
  | .aluHiuu s d a b => some (alu s 0x22 0 d a b)
  | .aluHisu s d a b => some (alu s 0x23 0 d a b)
  | .aluQuo s d a b => some (alu s 0x24 0 d a b)
  | .aluQuou s d a b => some (alu s 0x25 0 d a b)
  | .aluRmd s d a b => some (alu s 0x26 0 d a b)
  | .aluRmdu s d a b => some (alu s 0x27 0 d a b)
  | .addi s d a imm => some (fmtI s 0x02 d a imm.toNat)
  | .andi s d a imm => some (fmtI s 0x03 d a imm.toNat)
  | .ori s d a imm => some (fmtI s 0x04 d a imm.toNat)
  | .xori s d a imm => some (fmtI s 0x05 d a imm.toNat)
  | .cmpi s c d a imm => some (fmtI s 0x06 d a (condCode c * 2 ^ 11 + imm.toNat))
  | .lim s d imm => some (fmtL s 0x07 d imm.toNat)
  | .br s c a disp => some (bit s * 2 ^ 31 + 0x08 * 2 ^ 25 + condCode c * 2 ^ 21 + a.val * 2 ^ 16 + disp.toNat)
  | .jmp s d imm => some (fmtL s 0x09 d imm.toNat)
  | .jr s d a imm => some (fmtI s 0x0A d a imm.toNat)
  | .hintImm s x => some (bit s * 2 ^ 31 + 0x3F * 2 ^ 25 + 0 * 2 ^ 23 + x.toNat)
  | .hintImx s x => some (bit s * 2 ^ 31 + 0x3F * 2 ^ 25 + 1 * 2 ^ 23 + x.toNat)
  | .hintMod s x => some (bit s * 2 ^ 31 + 0x3F * 2 ^ 25 + 2 * 2 ^ 23 + x.toNat)
  | .hintReg s x => some (bit s * 2 ^ 31 + 0x3F * 2 ^ 25 + 3 * 2 ^ 23 + x.toNat)
  | .ld s sz e o d a off => some (fmtM s 0x10 d a sz e o off.toNat)
  | .st s sz o d a off => some (fmtM s 0x11 d a sz false o off.toNat)
  | .idxLd s sz e o d a b => some (idx s 0 sz e o d a b)
  | .idxSt s sz o d a b => some (idx s 1 sz false o d a b)
  | .amoAdd s sz o d a b => some (amo s 0 sz o d a b)
  | .amoAnd s sz o d a b => some (amo s 1 sz o d a b)
  | .amoOr s sz o d a b => some (amo s 2 sz o d a b)
  | .amoXor s sz o d a b => some (amo s 3 sz o d a b)
  | .amoMin s sz o d a b => some (amo s 4 sz o d a b)
  | .amoMax s sz o d a b => some (amo s 5 sz o d a b)
  | .amoMinu s sz o d a b => some (amo s 6 sz o d a b)
  | .amoMaxu s sz o d a b => some (amo s 7 sz o d a b)
  | .amoFadd s sz o d a b => some (amo s 8 sz o d a b)
  | .amoSwap s sz o d a b => some (amo s 9 sz o d a b)
  | .amoCas s sz o d a b => some (amo s 10 sz o d a b)
  | .rwlRacq s t d a => some (fmtA s 0x14 d a 0 (0 * 128 + bit t * 64))
  | .rwlRrel s d a => some (fmtA s 0x14 d a 0 (1 * 128))
  | .rwlWacq s t d a => some (fmtA s 0x14 d a 0 (2 * 128 + bit t * 64))
  | .rwlWrel s d a => some (fmtA s 0x14 d a 0 (3 * 128))
  | .fenceAcq s sc => some (fmtA s 0x15 0 0 0 (1 * 256 + scopeCode sc * 32))
  | .fenceRel s sc => some (fmtA s 0x15 0 0 0 (2 * 256 + scopeCode sc * 32))
  | .fenceAr s sc => some (fmtA s 0x15 0 0 0 (3 * 256 + scopeCode sc * 32))
  | .msgBind s a b => some (fmtA s 0x16 0 a b 0)
  | .msgUnbind s d b => some (fmtA s 0x16 d 0 b 1)
  | .msgQlen s d b => some (fmtA s 0x16 d 0 b 2)
  | .msgSend s d a b => some (fmtA s 0x16 d a b 3)
  | .msgOvf s d a => some (fmtA s 0x16 d a 0 4)
  | .barReg s => some (fmtA s 0x17 0 0 0 0)
  | .barWd s => some (fmtA s 0x17 0 0 0 1)
  | .barArrive s d => some (fmtA s 0x17 d 0 0 2)
  | .barWait s a => some (fmtA s 0x17 0 a 0 3)
  | .barSync s => some (fmtA s 0x17 0 0 0 4)
  | .barWsync s a => some (fmtA s 0x17 0 a 0 5)
  | .vfPush s a => some (fmtA s 0x18 0 a 0 0)
  | .vfPop s a => some (fmtA s 0x18 0 a 0 1)
  | .vfCount s d => some (fmtA s 0x18 d 0 0 2)
  | .vopAdd s t sat d a b m => some (fmtV s 0x20 d a b 0 m 0x00 (tyCode t) sat false)
  | .vopAddSx s t sat d a x m => some (fmtVS s 0x20 d a x m 0x00 (tyCode t) sat)
  | .vopSub s t sat d a b m => some (fmtV s 0x20 d a b 0 m 0x01 (tyCode t) sat false)
  | .vopSubSx s t sat d a x m => some (fmtVS s 0x20 d a x m 0x01 (tyCode t) sat)
  | .vopMul s t sat d a b m => some (fmtV s 0x20 d a b 0 m 0x02 (tyCode t) sat false)
  | .vopMulSx s t sat d a x m => some (fmtVS s 0x20 d a x m 0x02 (tyCode t) sat)
  | .vopMin s t d a b m => some (fmtV s 0x20 d a b 0 m 0x03 (tyCode t) false false)
  | .vopMinSx s t d a x m => some (fmtVS s 0x20 d a x m 0x03 (tyCode t) false)
  | .vopMax s t d a b m => some (fmtV s 0x20 d a b 0 m 0x04 (tyCode t) false false)
  | .vopMaxSx s t d a x m => some (fmtVS s 0x20 d a x m 0x04 (tyCode t) false)
  | .vopAbs s t sat d a m => some (fmtV s 0x20 d a 0 0 m 0x05 (tyCode t) sat false)
  | .vopNeg s t sat d a m => some (fmtV s 0x20 d a 0 0 m 0x06 (tyCode t) sat false)
  | .vopDiv s t sat d a b m => some (fmtV s 0x20 d a b 0 m 0x07 (tyCode t) sat false)
  | .vopDivSx s t sat d a x m => some (fmtVS s 0x20 d a x m 0x07 (tyCode t) sat)
  | .vopSqrt s t d a m => some (fmtV s 0x20 d a 0 0 m 0x08 (tyCode t) false false)
  | .vopAnd s t d a b m => some (fmtV s 0x20 d a b 0 m 0x09 (tyCode t) false false)
  | .vopAndSx s t d a x m => some (fmtVS s 0x20 d a x m 0x09 (tyCode t) false)
  | .vopOr s t d a b m => some (fmtV s 0x20 d a b 0 m 0x0A (tyCode t) false false)
  | .vopOrSx s t d a x m => some (fmtVS s 0x20 d a x m 0x0A (tyCode t) false)
  | .vopXor s t d a b m => some (fmtV s 0x20 d a b 0 m 0x0B (tyCode t) false false)
  | .vopXorSx s t d a x m => some (fmtVS s 0x20 d a x m 0x0B (tyCode t) false)
  | .vopSll s t d a b m => some (fmtV s 0x20 d a b 0 m 0x0C (tyCode t) false false)
  | .vopSllSx s t d a x m => some (fmtVS s 0x20 d a x m 0x0C (tyCode t) false)
  | .vopSrl s t d a b m => some (fmtV s 0x20 d a b 0 m 0x0D (tyCode t) false false)
  | .vopSrlSx s t d a x m => some (fmtVS s 0x20 d a x m 0x0D (tyCode t) false)
  | .vopSra s t d a b m => some (fmtV s 0x20 d a b 0 m 0x0E (tyCode t) false false)
  | .vopSraSx s t d a x m => some (fmtVS s 0x20 d a x m 0x0E (tyCode t) false)
  | .vopMulh s t d a b m => some (fmtV s 0x20 d a b 0 m 0x0F (tyCode t) false false)
  | .vopMulhSx s t d a x m => some (fmtVS s 0x20 d a x m 0x0F (tyCode t) false)
  | .vfmaFma s t sat d a b c m => some (fmtV s 0x21 d a b c m 0x00 (tyCode t) sat false)
  | .vfmaFmaSx s t sat d a x m => some (fmtVS s 0x21 d a x m 0x00 (tyCode t) sat)
  | .vfmaFms s t sat d a b c m => some (fmtV s 0x21 d a b c m 0x01 (tyCode t) sat false)
  | .vfmaFmsSx s t sat d a x m => some (fmtVS s 0x21 d a x m 0x01 (tyCode t) sat)
  | .vfmaFnma s t sat d a b c m => some (fmtV s 0x21 d a b c m 0x02 (tyCode t) sat false)
  | .vfmaFnmaSx s t sat d a x m => some (fmtVS s 0x21 d a x m 0x02 (tyCode t) sat)
  | .vfmaFnms s t sat d a b c m => some (fmtV s 0x21 d a b c m 0x03 (tyCode t) sat false)
  | .vfmaFnmsSx s t sat d a x m => some (fmtVS s 0x21 d a x m 0x03 (tyCode t) sat)
  | .vfmaDot2 s t sat d a b c m => some (fmtV s 0x21 d a b c m 0x04 (tyCode t) sat false)
  | .vfmaDot2Sx s t sat d a x m => some (fmtVS s 0x21 d a x m 0x04 (tyCode t) sat)
  | .vfmaDot4 s sat d a b c m => some (fmtV s 0x21 d a b c m 0x05 5 sat false)
  | .vfmaDot4Sx s sat d a x m => some (fmtVS s 0x21 d a x m 0x05 5 sat)
  | .vcmp s t c d a b m => some (fmtV s 0x22 d.val a b 0 m (vcondCode c) (tyCode t) false false)
  | .vcmpSx s t c d a x m => some (fmtVS s 0x22 d.val a x m (vcondCode c) (tyCode t) false)
  | .vredSum s t sat d a m => some (fmtV s 0x23 d a 0 0 m 0x00 (tyCode t) sat false)
  | .vredMin s t d a m => some (fmtV s 0x23 d a 0 0 m 0x01 (tyCode t) false false)
  | .vredMax s t d a m => some (fmtV s 0x23 d a 0 0 m 0x02 (tyCode t) false false)
  | .vredAnd s t d a m => some (fmtV s 0x23 d a 0 0 m 0x03 (tyCode t) false false)
  | .vredOr s t d a m => some (fmtV s 0x23 d a 0 0 m 0x04 (tyCode t) false false)
  | .vredXor s t d a m => some (fmtV s 0x23 d a 0 0 m 0x05 (tyCode t) false false)
  | .vredPerm s t d a b m => some (fmtV s 0x23 d a b 0 m 0x08 (tyCode t) false false)
  | .vredRot s t d a x m => some (fmtVS s 0x23 d a x m 0x09 (tyCode t) false)
  | .vcvt s src dst h sat d a b m => some (fmtV s 0x24 d a b 0 m (2 * tyCode dst + bit h) (tyCode src) sat false)
  | .vmovMov s d a m => some (fmtV s 0x26 d a 0 0 m 0x00 0 false false)
  | .vmovSel s t d a b m => some (fmtV s 0x26 d a b 0 m 0x01 (tyCode t) false false)
  | .vmovBcast s t d x m => some (fmtVS s 0x26 d 0 x m 0x02 (tyCode t) false)
  | .vmovExt s t a x m => some (fmtVS s 0x26 0 a x m 0x03 (tyCode t) false)
  | .vmovGetm s x m => some (fmtVS s 0x26 0 0 x m 0x04 0 false)
  | .vmovSetm s x m => some (fmtVS s 0x26 0 0 x m 0x05 0 false)
  | .vmovZero s d m => some (fmtV s 0x26 d 0 0 0 m 0x06 0 false false)
  | .vmemLd s o v m a off => some (fmtVM s v m a 0 o off.toNat)
  | .vmemSt s o v m a off => some (fmtVM s v m a 1 o off.toNat)
  | .vmemLdf s o v m a off => some (fmtVM s v m a 2 o off.toNat)
  | .vmemLdb s o v m a off => some (fmtVM s v m a 3 o off.toNat)
  | .patCfg s a => some (fmtA s 0x27 0 a 0 0)
  | .patExec s d a b => some (fmtA s 0x27 d a b 1)
  | .mxGang s d a => some (fmtA s 0x28 d a 0 0)
  | .mxRowout s => some (fmtA s 0x28 0 0 0 1)
  | .jobSub s d a => some (fmtA s 0x29 d a 0 0)
  | .jobPoll s d a => some (fmtA s 0x29 d a 0 1)
  | .jobWait s d a => some (fmtA s 0x29 d a 0 2)
  | .xbarCnt s a b => some (fmtA s 0x2A 0 a b 0)
  | .xbarTerm s a b => some (fmtA s 0x2A 0 a b 1)
  | .xbarRdc s d a => some (fmtA s 0x2A d a 0 2)
  | .xbarPulse s a => some (fmtA s 0x2A 0 a 0 3)
  | .xbarClr s a => some (fmtA s 0x2A 0 a 0 4)
  | .workStart s d a b => some (fmtA s 0x30 d a b 0)
  | .workFork s d a b => some (fmtA s 0x30 d a b 1)
  | .workJoin s a => some (fmtA s 0x30 0 a 0 2)
  | .workExit s a => some (fmtA s 0x30 0 a 0 3)
  | .workYield s => some (fmtA s 0x30 0 0 0 4)
  | .workHold s d a => some (fmtA s 0x30 d a 0 5)
  | .workRelease s d a => some (fmtA s 0x30 d a 0 6)
  | .workLaunch s d a => some (fmtA s 0x30 d a 0 7)
  | .workMigrate s d a => some (fmtA s 0x30 d a 0 8)
  | .otaskSub s d a => some (fmtA s 0x31 d a 0 0)
  | .otaskStat s d a => some (fmtA s 0x31 d a 0 1)
  | .gangLead s d a => some (fmtA s 0x32 d a 0 0)
  | .gangFollow s d a => some (fmtA s 0x32 d a 0 1)
  | .gangJoin s a => some (fmtA s 0x32 0 a 0 2)
  | .gangEnd s => some (fmtA s 0x32 0 0 0 3)
  | .gangStat s d => some (fmtA s 0x32 d 0 0 4)
  | .cxDef s d a => some (fmtA s 0x33 d a 0 0)
  | .cxDep s d a b => some (fmtA s 0x33 d a b 1)
  | .cxRun s => some (fmtA s 0x33 0 0 0 2)
  | .cxStop s => some (fmtA s 0x33 0 0 0 3)
  | .cxRd s d a b => some (fmtA s 0x33 d a b 4)
  | .cxSlope s a b => some (fmtA s 0x33 0 a b 5)
  | .cxSample s d a b => some (fmtA s 0x33 d a b 6)
  | .srDef s a => some (fmtA s 0x34 0 a 0 0)
  | .srPut s d a b => some (fmtA s 0x34 d a b 1)
  | .srDone s a => some (fmtA s 0x34 0 a 0 2)
  | .srRej s a => some (fmtA s 0x34 0 a 0 3)
  | .srStat s d a => some (fmtA s 0x34 d a 0 4)
  | .srDrain s d a => some (fmtA s 0x34 d a 0 5)
  | .frBoard s d a => some (fmtA s 0x35 d a 0 0)
  | .frCancel s d a => some (fmtA s 0x35 d a 0 1)
  | .frStat s d a => some (fmtA s 0x35 d a 0 2)
  | .redTree s d a => some (fmtA s 0x36 d a 0 0)
  | .redPut s d a b => some (fmtA s 0x36 d a b 1)
  | .redWait s d a => some (fmtA s 0x36 d a 0 2)
  | .redStat s d a b => some (fmtA s 0x36 d a b 3)
  | .redMan s d a b => some (fmtA s 0x36 d a b 4)
  | .sysGets s d n => some (bit s * 2 ^ 31 + 0x38 * 2 ^ 25 + d.val * 2 ^ 20 + sregCode n * 2 ^ 8 + 0)
  | .sysSets s d n => some (bit s * 2 ^ 31 + 0x38 * 2 ^ 25 + d.val * 2 ^ 20 + sregCode n * 2 ^ 8 + 1)
  | .sysBrk s a => some (fmtA s 0x38 0 a 0 2)
  | .sysRet s => some (fmtA s 0x38 0 0 0 3)
  | .sysGate s d a => some (fmtA s 0x38 d a 0 4)
  | .sysInvp s a b => some (fmtA s 0x38 0 a b 5)
  | .sysInva s b => some (fmtA s 0x38 0 0 b 6)
  | .sysMret s => some (fmtA s 0x38 0 0 0 7)
  | .amoHomeApply .. | .postedPoisonTrap .. | .lockReevaluate .. | .lockResend .. | .messageArrival .. | .sendOutcome ..
  | .queueEntryArrival .. | .creditReturn .. | .meshPhaseRelease .. | .wiredTagRelease .. | .gangBarrierConsume ..
  | .jobStart .. | .rowEnd .. | .drainPathWrite .. | .matrixOperationComplete .. | .copyJobComplete ..
  | .operationFailure .. | .crossbarCycle .. | .forwardedWordArrival .. | .sampleCapture .. | .crossingSubmit ..
  | .stageDraw .. | .boardingRequest .. | .cancelRequest .. | .contributionArrival .. | .chunkComplete ..
  | .failureNotice .. | .srseedWrite .. | .barrectWrite .. | .wbartagWrite .. | .frspeedWrite .. | .trapEntry ..
  | .resultWrite .. | .storeAcknowledge .. | .watchReevaluate .. | .limiterStep .. | .startSelector .. | .taskDispatch ..
  | .stealAttempt .. | .stealBackoffExpiry .. | .swapOut .. | .swapOutComplete .. | .resumeRestore .. | .taskCommit ..
  | .tileTagStore .. | .tileReadyEntryStore .. | .tileReadyFire .. | .consume .. | .stallWatchdogTrip .. | .ferryStep ..
  | .ringPause .. | .lapBoundary .. | .holdback .. | .dockWrite .. | .refreshWindow .. | .homeTranslation ..
  | .pageMigration .. | .lreq .. | .preemptlid .. | .restorebase .. | .inval .. | .presolve .. | .fqbase ..
  | .hostRegisterWrite .. | .launchAcceptCheck .. | .headPlacement .. | .quantumExhausted .. | .berthLoad ..
  | .preemptionRequest .. | .preemptionHalt .. | .launchEnd .. | .actfcUpdate .. | .linkFlitRefused ..
  | .tenantFieldError .. | .machineCheck .. | .scrub .. | .coreRetirement .. | .powerDown .. | .wake ..
  | .routerClockGate .. | .moduleReset .. | .rdmaWrite .. | .rdmaRead .. | .send .. | .cxlMemAccess .. | .getVersion ..
  | .getCapabilities .. | .negotiateAlgorithms .. | .getDigests .. | .getCertificate .. | .challenge ..
  | .getMeasurements .. | .lineFetched .. | .migrationArrival .. | .prqhead .. | .firmwareImageWrite .. | .junctionLimit .. => none

end Encode

/-- The word of a well-formed instruction, bit 31 the switch marker (02 R33, R34); an event has none. -/
def encode (i : Instr) : Option (BitVec 32) := (Encode.word i).map (BitVec.ofNat 32)

end Sys2Proof
end

