-- ==== Sys2Proof/Machine/Numbers.lean ====
section
/-! DEFINITION. The number formats and rounding paths of chapter 03: floating-point formats, exact dyadic arithmetic, the
rounding helpers of 00 R10 and 03 R60 with the flags of 03 R55, integer narrowing, plane integers, ferry quantisation, the
exact accumulator, and manifests. -/

namespace Sys2Proof

/-! ### Flags (03 R55) -/

def FFlags.none : FFlags := { nv := false, dz := false, ofl := false, ufl := false, nx := false }

/-- Flags are sticky: an operation sets a flag and never clears one (03 R55). -/
def FFlags.union (a b : FFlags) : FFlags :=
  { nv := a.nv || b.nv, dz := a.dz || b.dz, ofl := a.ofl || b.ofl, ufl := a.ufl || b.ufl, nx := a.nx || b.nx }

def FFlags.invalid : FFlags := { FFlags.none with nv := true }
def FFlags.divZero : FFlags := { FFlags.none with dz := true }
def FFlags.inexact : FFlags := { FFlags.none with nx := true }

end Sys2Proof

namespace Sys2Proof.Machine

/-! ### Integers (00 R10, 03 R57) -/

/-- WrapN: i modulo 2^n, as n bits (00 R10). -/
def wrapN (n : Nat) (i : Int) : Nat := (i % (2 ^ n : Nat)).toNat

/-- An n-bit string read as two's complement (03 R57). -/
def sintN (n b : Nat) : Int := if b % 2 ^ n < 2 ^ (n - 1) then ((b % 2 ^ n : Nat) : Int) else ((b % 2 ^ n : Nat) : Int) - (2 ^ n : Nat)

/-- SatN: i clamped to the n-bit signed range (00 R10). -/
def satN (n : Nat) (i : Int) : Int :=
  if i < -(2 ^ (n - 1) : Nat) then -(2 ^ (n - 1) : Nat)
  else if (2 ^ (n - 1) : Nat) - 1 < i then (2 ^ (n - 1) : Nat) - 1 else i

/-- The narrowing of an exact integer to n bits: SatN with the saturate bit, else WrapN (03 R57). -/
def narrowInt (n : Nat) (sat : Bool) (i : Int) : Nat := if sat then wrapN n (satN n i) else wrapN n i

/-- The number of bits of n up to its highest one bit; structural, 0 for 0. -/
def bitLength (n : Nat) : Nat := if n = 0 then 0 else n.log2 + 1

/-- The integer square root, one result bit per unit of fuel: `r` is the root so far, `b` the next bit to try. -/
def isqrtAux (n : Nat) : Nat → Nat → Nat
  | 0, r => r
  | b + 1, r => if (r + 2 ^ b) * (r + 2 ^ b) ≤ n then isqrtAux n b (r + 2 ^ b) else isqrtAux n b r

/-- The integer square root. -/
def isqrt (n : Nat) : Nat := isqrtAux n (bitLength n / 2 + 1) 0

/-! ### Formats (03 R52) -/

/-- A floating-point format by its exponent and fraction widths (03 R52). -/
structure Fmt where
  eb : Nat
  fb : Nat
  deriving DecidableEq, Repr

def fp32 : Fmt := { eb := 8, fb := 23 }
def fp16 : Fmt := { eb := 5, fb := 10 }
def bf16 : Fmt := { eb := 8, fb := 7 }

def Fmt.bias (f : Fmt) : Int := ((2 ^ (f.eb - 1) - 1 : Nat) : Int)
def Fmt.width (f : Fmt) : Nat := 1 + f.eb + f.fb
/-- The exponent of the least subnormal (03 R52). -/
def Fmt.emin (f : Fmt) : Int := 1 - f.bias - f.fb

/-- The value of an encoding: NaN, an infinity, or (−1)^neg × mag × 2^exp; zeros keep their sign (03 R52). -/
inductive FVal where
  | nan
  | inf (neg : Bool)
  | fin (neg : Bool) (mag : Nat) (exp : Int)
  deriving DecidableEq, Repr

def Fmt.signBit (f : Fmt) (neg : Bool) : Nat := if neg then 2 ^ (f.eb + f.fb) else 0
/-- The canonical NaN (03 R54). -/
def Fmt.nan (f : Fmt) : Nat := (2 ^ f.eb - 1) * 2 ^ f.fb + 2 ^ (f.fb - 1)
def Fmt.inf (f : Fmt) (neg : Bool) : Nat := f.signBit neg + (2 ^ f.eb - 1) * 2 ^ f.fb
/-- The largest finite value (03 R52). -/
def Fmt.largest (f : Fmt) (neg : Bool) : Nat := f.signBit neg + (2 ^ f.eb - 1) * 2 ^ f.fb - 1
def Fmt.zero (f : Fmt) (neg : Bool) : Nat := f.signBit neg

/-- The value of a bit pattern (03 R52); subnormals are values (03 R53). -/
def Fmt.decode (f : Fmt) (b : Nat) : FVal :=
  let neg := b / 2 ^ (f.eb + f.fb) % 2 == 1
  let e := b / 2 ^ f.fb % 2 ^ f.eb
  let frac := b % 2 ^ f.fb
  if e = 2 ^ f.eb - 1 then (if frac = 0 then .inf neg else .nan)
  else if e = 0 then .fin neg frac f.emin
  else .fin neg (2 ^ f.fb + frac) ((e : Int) - f.bias - f.fb)

/-! ### Rounding (00 R10, 03 R60) -/

/-- The rounding helpers of 00 R10. -/
inductive Rounding where
  | rne | satRne | rz
  deriving DecidableEq, Repr

/-- A rounded result: its bit pattern and the flags of 03 R55. -/
structure FRes where
  bits : Nat
  flags : FFlags
  deriving DecidableEq, Repr

def FRes.exact (b : Nat) : FRes := { bits := b, flags := .none }

/-- NaN result of an invalid operation: NV, unless an input was NaN (03 R54, R55). -/
def Fmt.invalid (f : Fmt) (nanIn : Bool) : FRes := { bits := f.nan, flags := if nanIn then .none else .invalid }

/-- The rounded magnitude of mag × 2^exp (with `sticky`, a little more) at the quantum 2^q: the multiple of the quantum,
and whether it differs from the exact value. -/
def roundAt (rm : Rounding) (mag : Nat) (exp q : Int) (sticky : Bool) : Nat × Bool :=
  if q ≤ exp then (mag * 2 ^ (exp - q).toNat, sticky)
  else
    let sh := (q - exp).toNat
    let m := mag / 2 ^ sh
    let rem := mag % 2 ^ sh
    let half := 2 ^ (sh - 1)
    let up := match rm with
      | .rz => false
      | _ => decide (half < rem) || (decide (rem = half) && (sticky || m % 2 == 1))
    (if up then m + 1 else m, sticky || rem != 0)

/-- RoundRNE, SatRNE and RoundRZ of (−1)^neg × mag × 2^exp (00 R10), with the flags of 03 R55. An exact zero keeps `neg`. -/
def Fmt.round (f : Fmt) (rm : Rounding) (neg : Bool) (mag : Nat) (exp : Int) (sticky : Bool) : FRes :=
  if mag = 0 && !sticky then .exact (f.zero neg)
  else
    let msb : Int := exp + bitLength mag - 1
    let q := max (msb - f.fb) f.emin
    let (m0, inexact) := roundAt rm mag exp q sticky
    let (m, q) := if m0 = 2 ^ (f.fb + 1) then (2 ^ f.fb, q + 1) else (m0, q)
    if m < 2 ^ f.fb then
      { bits := f.signBit neg + m, flags := { FFlags.none with ufl := inexact, nx := inexact } }
    else
      let be := q + f.bias + f.fb
      if (2 ^ f.eb - 1 : Nat) ≤ be then
        { bits := match rm with | .rne => f.inf neg | .satRne | .rz => f.largest neg
          flags := { FFlags.none with ofl := true, nx := true } }
      else
        { bits := f.signBit neg + be.toNat * 2 ^ f.fb + (m - 2 ^ f.fb), flags := { FFlags.none with nx := inexact } }

/-- RoundRNE, or SatRNE with the saturate bit (03 R60). -/
def rneOf (sat : Bool) : Rounding := if sat then .satRne else .rne

/-- The narrowing of a value on any path: NaN gives the canonical NaN, an infinity keeps its sign (03 R60). -/
def Fmt.narrow (f : Fmt) (rm : Rounding) : FVal → FRes
  | .nan => .exact f.nan
  | .inf neg => .exact (f.inf neg)
  | .fin neg mag exp => f.round rm neg mag exp false

/-! ### Exact dyadic values -/

/-- The exact real value man × 2^exp. -/
structure Dy where
  man : Int
  exp : Int
  deriving DecidableEq, Repr

namespace Dy

def zero : Dy := { man := 0, exp := 0 }

/-- The integer man × 2^(exp − e), for e ≤ exp. -/
def scaled (x : Dy) (e : Int) : Int := x.man * (2 ^ (x.exp - e).toNat : Nat)

def add (x y : Dy) : Dy :=
  if x.man = 0 then y else if y.man = 0 then x
  else let e := min x.exp y.exp; { man := x.scaled e + y.scaled e, exp := e }

def mul (x y : Dy) : Dy := { man := x.man * y.man, exp := x.exp + y.exp }
def neg (x : Dy) : Dy := { x with man := -x.man }
def lt (x y : Dy) : Bool := let e := min x.exp y.exp; decide (x.scaled e < y.scaled e)

end Dy

def FVal.dyadic : FVal → Dy
  | .fin neg mag exp => { man := if neg then -(mag : Int) else mag, exp := exp }
  | _ => .zero

def FVal.isNan : FVal → Bool | .nan => true | _ => false
def FVal.isInf : FVal → Bool | .inf _ => true | _ => false
def FVal.isZero : FVal → Bool | .fin _ 0 _ => true | _ => false
def FVal.neg : FVal → Bool | .nan => false | .inf n => n | .fin n _ _ => n
def FVal.negate : FVal → FVal | .nan => .nan | .inf n => .inf (!n) | .fin n m e => .fin (!n) m e

/-- An exact dyadic value rounded; `zneg` is the sign of an exact zero (03 R56). -/
def Fmt.roundDyadic (f : Fmt) (rm : Rounding) (zneg : Bool) (x : Dy) : FRes :=
  if x.man = 0 then .exact (f.zero zneg) else f.round rm (decide (x.man < 0)) x.man.natAbs x.exp false

/-- The value of an integer, for conversions (03 R59). -/
def FVal.ofInt (i : Int) : FVal := .fin (decide (i < 0)) i.natAbs 0

/-! ### Arithmetic (05 R100, R101), rounded once -/

/-- An exact product as a value: 0 × ∞ is NaN; the sign of a zero product is the product of the signs (03 R56). -/
def FVal.mul (a b : FVal) : FVal :=
  match a, b with
  | .nan, _ | _, .nan => .nan
  | .inf s, .inf t => .inf (xor s t)
  | .inf s, .fin t m _ => if m = 0 then .nan else .inf (xor s t)
  | .fin s m _, .inf t => if m = 0 then .nan else .inf (xor s t)
  | .fin s m e, .fin t n k => .fin (xor s t) (m * n) (e + k)

/-- An exact sum as a value: ∞ − ∞ is NaN; an exact zero sum is −0 only when both terms are −0 (03 R56). -/
def FVal.add (a b : FVal) : FVal :=
  match a, b with
  | .nan, _ | _, .nan => .nan
  | .inf s, .inf t => if s = t then .inf s else .nan
  | .inf s, .fin .. => .inf s
  | .fin .., .inf t => .inf t
  | .fin s m _, .fin t n _ =>
    let d := Dy.add a.dyadic b.dyadic
    if d.man = 0 then .fin (decide (m = 0) && decide (n = 0) && s && t) 0 d.exp
    else .fin (decide (d.man < 0)) d.man.natAbs d.exp

/-- A value computed from inputs, some of which may be NaN: NV is set when it is NaN and no input was (03 R55). -/
def Fmt.deliver (f : Fmt) (rm : Rounding) (nanIn : Bool) (v : FVal) : FRes :=
  match v with
  | .nan => f.invalid nanIn
  | v => f.narrow rm v

def Fmt.add (f : Fmt) (rm : Rounding) (a b : FVal) : FRes := f.deliver rm (a.isNan || b.isNan) (a.add b)
def Fmt.sub (f : Fmt) (rm : Rounding) (a b : FVal) : FRes := f.add rm a b.negate
def Fmt.mul (f : Fmt) (rm : Rounding) (a b : FVal) : FRes := f.deliver rm (a.isNan || b.isNan) (a.mul b)
/-- A × B + C with one rounding (05 R101). -/
def Fmt.fma (f : Fmt) (rm : Rounding) (a b c : FVal) : FRes :=
  f.deliver rm (a.isNan || b.isNan || c.isNan) ((a.mul b).add c)

/-- Division (05 R100): a finite non-zero value by zero gives an infinity and DZ; 0/0 and ∞/∞ give NaN and NV. -/
def Fmt.div (f : Fmt) (rm : Rounding) (a b : FVal) : FRes :=
  match a, b with
  | .nan, _ | _, .nan => f.invalid true
  | .inf _, .inf _ => f.invalid false
  | .inf s, .fin t _ _ => .exact (f.inf (xor s t))
  | .fin s _ _, .inf t => .exact (f.zero (xor s t))
  | .fin s m e, .fin t n k =>
    if n = 0 then (if m = 0 then f.invalid false else { bits := f.inf (xor s t), flags := .divZero })
    else if m = 0 then .exact (f.zero (xor s t))
    else
      let up := bitLength n + f.fb + 3
      f.round rm (xor s t) (m * 2 ^ up / n) (e - k - up) (m * 2 ^ up % n != 0)

/-- Square root (05 R100): of −0 it is −0, of a value below zero NaN and NV. -/
def Fmt.sqrt (f : Fmt) (a : FVal) : FRes :=
  match a with
  | .nan => f.invalid true
  | .inf s => if s then f.invalid false else .exact (f.inf false)
  | .fin s m e =>
    if m = 0 then .exact (f.zero s)
    else if s then f.invalid false
    else
      let up := 2 * (f.fb + 4) + (if e % 2 = 0 then 0 else 1)
      let n := m * 2 ^ up
      let r := isqrt n
      f.round .rne false r ((e - up) / 2) (r * r != n)

/-- −0 below +0; NaN inputs are the caller's (05 R100). -/
def FVal.less (a b : FVal) : Bool :=
  match a, b with
  | .nan, _ | _, .nan => false
  | .inf s, .inf t => s && !t
  | .inf s, .fin .. => s
  | .fin .., .inf t => !t
  | .fin s m _, .fin t n _ =>
    if m = 0 && n = 0 then s && !t else Dy.lt a.dyadic b.dyadic

/-- Numeric order of values, −0 and +0 equal (05 R102). -/
def FVal.ltNum (a b : FVal) : Bool := !(a.isZero && b.isZero) && a.less b
def FVal.eqNum (a b : FVal) : Bool := !a.isNan && !b.isNan && !a.ltNum b && !b.ltNum a

/-- Float `min` and `max` on patterns (05 R100): the canonical NaN if either is NaN, no flag. -/
def Fmt.minMax (f : Fmt) (isMax : Bool) (a b : Nat) : Nat :=
  let x := f.decode a
  let y := f.decode b
  if x.isNan || y.isNan then f.nan
  else if isMax then (if x.less y then b else a) else (if y.less x then b else a)

/-! ### Conversions (03 R58, R59) -/

/-- The integer nearest mag × 2^exp, ties to even, and whether it differs. -/
def roundInt (neg : Bool) (mag : Nat) (exp : Int) : Int × Bool :=
  let (m, inexact) := roundAt .rne mag exp 0 false
  (if neg then -(m : Int) else m, inexact)

/-- Floating-point to n-bit integer (03 R58). -/
def floatToInt (n : Nat) (sat : Bool) : FVal → FRes
  | .nan => { bits := 0, flags := .invalid }
  | .inf neg =>
    { bits := if sat then (if neg then wrapN n (-(2 ^ (n - 1) : Nat)) else 2 ^ (n - 1) - 1) else 0, flags := .invalid }
  | .fin neg mag exp =>
    let (i, nx) := roundInt neg mag exp
    let outside := decide (i < -(2 ^ (n - 1) : Nat)) || decide ((2 ^ (n - 1) : Nat) - 1 < i)
    { bits := narrowInt n sat i, flags := { FFlags.none with nv := outside, nx := nx } }

/-! ### Plane integers (03 R62 to R67) -/

/-- The value of an element whose first p planes hold `q` (unsigned p-bit), with scale byte e (03 R65); scale 255
decodes as +0 (03 R63). -/
def planeValue (p q e : Nat) : FVal :=
  if e = 255 then .fin false 0 0
  else
    let qs := sintN p q
    let m : Int := if p = 8 then qs else qs * (2 ^ (8 - p) : Nat) + (2 ^ (7 - p) : Nat)
    .fin (decide (m < 0)) m.natAbs ((e : Int) - 127)

/-- The planes of element i read from a block's bytes: plane j holds bit 7 − j (03 R62); the result is the unsigned
p-bit string with plane 0 on top. -/
def planeBits (block : List Byte) (B p i : Nat) : Nat :=
  (List.range p).foldl (fun acc j => acc * 2 + (block.getD (j * (B / 8) + i / 8) 0).toNat / 2 ^ (i % 8) % 2) 0

/-! ### Ferry quantisation (03 R73) -/

/-- The magnitude that counts for the quantiser: infinities are the largest finite value, NaNs zero. -/
def quantValue (b : Nat) : FVal :=
  match fp32.decode b with
  | .nan => .fin false 0 0
  | .inf neg => fp32.decode (fp32.largest neg)
  | v => v

/-- The scale byte of a block of FP32 patterns (03 R73). -/
def quantScale (xs : List Nat) : Nat :=
  let logs := xs.map (fun b => match quantValue b with
    | .fin _ mag exp => if mag = 0 then none else some (exp + bitLength mag - 1)
    | _ => none)
  match logs.foldl (fun acc l => match acc, l with
      | none, l => l
      | some a, none => some a
      | some a, some b => some (max a b)) (none : Option Int) with
  | none => 0
  | some l => (max 0 (min 254 (l - 6 + 127))).toNat

/-- The int8 pattern of one element under a scale byte (03 R73). -/
def quantElement (e b : Nat) : Nat :=
  match quantValue b with
  | .fin neg mag exp => wrapN 8 (satN 8 (roundInt neg mag (exp - ((e : Int) - 127))).1)
  | _ => 0

/-- The byte i of plane j of a block of int8 patterns (03 R62). -/
def planeByte (qs : List Nat) (j i : Nat) : Nat :=
  (List.range 8).foldl (fun acc k => acc + (qs.getD (8 * i + k) 0 / 2 ^ (7 - j) % 2) * 2 ^ k) 0

/-! ### The exact accumulator (03 R74 to R76) -/

/-- What one FP32 contribution adds: the integer x × 2^149, NANF, PINF, NINF (03 R75). -/
def accOf (b : Nat) : Int × Bool × Bool × Bool :=
  match fp32.decode b with
  | .nan => (0, true, false, false)
  | .inf neg => (0, false, !neg, neg)
  | .fin neg mag exp =>
    let v : Int := mag * (2 ^ (exp + 149).toNat : Nat)
    (if neg then -v else v, false, false, false)

/-- The element that the root delivers (03 R76). -/
def accRoot (a : Int) (nanf pinf ninf : Bool) : Nat :=
  if nanf || (pinf && ninf) then fp32.nan
  else if pinf then fp32.inf false
  else if ninf then fp32.inf true
  else (fp32.roundDyadic .rne false { man := a, exp := -149 }).bits

/-! ### Manifests (03 R77 to R80) -/

/-- p = 2^61 − 1 (03 R77). -/
def manifestP : Nat := 2 ^ 61 - 1

/-- Σ (i + 1) × img(e_i) mod p, from index i (03 R77). -/
def manifestSum : List Nat → Nat → Nat
  | [], _ => 0
  | e :: es, i => ((i + 1) * e + manifestSum es (i + 1)) % manifestP

/-- The little-endian value of a run of bytes (00 R7). -/
def leValue : List Byte → Nat
  | [] => 0
  | b :: bs => b.toNat + 256 * leValue bs

/-- The n bytes of a value, little-endian (00 R7). -/
def leBytes : Nat → Nat → List Byte
  | 0, _ => []
  | n + 1, v => BitVec.ofNat 8 v :: leBytes n (v / 256)

/-- The elements of width k bytes of a run of n × k bytes. -/
def elements (k : Nat) : Nat → List Byte → List Nat
  | 0, _ => []
  | n + 1, bs => leValue (bs.take k) :: elements k n (bs.drop k)

/-- The element width of a manifest kind 1 to 4 (03 R77). -/
def manifestWidth : Nat → Nat
  | 1 => 1 | 2 => 2 | 3 => 4 | 4 => 8 | _ => 1

/-- The 64-bit field: KIND, SUM (03 R78). -/
def manifestField (kind sum : Nat) : Word := BitVec.ofNat 64 (kind % 8 * 2 ^ 61 + sum % 2 ^ 61)

/-- The chunk identity (03 R80). -/
def chunkIdentity (space object chunk round : Nat) : Word :=
  BitVec.ofNat 64 (space % 2 * 2 ^ 63 + object % 2 ^ 15 * 2 ^ 48 + chunk % 2 ^ 28 * 2 ^ 20 + round % 2 ^ 20)

/-- The integer value of an accumulator modulo p (03 R77, kind 5). -/
def accImage (a : Int) : Nat := (a % (manifestP : Int)).toNat

end Sys2Proof.Machine
end

