-- ==== Sys2Proof/Config.lean ====
section
/-! DEFINITION. The free values and uninterpreted functions of the model. None has a body, so no statement can rest on a
value of one: a claim holds whatever they are. Each is named in notes/assumptions. -/

namespace Sys2Proof.Config

/-- A free choice between two outcomes that the spec both allows; the argument is the step's own counter
(`State.free`). Used for the hazardous read and rewrite (01 R21), the word fetched from a line stored to (01 R16),
and the merging of posted requests (06 R128). -/
opaque freeBool : Nat → Bool

/-- The contention that adds to a stated minimum of the network or of a DRAM reply (14 R285), in core cycles. -/
opaque contention : Nat → Nat

/-- A free doubleword, for a value that the spec leaves open (07 R155, 14 R292). -/
opaque freeWord : Nat → BitVec 64

/-- The code of a kind of memory or engine in a fault record's UNIT (23 R416), which the spec does not state; the argument is the
model's own number of the kind. -/
opaque unitCode : Nat → BitVec 4

/-- The SM3 hash, which the spec names and does not state (00 R1, 20 R364, 24 R428). -/
opaque sm3 : List (BitVec 8) → BitVec 256

/-- Whether an SM2 signature over a hash verifies under the fused key (24 R428); named and not stated by the spec. -/
opaque sm2Verify : BitVec 256 → BitVec 512 → Bool

/-- The SM2 signature that the module identity makes over a hash (24 R429); named and not stated by the spec. -/
opaque sm2Sign : BitVec 256 → BitVec 512

/-- The bytes of the module identity chain of certificate slot 0 (24 R429); not stated by the spec. -/
opaque identityChain : List (BitVec 8)

/-- The key fused into each die, which verifies firmware images (24 R428); not stated by the spec. -/
opaque fusedKey : List (BitVec 8)

/-- The boot ROM's measurement (24 R429); not stated by the spec. -/
opaque bootRom : List (BitVec 8)

end Sys2Proof.Config
end

