-- ==== Sys2Proof/Machine/Maps.lean ====
section
/-! DEFINITION. Sparse maps by number, as sorted lists of pairs: the module has 262,144 cores, and State lists the ones that
differ from their state after reset. -/

namespace Sys2Proof.Machine

/-- A sparse map: keys strictly rising. -/
abbrev KMap (α : Type) := List (Nat × α)

/-- The value listed at a key. -/
def kget {α : Type} (k : Nat) : KMap α → Option α
  | [] => none
  | (k', v) :: rest => if k = k' then some v else kget k rest

/-- Sets the value at a key, keeping the order of keys. -/
def kset {α : Type} (k : Nat) (v : α) : KMap α → KMap α
  | [] => [(k, v)]
  | (k', v') :: rest => if k = k' then (k, v) :: rest else if k < k' then (k, v) :: (k', v') :: rest else (k', v') :: kset k v rest

/-- Removes a key. -/
def kdel {α : Type} (k : Nat) (m : KMap α) : KMap α := m.filter (fun p => decide (p.1 ≠ k))

end Sys2Proof.Machine
end

