-- ==== Sys2Proof/Machine/State.lean ====
section
/-! DEFINITION. The state of the module as plain data: every item of the table of 00 R6, the state of the engines, the die
controllers, the ferry and the host registers, and the model's own fields (`cycle`, `turn`, `agenda`, `who`, `stalled`,
`free`); the reasons a step stops; and the state after module reset. -/

namespace Sys2Proof.Machine

/-- The reasons a step stops with a fault. -/
inductive Fault where
  /-- Raised by `step` when the agenda holds an event that names an entity the module does not have (00 R2, R3). Safe: the
  hardware has no such event, and the machine stops. -/
  | illFormedEvent
  deriving DecidableEq, Repr

/-- The reasons for refusing an instruction. -/
inductive Refusal where
  /-- Raised by `exec` for an instruction whose meaning is not written. Safe: the machine stops. -/
  | notModelled (mnemonic : String)
  deriving DecidableEq, Repr

/-! ### Contexts -/

/-- The pending hint group (01 R25, R26): data by kind, and the address of the group's first word. -/
structure Hints where
  imm : Option (BitVec 23)
  imx : Option (BitVec 23)
  mod : Option (BitVec 23)
  reg : Option (BitVec 23)
  /-- The switch markers of the `mod` and `reg` words, which TRAPVAL of R90 shows. -/
  modSw : Bool
  regSw : Bool
  first : Word
  deriving DecidableEq, Repr

/-- No group is pending. -/
def Hints.none : Hints := { imm := .none, imx := .none, mod := .none, reg := .none, modSw := false, regSw := false, first := 0 }

/-- What produces an outstanding result: a unit of the core, the patch (whose reads the scoreboard holds back, 01 R21), a
load, an atomic or lock operation, or a send (06 R135). -/
inductive Producer where
  | unit | patch | load | atomic | send
  deriving DecidableEq, Repr

/-- An outstanding destination (01 R18): the address and the hint group of its word, which a trap of its access names (10 R238), and
whether its write leaves the register alone, because another write of a hazardous pair stands (01 R21), and whether its word stands in a
window that a restore has closed since (01 R19), so that no later word meets it as a hazard. -/
structure Outstanding where
  dest : Dest
  by_ : Producer
  pc : Word
  hints : Hints
  stale : Bool
  past : Bool
  deriving DecidableEq, Repr

/-- Why a live context is parked (01 R17), with what the wait needs to end. Addresses are virtual; `key` is the
memory cell the home watches. -/
inductive Park where
  /-- Not parked. -/
  | none
  /-- At a switch marker, until no result is outstanding (01 R20). -/
  | marker
  /-- A trap waits until no result is outstanding (10 R237). -/
  | trap (t : Trap)
  /-- `sys.ret` waits until no result is outstanding (01 R20). -/
  | ret
  /-- `work.exit` waits until no result is outstanding (08 R181); the counter's address, if any. -/
  | exiting (counter : Option Word)
  /-- A wait load on its watch (06 R122). -/
  | watch (va : Word) (key : Nat) (sz : Size) (sext : Bool) (cond : Cond) (y : Word) (dest : XReg) (sw : Bool)
  /-- `work.join` on its watch (08 R180). -/
  | joining (va : Word) (key : Nat) (sw : Bool)
  /-- `work.yield` that 08 R183 acts on. -/
  | yielding (sw : Bool)
  /-- A blocking lock request (06 R132): the cycle in which the context may go on, once it is granted, and whether its home
  lies beyond the group. -/
  | lock (dest : XReg) (granted : Option Nat) (beyond : Bool) (sw : Bool)
  /-- A fence (06 R135). -/
  | fence (kind : FenceKind) (scope : Scope) (sw : Bool)
  /-- `msg.send` reads its buffer, 32 bytes in a core cycle (06 R139): where, how many bytes, and the message as far as it is read. -/
  | sending (va : Word) (len : Nat) (message : Message) (sw : Bool)
  /-- `bar.wait` and `bar.sync` (06 R144) on a phase. -/
  | barrier (phase : BitVec 16) (sw : Bool)
  /-- `bar.wsync` (06 R145) on a tag. -/
  | wired (tag : Fin 8) (sw : Bool)
  /-- `vf.push` on a full FIFO, `vf.pop` on an empty one, and the pop's write (06 R150). -/
  | vfPush (va : Word) (sw : Bool)
  | vfPop (va : Word) (sw : Bool)
  | vfPopWrite (va : Word) (value : Vec) (at_ : Nat) (sw : Bool)
  /-- `pat.cfg` reads its block, one doubleword in a core cycle (05 R113): the core cycle from which the first is seen, and what has been read. The same
  holds of the other words that read a card or a descriptor. -/
  | patCfg (va : Word) (at_ : Nat) (block : List Word) (sw : Bool)
  /-- `gang.lead`, `gang.follow`, `gang.join` (08 R199, R201). -/
  | gangLead (mask : BitVec 8) (dest : XReg) (sw : Bool)
  | gangFollow (leader : Fin 8) (dest : XReg) (sw : Bool)
  | gangJoin (rendezvous : BitVec 4) (sw : Bool)
  /-- `mx.gang` (07 R160): the descriptor's address until the cycle given, then the arrival. -/
  | mxRead (va : Word) (end_ : Nat) (got : List Word) (dest : XReg) (sw : Bool)
  | mxGang (dest : XReg) (consumed : Bool) (sw : Bool)
  /-- `job.sub` reads its card, then waits to be accepted (07 R171); `job.wait` (07 R169). -/
  | jobSub (va : Word) (end_ : Nat) (card : List Word) (dest : XReg) (sw : Bool)
  | jobWait (ident : BitVec 16) (dest : XReg) (sw : Bool)
  /-- `work.launch` (08 R186) and `work.migrate` (08 R187). -/
  | launching (va : Word) (end_ : Option Nat) (got : List Word) (dest : XReg) (sw : Bool)
  | migrating (target : Nat) (dest : XReg) (sw : Bool)
  /-- `otask.sub` reads its card, then its record (08 R192). -/
  | otaskSub (va : Word) (end_ : Nat) (card : List Word) (dest : XReg) (sw : Bool)
  /-- A trap held in an ordered task (08 R196). -/
  | held (t : Trap)
  /-- An ordered task whose next store finds no spill space (13 R276). -/
  | storeFull
  /-- `cx.def` reads its card (09 R208); `cx.sample` (09 R212). -/
  | cxDef (va : Word) (end_ : Nat) (got : List Word) (dest : XReg) (sw : Bool)
  | cxSample (tick : Word) (va : Word) (dest : XReg) (copying : Option (Nat × List Byte)) (sw : Bool)
  /-- `sr.def` reads its card (09 R216); `sr.drain` (09 R220). -/
  | srDef (va : Word) (end_ : Nat) (got : List Word) (sw : Bool)
  | srDrain (set : Fin 4) (dest : XReg) (sw : Bool)
  /-- `fr.board` reads its card, then waits for the pier (09 R223); `fr.cancel` waits for the pier (09 R225). -/
  | frBoard (va : Word) (end_ : Nat) (got : List Word) (dest : XReg) (sw : Bool)
  | pier (dest : XReg) (sw : Bool)
  /-- `red.tree` reads its card, then waits for the root (09 R228); `red.put` waits for its tile (09 R229); `red.wait` until the step
  ends, and then the cycle and the value of the root's answer (09 R230). -/
  | redTree (va : Word) (end_ : Nat) (got : List Word) (dest : XReg) (sw : Bool)
  | redPut (ident : Word) (va : Word) (dest : XReg) (sw : Bool)
  | redWait (tree : Nat) (answer : Option (Nat × Nat)) (dest : XReg) (sw : Bool)
  /-- `sys.gate` (10 R241): n, and the count of messages written when it issued. -/
  | gate (n : Nat) (seen : Nat) (dest : XReg) (sw : Bool)
  /-- `sys.invp` and `sys.inva` (10 R242): the tenant and the page, or every page, until every die has reported, at the cycle given. -/
  | invalidating (tenant : Nat) (page : Option Nat) (end_ : Nat) (sw : Bool)
  deriving DecidableEq, Repr

/-- What a helper was started for, where its end or its words depend on it (08, 09, 13). -/
inductive Role where
  | plain
  /-- A drain-row handler: its row, its job identifier, the row's address and format in C, and whether `mx.rowout` has issued
  (07 R163, R164). -/
  | drainRow (row : Nat) (job : BitVec 16) (addr : Nat) (outf : Nat) (rowout : Bool)
  /-- The handler routine of a message ring (13 R275). -/
  | ring (i : Fin 8)
  /-- An ordered task, by its slot in the die's table (08 R192). -/
  | task (slot : Nat)
  /-- A delivery of a record: the cluster's record number, the header given in x10, and whether the stage has ended (09 R219). -/
  | stage (record : Nat) (header : Word) (ended : Bool)
  /-- The exit helper of a record (09 R218). -/
  | exit (record : Nat)
  deriving DecidableEq, Repr

/-- The state of one context (00 R6; 01, 04, 08, 10). -/
structure Ctx where
  live : Bool
  /-- The model's own: the number of its start, by which its accesses know it, and its arrivals at barriers so far. -/
  serial : Nat
  epoch : Nat
  x : Vector Word 32
  v : Vector Vec 8
  m : Vector (BitVec 32) 4
  pc : Word
  /-- The PC has stepped from the last slot of a line into the next one, whose CODE bit is still to be checked (01 R14). -/
  newLine : Bool
  /-- CTXSTAT (01 R22, 10 R235): WHTRAP, WINHAZ, INTRAP, the flags, SRC. CORE and CTX are the context's place. -/
  whtrap : Bool
  winhaz : Bool
  intrap : Bool
  flags : FFlags
  src : BitVec 4
  /-- TRAPCAUSE (10 R236). -/
  trapHints : Bool
  trapCause : BitVec 8
  trapPc : Word
  trapVal : Word
  trapVec : Word
  hints : Hints
  outstanding : List Outstanding
  park : Park
  /-- The cycle in which the context parked (13 R272), and the first cycle in which it may issue. -/
  parkedAt : Nat
  readyAt : Nat
  /-- Unacknowledged stores, posted atomics and sends (06 R120). -/
  unacked : Nat
  /-- Addresses of poisoned acknowledgements not yet delivered (06 R129). -/
  poisonAcks : List Word
  /-- Port entries that the word it is parked in has popped: their credits return when the word completes, and the entries
  return to their FIFOs if it traps (06 R116). -/
  popped : List (Fin 8 × Word)
  /-- Barrier registration, and the arrivals recorded in the current phases (06 R143). -/
  registered : Bool
  arrivedMesh : Bool
  arrivedTags : BitVec 8
  /-- Accesses issued before its last arrival that are not yet acknowledged (15 R313). -/
  arriveDebt : Nat
  /-- What it was started for, and the core that started it. -/
  role : Role
  origin : Nat
  deriving DecidableEq, Repr

/-! ### Per-core structures -/

/-- Lines of 64 bytes of spill space (14 R292): how many of the carve-out, and which of the overflow area. -/
structure Spill where
  near : Nat
  far : List Nat
  deriving DecidableEq, Repr

def Spill.none : Spill := { near := 0, far := [] }
def Spill.join (a b : Spill) : Spill := { near := a.near + b.near, far := a.far ++ b.far }

/-- A queue port (06 R137, R138; 14 R297, R299); `spill` holds what its FIFO has been enlarged by. -/
structure Port where
  bound : Bool
  peerCore : Nat
  peerPort : Fin 8
  paired : Bool
  fifo : List Word
  credits : Nat
  capacity : Nat
  spill : Spill
  deriving DecidableEq, Repr

/-- A butterfly port of a scratchpad (14 R284): the core served last, the cycle of that service, and the cores that have asked,
with the cycle. -/
structure Butterfly where
  last : Nat
  served : Option Nat
  waiting : List (Nat × Nat)
  deriving DecidableEq, Repr

/-- A message ring (14 R293); `used` counts pads. `size` = 0 when the launch did not configure it. `handler` is its
routine (13 R275), `overflow` its counter (06 R140), `readyAge` the cycle in which the routine became ready. -/
structure Ring where
  base : Nat
  size : Nat
  handler : Word
  head : Nat
  tail : Nat
  used : Nat
  overflow : Nat
  running : Bool
  readyAge : Option Nat
  deriving DecidableEq, Repr

/-- The tags of a tile (14 R288). -/
structure TileTag where
  track : Bool
  poison : Bool
  consumed : Bool
  valid : Bool
  deriving DecidableEq, Repr

/-- A tile-ready entry (14 R290), the cycle of its arming, and its firings that have not started: age, entry, argument (14 R291). -/
structure TileReady where
  dw0 : Word
  dw1 : Word
  dw2 : Word
  armedAt : Nat
  fired : List (Nat × Word × Word)
  deriving DecidableEq, Repr

/-- A task of a deque (08 R179): entry, arguments, and the cycle of its push. -/
structure DequeTask where
  entry : Word
  arg0 : Word
  arg1 : Word
  pushed : Nat
  deriving DecidableEq, Repr

/-- A register-context message (08 R187, R188): the context, where x[d] takes the source's index, the results still on
their way to it, and the cycle of its arrival, if it has arrived. -/
structure Migrant where
  ctx : Ctx
  source : Nat
  dest : XReg
  pending : List (Nat × Result)
  arrived : Option Nat
  deriving DecidableEq, Repr

/-- A swapped-out context (13 R272, R273): the context, the slot that it left, the age as a resume once its wait is satisfied, and the space
of its record. -/
structure Swapped where
  ctx : Ctx
  slot : CtxNo
  resume : Option Nat
  space : Spill
  deriving DecidableEq, Repr

/-- Swap-out or restore in progress (13 R272, R273). -/
inductive Mover where
  | idle
  | out (slot : CtxNo) (end_ : Nat)
  | back (slot : CtxNo) (end_ : Nat)
  deriving DecidableEq, Repr

/-- A member's view of its gang (08 R199 to R202). `queue` holds forwarded words with the leader's next PC after each;
`stop` is where an attached follower goes on by itself once its leader has ended and the buffer is empty; `behind` is the leader's saved PC, where a halt
has discarded words that the follower had still to issue: it fetches them itself. -/
structure Gang where
  active : Bool
  mask : BitVec 8
  leader : Fin 8
  ctx : CtxNo
  attached : Bool
  rendezvous : Option (BitVec 4)
  queue : List (BitVec 32 × Word)
  inFlight : Nat
  stop : Option Word
  behind : Option Word
  deriving DecidableEq, Repr

/-- The loaded configuration of the patch (05 R111): the header and the 16 cell words. -/
structure Patch where
  header : Word
  cells : List Word
  deriving DecidableEq, Repr

/-- A row in the drain path (07 R163, R164): its index, job and values, the cycle in which it entered, whether it occupies a drain
buffer, whether a handler has been started for it, when its write is performed, and whether that write waits for a page. -/
structure DrainRow where
  row : Nat
  job : BitVec 16
  addr : Nat
  outf : Nat
  vals : List (BitVec 32)
  age : Nat
  held : Bool
  handler : Bool
  due : Option Nat
  paged : Bool
  deriving DecidableEq, Repr

/-- The joint-array slice of a core: ROWPROG (07 R168), SLEWSTAT (01 R32), the limiter's view of it, and the two
drain buffers. -/
structure Slice where
  jobId : BitVec 16
  drained : Nat
  rows : Nat
  state : Nat
  startWait : Nat
  fillCyc : Nat
  startReq : Option Nat
  stopReq : Option Nat
  /-- The last core cycle of the row in progress. -/
  rowEnd : Option Nat
  /-- The slice stalls: for a buffer (07 R163), or for a page (07 R166); the row whose time has ended and that waits for a buffer. -/
  waiting : Bool
  ready : Option (List (BitVec 32))
  buffers : List DrainRow
  deriving DecidableEq, Repr

/-- An attempt on its way (13 R271): the victim, when it reaches it, when its answer is back, and the task taken. -/
structure StealAttempt where
  victim : Nat
  there : Nat
  back : Nat
  got : Option DequeTask
  deriving DecidableEq, Repr

/-- A stealing scan (13 R271). `last` is the last victim tried at each level. -/
structure Steal where
  attempt : Option StealAttempt
  backoff : Option Nat
  level : Nat
  tried : List Nat
  last : List Nat
  deriving DecidableEq, Repr

/-- Monitor and tenant mode (00 R4). -/
inductive Mode where
  | tenant | monitor
  deriving DecidableEq, Repr

/-- A token of a mesh barrier's sweep (13 R280) that a core holds: whether it goes up the column of row ends, the rectangle it comes from,
the greatest arrival cycle it has gathered, and the core cycle in which the core came to hold it. -/
structure Sweep where
  core : Nat
  up : Bool
  rect : BitVec 28
  last : Nat
  heldAt : Nat
  deriving DecidableEq, Repr

/-- What is left of a context that has ended while accesses of it are unacknowledged (08 R181, 15 R313): their number, and those issued before its
last arrival, which its core's arrival waits for. -/
structure Orphan where
  serial : Nat
  unacked : Nat
  epoch : Nat
  debt : Nat
  deriving DecidableEq, Repr

/-- The barrier state of a core (06 R143 to R148). Counts of tags are by tag number; `sent` is the arrival at the mesh barrier, in the core
cycle `sentAt`. -/
structure Barriers where
  rect : BitVec 28
  phase : BitVec 16
  wph : BitVec 8
  mis : Bool
  wd : Bool
  reg : Nat
  arr : Nat
  sent : Bool
  sentAt : Nat
  falls : Nat
  member : BitVec 8
  tagReg : Vector Nat 8
  tagArr : Vector Nat 8
  tagSent : BitVec 8
  tagFalls : Vector Nat 8
  deriving DecidableEq, Repr

/-- The state of one core. -/
structure Core where
  mode : Mode
  halted : Bool
  lid : Nat
  ctxs : Vector Ctx 11
  lastIssued : Nat
  /-- The core cycle in which it last issued a word (14 R298, 24 R420). -/
  issuedAt : Option Nat
  bar : Barriers
  ports : Vector Port 8
  clusterPort : Butterfly
  groupPort : Butterfly
  /-- SPILLBASE.BASE and INUSE, SPILLOVF, and the lines of the overflow area in use (14 R292). -/
  spillBase : Nat
  spillUsed : Nat
  spillOvf : Word
  ovfUsed : List Nat
  prot : Vector Word 8
  slice : Slice
  tags : KMap TileTag
  tileReady : Vector TileReady 16
  rings : Vector Ring 8
  ringLast : Nat
  messages : Nat
  hold : BitVec 8
  deque : List DequeTask
  /-- Stolen tasks that are pending (13 R271). -/
  stolen : List DequeTask
  arrivals : List Migrant
  swapped : List Swapped
  mover : Mover
  steal : Steal
  gang : Gang
  patch : Option Patch
  patchLoading : Bool
  divBusy : Nat
  rootBusy : Nat
  /-- Wn (14 R301), accesses beyond the group not yet answered, the run of unmarked replies, replies since the last halving. -/
  wn : Nat
  beyond : Nat
  run : Nat
  sinceHalving : Nat
  /-- Fetched lines by address, with the cell and the words fetched (01 R16, R17), and the lines on their way. -/
  lines : KMap (Nat × List (BitVec 32))
  fetching : List Nat
  /-- The vertical FIFO (06 R150), held by the lower-die core: entries with the first cycle in which each can be popped. -/
  vfifo : List (Nat × Vec)
  /-- Power (24 R420 to R423): down, consecutive quiet cycles, the cycle of a wake in progress, the router's gating. -/
  down : Bool
  quiet : Nat
  waking : Option Nat
  routerGated : Bool
  /-- Core cycles in a row without a flit at its router (24 R423). -/
  flitless : Nat
  /-- Contexts that have ended, with accesses still to be acknowledged. -/
  orphans : List Orphan
  deriving DecidableEq, Repr

/-! ### Per-cluster structures -/

/-- A matrix operation (07 R158), its fields decoded. -/
structure MatrixOp where
  abase : Nat
  bbase : Nat
  cbase : Nat
  astride : Nat
  bstride : Nat
  cstride : Nat
  scaleA : Nat
  scaleB : Nat
  metaA : Nat
  terms : BitVec 16
  arm : Bool
  tagen : Bool
  tag : Nat
  drain : Bool
  bt : Bool
  acc : Bool
  outf : Nat
  epat : Nat
  bpat : Nat
  planes : Nat
  k : Nat
  handler : Word
  deriving DecidableEq, Repr

/-- A copy or multicast job (07 R170). -/
structure CopyJob where
  src : Nat
  dst : Nat
  len : Nat
  terms : BitVec 16
  arm : Bool
  tagen : Bool
  tag : Nat
  mask : BitVec 8
  kind : Nat
  core : Nat
  deriving DecidableEq, Repr

inductive JobKind where
  | matrix (op : MatrixOp)
  | copy (job : CopyJob)
  deriving DecidableEq, Repr

/-- A slot of the job queue (07 R153, R169). `used` once it has been taken; `state` as R169; `rank` is the submission order;
`accepted` and `started` are cycles; `done` counts the bytes copied. -/
structure JobSlot where
  gen : Nat
  used : Bool
  taken : Bool
  job : Option JobKind
  state : Nat
  held : Bool
  drop : Bool
  cause : Nat
  va : Nat
  rank : Nat
  accepted : Nat
  started : Nat
  done : Nat
  deriving DecidableEq, Repr

/-- A counter of the event crossbar (07 R172). -/
structure XCounter where
  src : BitVec 16
  thresh : Nat
  auto : Bool
  count : Nat
  fired : Bool
  deriving DecidableEq, Repr

/-- A crossing variable (09 R206, 16 R331). -/
structure CxVar where
  index : Nat
  x : BitVec 32
  t : Nat
  s : BitVec 32
  q : BitVec 32
  qb : BitVec 32
  next : Nat
  deps : Word
  deplist : List Nat
  /-- The core whose own window holds the dependant list. -/
  owner : Nat
  handler : Nat
  sts : Nat
  stw : Nat
  swin : Nat
  scnt : Nat
  /-- The crossing task's place in the die's table, when submitted; otherwise the first cycle in which the unit may submit it. -/
  task : Option Nat
  due : Option Nat
  deriving DecidableEq, Repr

/-- A stage of a set (09 R216, R220; 16 R336). -/
structure Stage where
  entry : Word
  cls : Nat
  pos : Nat
  weight : Nat
  passed : Nat
  rejects : Nat
  passedNow : Nat
  rejectsNow : Nat
  deriving DecidableEq, Repr

/-- A stage set (09 R216). -/
structure StageSet where
  defined : Bool
  wexp : Nat
  exit : Word
  stages : List Stage
  left : Nat
  windowLeft : Nat
  deriving DecidableEq, Repr

/-- A record in flight (09 R215, R218): needs a draw since a cycle, is queued for a stage (or the exit, stage 8) with an
age, or is being delivered. -/
structure Record where
  header : Word
  payload : Word
  injector : Nat
  draw : Option Nat
  queued : Option (Nat × Nat)
  delivering : Bool
  deriving DecidableEq, Repr

/-- What an engine does when an access of its stalls at an interface (21 R379): take an operation, compute or write a row of the slice at a
position, move a piece of a copy. -/
inductive EngineWait where
  | operation
  | row (pos : Nat)
  | write (pos row : Nat)
  | copy
  deriving DecidableEq, Repr

/-- The state of one cluster. -/
structure Cluster where
  jobs : Vector JobSlot 32
  nextRank : Nat
  lastPos : Nat
  /-- Gang arrivals of `mx.gang`, by position (07 R160), and the operation that position 0 read. -/
  gangArrivals : BitVec 8
  gangOp : Option MatrixOp
  /-- The operation that the wired cluster barrier offers to the queue, with the core cycle of the offer, and the row time of the
  running one (07 R160, R161; 12 R263). -/
  gangOffer : Option (Nat × MatrixOp)
  /-- The model's own: as this core cycle began, the array could have run the operation offered (12 R263). -/
  gangReady : Bool
  rowTime : Nat
  running : Option Nat
  copying : Option Nat
  pulses : BitVec 16
  counters : Vector XCounter 16
  terms : Vector (BitVec 16) 16
  termTrue : BitVec 16
  /-- CXTICK.K, CXSTORM, the LFSR of SRSEED (09 R213, R221). -/
  cxTick : BitVec 6
  stormS : BitVec 16
  stormW : BitVec 6
  lfsr : BitVec 32
  cxRunning : Bool
  vars : KMap CxVar
  sets : Vector StageSet 4
  records : KMap Record
  /-- Engine accesses that wait for a page: the cycle of their stall, the page number, and what they serve (21 R379). -/
  paged : List (Nat × Nat × EngineWait)
  deriving DecidableEq, Repr

/-- The limiter and the watchdog of a group (01 R28 to R31; 14 R298): the run of core cycles that the watchdog counts, the ports whose
pushes lacked a credit in this core cycle, and the core cycle of an engine's last read or write there. -/
structure Group where
  level : Nat
  idleRun : Nat
  blocked : List (Nat × Fin 8)
  moved : Option Nat
  deriving DecidableEq, Repr

/-! ### Launches -/

/-- A berth (20 R354). -/
structure Berth where
  die0 : Nat
  dies : Nat
  col : Nat
  row : Nat
  w : Nat
  h : Nat
  deriving DecidableEq, Repr

/-- The launch description (11 R252), with ARG0, ARG1 and PRIO as the request settles them (08 R185). -/
structure LaunchDesc where
  entry : Word
  trapVec : Word
  whtrap : Bool
  steal : Nat
  prio : Nat
  h : Nat
  w : Nat
  dies : Nat
  quantum : Nat
  spill : Nat
  stormS : BitVec 16
  stormW : BitVec 6
  tick : BitVec 6
  seed : BitVec 32
  wbartag : BitVec 8
  barrect : BitVec 28
  htab : Word
  hcount : Nat
  arg0 : Word
  arg1 : Word
  tables : Word
  deriving DecidableEq, Repr

/-- Where a launch stands (20 R350 to R363): in the store, waiting outside a full one, on a berth that is being loaded, running, or being
pre-empted. -/
inductive LaunchState where
  | pending | waiting | loading | running | preempting
  deriving DecidableEq, Repr

/-- A layer of the timetable (11 R251, 22 R393), with its start position. -/
structure Layer where
  n : Nat
  pier : Nat
  ret : Bool
  pl8 : Bool
  planes : Nat
  chunks : Nat
  source : Nat
  start : Nat
  deriving DecidableEq, Repr

/-- A timetable that waits to be installed (22 R403): its launch and tenant, its layers with their places, the lap length, AUTO and DIV. -/
structure Timetable where
  lid : Nat
  tenant : Nat
  layers : List Layer
  lapLen : Nat
  auto : Bool
  div : Nat
  deriving DecidableEq, Repr

/-- A launch: its identifier and entering die, the request (08 R185), the description once it has been read (20 R352), where it stands,
and what the die controllers keep: the first core cycle of its load's step 1 (20 R357), its placement, the core cycle in which it may
issue, its timetable while that waits for the ferry, the request and the halt of its pre-emption (20 R360), the core cycles spent. -/
structure Launch where
  lid : Nat
  tenant : Nat
  die : Nat
  descAddr : Word
  own : Bool
  reqArg0 : Word
  reqArg1 : Word
  reqPrio : Nat
  desc : Option LaunchDesc
  prio : Nat
  age : Nat
  state : LaunchState
  berth : Option Berth
  quantum : Nat
  begun : Option Nat
  /-- The berths of the launches that have been stopped to make room for it, each with the core cycle of its request (20 R357). -/
  rooms : List (Nat × Berth)
  placedAt : Nat
  issueAt : Option Nat
  /-- The core cycle in which its kernel first issued (01 R16). -/
  wentAt : Option Nat
  timetable : Option Timetable
  requested : Nat
  haltAt : Nat
  spent : Nat
  cancel : Bool
  saved : Bool
  deriving DecidableEq, Repr

/-! ### Per-die structures -/

/-- A range of a footprint (08 R191). -/
structure FootRange where
  w : Bool
  r : Bool
  base : Nat
  len : Nat
  deriving DecidableEq, Repr

/-- What an ordered task holds back until its commit (08 R193, R204): bytes by memory cell, and slope changes. -/
structure SlopeUpdate where
  index : Nat
  slope : BitVec 32
  deriving DecidableEq, Repr

/-- A 64-byte line that an ordered task holds back (08 R193, 13 R276): its address, its cell, and its place in the spill space. -/
structure BufLine where
  va : Word
  cell : Nat
  spill : Spill
  deriving DecidableEq, Repr

/-- An ordered task (08 R190 to R197; 16 R325 to R332). `state` as R197. -/
structure OTask where
  gen : Nat
  ts : Nat
  key : Nat
  entry : Word
  arg : Word
  foot : List FootRange
  lid : Nat
  cluster : Nat
  crossing : Option Nat
  parent : Option Nat
  state : Nat
  runs : Nat
  age : Nat
  running : Option CtxId
  /-- The core that runs or ran it, whose spill space holds its lines (13 R276). -/
  home : Nat
  startedAt : Nat
  finishedAt : Nat
  firstStore : Option Nat
  buffer : List (Nat × Byte)
  buffered : List BufLine
  /-- It has found no spill space, and stores directly into memory (13 R276). -/
  direct : Bool
  exitDec : Option (Nat × Word)
  held : Option Trap
  killed : Bool
  stormKill : Bool
  /-- The record sets of a crossing task, fixed at its start, and its buffered records and slope changes (16 R326, R327). -/
  writeSet : List Nat
  readSet : List Nat
  records : KMap CxVar
  slopes : List SlopeUpdate
  /-- The record of a crossing task's own variable after its crossing step, all that it commits once it is killed (16 R332). -/
  stepped : KMap CxVar
  /-- The address of the footprint record that its card names (08 R190), which a save image keeps (20 R367). -/
  fp : Nat
  deriving DecidableEq, Repr

/-- The commit point of a launch on a die: (TS, KEY) of the last committed task (08 R192), the task whose commit is being
performed, the cycle from which the next may become the commit point (13 R277), and the samples that hold back every commit with
TS above theirs, each until a cycle (09 R212). -/
structure Commits where
  last : Option (Nat × Nat)
  busy : Option Nat
  from_ : Nat
  holds : List (Nat × Nat)
  deriving DecidableEq, Repr

/-- The element-format attributes of a page or region (03 R68). -/
structure Attr where
  format : Nat
  blockg : Nat
  planesn : Nat
  deriving DecidableEq, Repr

/-- A range or page entry of a lookaside (21 R370): tenant, base and limit (VA), PA of the base, rights, format, LOC,
and, for a page, the address of its leaf and the word of it that the entry caches (21 R376). -/
structure LookEntry where
  tenant : Nat
  base : Nat
  limit : Nat
  frame : Nat
  loc : Nat
  x : Bool
  w : Bool
  r : Bool
  attr : Attr
  leaf : Option Nat
  raw : Nat
  deriving DecidableEq, Repr

/-- A page request outstanding or held (21 R379): tenant, the die that asked, kind, page number. -/
structure PageRequest where
  tenant : Nat
  die : Nat
  kind : Nat
  page : Nat
  written : Bool
  deriving DecidableEq, Repr

/-- A migration of a page (21 R385): its tenant and address, the frame that it leaves, the new owner and its frame, the lines handed over, and
the first core cycle of the next hand-over. -/
structure PageMove where
  tenant : Nat
  va : Nat
  old : Nat
  owner : Nat
  frame : Nat
  line : Nat
  next : Nat
  deriving DecidableEq, Repr

/-- A chunk of a reduction tree in a step (09 R229, R230; 23 R414): state 0 pending, 1 complete, 2 failed, with the cycle of the
failure; `acc` while the root's router holds its accumulator. -/
structure TreeChunk where
  state : Nat
  merged : Nat
  hop : BitVec 32
  failedAt : Nat
  acc : Option Contribution
  deriving DecidableEq, Repr

/-- A reduction tree (09 R228): its card, launch and current step with the chunks that are not as at its start, and the chunks of the
last step that ended. `fresh` is false from the end of a step until a contribution of the next one reaches the root (23 R414). -/
structure Tree where
  count : Nat
  root : Nat
  nchunk : Nat
  dst : Nat
  lid : Nat
  step : Nat
  chunks : KMap TreeChunk
  last : KMap TreeChunk
  fresh : Bool
  deriving DecidableEq, Repr

/-- A boarding (09 R223 to R226; 22 R398 to R400): its entry's generation, whether it still stands at the pier, the launch and core
that entered it, the chunks asked for and where they land, the lap boarded or awaited, the misses and the last reason, its state (0 also
stands for 1: 22 R398), the chunks landed good and landed poisoned, and whether it has missed a chunk in this lap. -/
structure Boarding where
  gen : Nat
  live : Bool
  lid : Nat
  core : Nat
  layer : Nat
  chunk0 : Nat
  nch : Nat
  tiles : Nat
  lap : Nat
  misses : Nat
  reason : Nat
  state : Nat
  landed : List Nat
  bad : List Nat
  missedNow : Bool
  deriving DecidableEq, Repr

/-- A deck slot's chunk (22 R390): the header fields and the cargo as it lands. -/
structure DeckChunk where
  layer : Nat
  chunk : Nat
  lap : Nat
  manifest : Word
  bad : Bool
  /-- The header is poisoned by ECC (22 R401). -/
  torn : Bool
  pl8 : Bool
  planes : Nat
  ret : Bool
  srcPier : Nat
  scales : Word
  cargo : List Byte
  deriving DecidableEq, Repr

/-- A destination of a dock entry (22 R399): the boarding's identifier, the core and the first of the chunk's 8 tiles, and how many of
them have been written. -/
structure DockDest where
  ident : Nat
  core : Nat
  tile : Nat
  next : Nat
  deriving DecidableEq, Repr

/-- A dock entry (22 R399): its chunk, the destinations still to be written, and the cycle in which the first one's tile in progress is
written. -/
structure DockEntry where
  chunk : DeckChunk
  dests : List DockDest
  busy : Option Nat
  deriving DecidableEq, Repr

/-- A fault record (23 R416), its fields. -/
structure FaultRecord where
  tenant : Nat
  tunk : Bool
  cause : Nat
  type : Nat
  lid : Nat
  cycle : Nat
  phys : Bool
  addr : Nat
  ident : Word
  seg : BitVec 32
  unit : Nat
  core : Nat
  count : Nat
  replay : Bool
  deriving DecidableEq, Repr

/-- The state of one die: the pending-launch store and the host registers (20 R350, R351; 21 R387; 23 R417; 24 R426),
ordered tasks, lookasides, trees, boardings, dock, logs. -/
structure Die where
  /-- Generation of each slot of the pending-launch store (20 R350), the LIDs of its entries, the re-entries that wait outside it, and the
  core cycle from which the die controller may choose a launch to pre-empt (20 R356). -/
  storeGen : Vector Nat 128
  store : List Nat
  reentries : List Nat
  preemptFrom : Nat
  lreq : Vector Word 4
  lreply : Word
  saveBase : Word
  cqBase : Word
  cqSize : Word
  cqHead : Word
  cqTail : Word
  lost : Bool
  lastLid : Nat
  lastCause : Nat
  ttBase : Word
  ttCount : Word
  invalDone : Word
  prqBase : Word
  prqSize : Word
  prqTail : Word
  prqHead : Word
  ltenant : Word
  fqBase : Word
  fqSize : Word
  fqHead : Word
  fqTail : Word
  fqLost : Word
  ready : Bool
  failStep : Nat
  outOfService : Bool
  /-- ACTFC (20 R359) and the cycle of its last write. -/
  actPend : Nat
  actActive : Nat
  actMatrix : Nat
  actAt : Nat
  /-- The tasks by LID × 512 + slot (08 R192: each launch holds its own on each die), and the commit points by LID. -/
  tasks : KMap OTask
  commits : KMap Commits
  ranges : List LookEntry
  pages : List LookEntry
  requests : List PageRequest
  trees : KMap Tree
  /-- Lock requests that wait at the die's routers, in order of arrival (06 R133). -/
  locks : List LockReq
  boardings : KMap Boarding
  /-- Tokens of mesh barriers (13 R280). -/
  sweeps : List Sweep
  dock : List DockEntry
  /-- Access counters of 21 R384: tenant, page number and counts by stack; the migration in progress. -/
  counters : List (Nat × Nat × List Nat)
  migrating : Option PageMove
  /-- Invalidations written to INVAL and not completed (21 R378, R387): the cycle, the tenant, the page or every page. -/
  invals : List (Nat × Nat × Option Nat)
  /-- The tenants whose LOG bit an invalidation has put in force (21 R378). -/
  logs : List Nat
  /-- Fault log kept across resets (23 R417); row pairs retired and failing, and the errors of cores: core, cycle, machine check (23 R418). -/
  log : List FaultRecord
  retired : List Nat
  failing : List Nat
  errors : List (Nat × Nat × Bool)
  deriving DecidableEq, Repr

/-! ### The module -/

/-- The ferry ring (22 R389 to R403). -/
structure Ferry where
  /-- The installed timetable: layers, lap length, launch, tenant and first lap; `running` is OWNED, and `leaving` says that its
  owner has ended. -/
  running : Bool
  layers : List Layer
  lapLen : Nat
  owner : Nat
  tenant : Nat
  firstLap : Nat
  leaving : Bool
  incoming : Option Timetable
  /-- The current lap, the steps since module reset, and the step in which the lap began. -/
  lap : Nat
  stepNo : Nat
  lapStart : Nat
  /-- Gangways of passes at this step or an earlier one have closed (22 R398). -/
  shut : Nat
  /-- Steps left of the 32 that retire the last pairs at a hand-over (22 R403). -/
  drain : Nat
  /-- FRSPEED (22 R397), the divider from the next step on, a monitor write that waits for it, and the ring cycle at which the next
  step begins. -/
  cur : Nat
  nextCur : Nat
  thresh : Nat
  auto : Bool
  div : Nat
  speedWrite : Option Word
  nextStep : Nat
  /-- Pairs in flight: the chunks, the source pier, and the steps since injection. -/
  pairs : List (List DeckChunk × Nat × Nat)
  deriving DecidableEq, Repr

/-- The responder of 24 R429: whether the version and the algorithms have been negotiated, and the last response. -/
structure Spdm where
  version : Bool
  capabilities : Bool
  algorithms : Bool
  response : List Byte
  deriving DecidableEq, Repr

/-- What the fuses and the firmware store hold (24 R427, R428); they live across resets. -/
structure Boot where
  image : FirmwareImage
  running : BitVec 32
  floor : BitVec 32
  deriving DecidableEq, Repr

/-- What the host and the scale-out peers read and receive: the last read's bytes, sends posted, sends received (21 R386, R388). -/
structure HostPort where
  readData : List Byte
  sendData : List (Nat × List Byte)
  inbound : List (Nat × List Byte)
  deriving DecidableEq, Repr

/-- A die's part of a saved launch (20 R367): the tasks by slot, the last commit and a commit being performed, the reduction trees. -/
structure DieImage where
  tasks : KMap OTask
  commits : Commits
  trees : KMap Tree
  deriving DecidableEq, Repr

/-- The saved state of a launch (20 R364 to R367), as on the berth that it left: its cores, their scratchpads and poisoned granules, its
clusters, its dies, its boardings by die (22 R403) and its timetable; where the image was written (0: in module DRAM), and how long it
is. -/
structure SaveImage where
  lid : Nat
  addr : Nat
  size : Nat
  berth : Berth
  cores : KMap Core
  scratch : List Host.Cell
  poison : List (Nat × Nat)
  clusters : KMap Cluster
  dies : KMap DieImage
  boardings : List (Nat × Nat × Boarding)
  timetable : Option Timetable
  deriving DecidableEq, Repr

/-- The module files that the loader holds for a launch description of a tenant (11 R254 to R261). -/
structure LoadedModules where
  tenant : Nat
  desc : Word
  files : List ModuleFile
  deriving DecidableEq, Repr

/-- What takes effect at the end of the core cycle of its issue (10 R234, 19 R348): a core's write of a register that more than one agent reads
in a core cycle, and `cx.run`. -/
inductive Late where
  | write (sn : SReg) (v : Word)
  | run
  deriving DecidableEq, Repr

/-- A store beyond the group on its way (23 R409): who issued it, the cell, the bytes that it replaced, and the core cycle in which its acknowledgement
is due. -/
structure Posted where
  who : Issuer
  key : Nat
  old : List Byte
  due : Nat
  deriving DecidableEq, Repr

/-- The state of the module. -/
structure State where
  /-- Core cycles since module reset (24 R419). -/
  cycle : Nat
  /-- The model's own: the next place in this cycle's issue order (core × 11 + candidate), 01 R23. -/
  turn : Nat
  /-- The model's own: what begins this core cycle has been done. -/
  begun : Bool
  /-- The model's own: dated events, of the hardware and from outside, in the order in which they take effect. -/
  agenda : List (Nat × Instr)
  /-- The model's own: what takes effect at the end of this core cycle, each with its core, in ascending core order (10 R234). -/
  late : List (Nat × Late)
  /-- The model's own: the context whose word is issued. -/
  who : CtxId
  /-- The model's own: the word just tried was not ready (01 R17). -/
  stalled : Bool
  /-- The model's own: the contexts whose words ask for a butterfly port in this core cycle, and the core whose request is being
  decided, once every core has been tried (14 R284). -/
  asked : List CtxId
  deciding : Option Nat
  /-- The model's own: the counter that free values are drawn by, and that of contexts started. -/
  free : Nat
  serials : Nat
  cores : KMap Core
  clusters : KMap Cluster
  groups : KMap Group
  dies : KMap Die
  launches : KMap Launch
  images : List SaveImage
  modules : List LoadedModules
  ferry : Ferry
  mem : List Host.Cell
  /-- Words of code lines that writes have replaced, with the core cycle of the write: a fetch may still see them (01 R16). -/
  overwritten : List (Nat × BitVec 32 × Nat)
  /-- Poisoned granules: first memory cell and length (23 R406). -/
  poison : List (Nat × Nat)
  /-- The 512-byte blocks held in zero-map form (03 R71), by cell / 512, with the format of the page that they were written through. -/
  zeroBlocks : KMap Nat
  /-- The model's own: stores beyond the group whose acknowledgements are due. -/
  posted : List Posted
  host : HostPort
  spdm : Spdm
  boot : Boot
  /-- Refusals in a row of the flit that each link last refused (23 R408), and the links that have failed. -/
  refusals : KMap Nat
  failedLinks : List Nat
  deriving DecidableEq, Repr

/-! ### Reset (24 R425; the reset columns of 00 R9) -/

/-- A context that is not live: registers clear (24 R425 step 4), m0 all ones (00 R6). -/
def Ctx.reset : Ctx :=
  { live := false, serial := 0, epoch := 0, x := Vector.replicate 32 0, v := Vector.replicate 8 0, m := (Vector.replicate 4 0).set 0 (BitVec.allOnes 32)
    pc := 0, newLine := false, whtrap := false, winhaz := false, intrap := false
    flags := { nv := false, dz := false, ofl := false, ufl := false, nx := false }, src := 0
    trapHints := false, trapCause := 0, trapPc := 0, trapVal := 0, trapVec := 0, hints := .none, outstanding := [], park := .none
    parkedAt := 0, readyAt := 0, unacked := 0, poisonAcks := [], popped := [], registered := false, arrivedMesh := false, arrivedTags := 0
    arriveDebt := 0, role := .plain, origin := 0 }

def Port.reset : Port :=
  { bound := false, peerCore := 0, peerPort := 0, paired := false, fifo := [], credits := 0, capacity := 8, spill := .none }

def Butterfly.reset : Butterfly := { last := 262143, served := none, waiting := [] }

def Ring.reset : Ring :=
  { base := 0, size := 0, handler := 0, head := 0, tail := 0, used := 0, overflow := 0, running := false, readyAge := none }

/-- The reset tags of 14 R287. -/
def TileTag.reset : TileTag := { track := false, poison := false, consumed := true, valid := false }

def TileReady.reset : TileReady := { dw0 := 0, dw1 := 0, dw2 := 0, armedAt := 0, fired := [] }

def Slice.reset : Slice :=
  { jobId := 0, drained := 0, rows := 0, state := 0, startWait := 0, fillCyc := 0, startReq := none, stopReq := none
    rowEnd := none, waiting := false, ready := none, buffers := [] }

def Gang.reset : Gang :=
  { active := false, mask := 0, leader := 0, ctx := 0, attached := false, rendezvous := none, queue := [], inFlight := 0
    stop := none, behind := none }

def Steal.reset : Steal := { attempt := none, backoff := none, level := 0, tried := [], last := [0, 0, 0, 0] }

def Barriers.reset : Barriers :=
  { rect := 0, phase := 0, wph := 0, mis := false, wd := false, reg := 0, arr := 0, sent := false, sentAt := 0, falls := 0, member := 0
    tagReg := Vector.replicate 8 0, tagArr := Vector.replicate 8 0, tagSent := 0, tagFalls := Vector.replicate 8 0 }

/-- A core after module reset: tenant mode, nothing live (24 R425). -/
def Core.reset : Core :=
  { mode := .tenant, halted := false, lid := 0, ctxs := Vector.replicate 11 Ctx.reset, lastIssued := 10, issuedAt := none, bar := Barriers.reset
    ports := Vector.replicate 8 Port.reset, clusterPort := Butterfly.reset, groupPort := Butterfly.reset, spillBase := 0x18000, spillUsed := 0, spillOvf := 0, ovfUsed := []
    prot := Vector.replicate 8 0, slice := Slice.reset, tags := [], tileReady := Vector.replicate 16 TileReady.reset
    rings := Vector.replicate 8 Ring.reset, ringLast := 7, messages := 0, hold := 0, deque := [], stolen := [], arrivals := [], swapped := []
    mover := .idle, steal := Steal.reset, gang := Gang.reset, patch := none, patchLoading := false, divBusy := 0, rootBusy := 0
    wn := 64, beyond := 0, run := 0, sinceHalving := 64, lines := [], fetching := [], vfifo := [], down := false, quiet := 0
    waking := none, routerGated := false, flitless := 0, orphans := [] }

def JobSlot.reset : JobSlot :=
  { gen := 1, used := false, taken := false, job := none, state := 2, held := false, drop := false, cause := 0, va := 0, rank := 0, accepted := 0
    started := 0, done := 0 }

def XCounter.reset : XCounter := { src := 0, thresh := 0, auto := false, count := 0, fired := false }

def StageSet.reset : StageSet := { defined := false, wexp := 4, exit := 0, stages := [], left := 0, windowLeft := 0 }

def Cluster.reset : Cluster :=
  { jobs := Vector.replicate 32 JobSlot.reset, nextRank := 0, lastPos := 7, gangArrivals := 0, gangOp := none, gangOffer := none, gangReady := false, rowTime := 64, running := none
    copying := none, pulses := 0, counters := Vector.replicate 16 XCounter.reset, terms := Vector.replicate 16 0, termTrue := 0
    cxTick := 0, stormS := 0, stormW := 0, lfsr := 1, cxRunning := false, vars := [], sets := Vector.replicate 4 StageSet.reset
    records := [], paged := [] }

def Group.reset : Group := { level := 0, idleRun := 0, blocked := [], moved := none }

/-- A die after reset: every host register 0, steps 1 to 5 of 24 R425 done without a failure, and step 6 waiting for FQBASE. -/
def Die.reset : Die :=
  { storeGen := Vector.replicate 128 0, store := [], reentries := [], preemptFrom := 0, lreq := Vector.replicate 4 0, lreply := 0, saveBase := 0
    cqBase := 0, cqSize := 0, cqHead := 0, cqTail := 0, lost := false, lastLid := 0, lastCause := 0, ttBase := 0, ttCount := 0
    invalDone := 0, prqBase := 0, prqSize := 0, prqTail := 0, prqHead := 0, ltenant := 0, fqBase := 0, fqSize := 0, fqHead := 0
    fqTail := 0, fqLost := 0, ready := false, failStep := 0, outOfService := false, actPend := 0, actActive := 0
    actMatrix := 0, actAt := 0, tasks := [], commits := [], ranges := []
    pages := [], requests := [], trees := [], locks := [], boardings := [], sweeps := [], dock := [], counters := [], migrating := none, invals := [], logs := []
    log := [], retired := [], failing := [], errors := [] }

/-- The ring after reset (22 R396, R397): no timetable, CUR 1, THRESH 16. -/
def Ferry.reset : Ferry :=
  { running := false, layers := [], lapLen := 1088, owner := 0, tenant := 0, firstLap := 0, leaving := false, incoming := none, lap := 0
    stepNo := 0, lapStart := 0, shut := 0, drain := 0, cur := 1, nextCur := 1, thresh := 16, auto := false, div := 1, speedWrite := none
    nextStep := 0, pairs := [] }

def Spdm.reset : Spdm := { version := false, capabilities := false, algorithms := false, response := [] }

def Boot.reset : Boot :=
  { image := { version := 0, hash := 0, signature := 0, body := [] }, running := 0, floor := 0 }

def HostPort.reset : HostPort := { readData := [], sendData := [], inbound := [] }

/-- The machine right after module reset (24 R425). -/
def State.reset : State :=
  { cycle := 0, turn := 0, begun := true, agenda := [], late := [], who := { core := 0, ctx := 0 }, stalled := false, asked := [], deciding := none, free := 0, serials := 0, cores := [], clusters := []
    groups := [], dies := [], launches := [], images := [], modules := [], ferry := Ferry.reset, mem := [], overwritten := [], poison := [], zeroBlocks := [], posted := [], host := HostPort.reset
    spdm := Spdm.reset, boot := Boot.reset, refusals := [], failedLinks := [] }

end Sys2Proof.Machine
end

