-- ==== Sys2Proof/Machine/Base.lean ====
section
/-! DEFINITION. The named operations on the state: coordinates (00 R2, R3), access to the sparse parts, the agenda, free
values, memory by cell, and the registers of a context. -/

namespace Sys2Proof

/-- The byte width of an access (02 R50). -/
def Size.bytes : Size → Nat | .b => 1 | .h => 2 | .w => 4 | .d => 8

/-- Destinations that are no register: x0 and m0. -/
def Dest.isNone : Dest → Bool
  | .x r => decide (r = 0)
  | .v _ => false
  | .m r => decide (r = 0)

/-- Which rights of 21 R375 and R381 an access needs. -/
def AccessKind.reads : AccessKind → Bool | .read | .atomic | .lock => true | _ => false
def AccessKind.writes : AccessKind → Bool | .write | .atomic | .lock => true | _ => false

end Sys2Proof

namespace Sys2Proof.Machine

/-! ### Coordinates (00 R2, R3) -/

def dieOf (core : Nat) : Nat := core / 8192
def rowOf (core : Nat) : Nat := core % 8192 / 128
def colOf (core : Nat) : Nat := core % 128
def coreAt (die col row : Nat) : Nat := die * 8192 + row * 128 + col
/-- The cluster of a core, numbered die × 1,024 + cluster within die. -/
def clusterOf (core : Nat) : Nat := dieOf core * 1024 + rowOf core / 2 * 32 + colOf core / 4
/-- The position of a core in its cluster. -/
def posOf (core : Nat) : Nat := rowOf core % 2 * 4 + colOf core % 4
/-- The group of a core, numbered die × 128 + group within die. -/
def groupOf (core : Nat) : Nat := dieOf core * 128 + rowOf core / 8 * 16 + colOf core / 8
/-- The cluster of a core within its group. -/
def clusterInGroup (core : Nat) : Nat := rowOf core % 8 / 2 * 2 + colOf core % 8 / 4
/-- The core at a position of a cluster. -/
def coreOfCluster (cluster pos : Nat) : Nat :=
  coreAt (cluster / 1024) (cluster % 32 * 4 + pos % 4) (cluster % 1024 / 32 * 2 + pos / 4)
/-- The core at position p of cluster c of a group. -/
def coreOfGroup (group c p : Nat) : Nat :=
  coreAt (group / 128) (group % 16 * 8 + c % 2 * 4 + p % 4) (group % 128 / 16 * 8 + c / 2 * 2 + p / 4)
/-- The cores of a cluster, by position. -/
def coresOfCluster (cluster : Nat) : List Nat := (List.range 8).map (coreOfCluster cluster)
/-- The cores of a group, in ascending slice number: cluster within group × 8 + position (01 R29). -/
def coresOfGroup (group : Nat) : List Nat := (List.range 64).map (fun i => coreOfGroup group (i / 8) (i % 8))
/-- Upper and lower cores by die parity (06 R149). -/
def isUpper (core : Nat) : Bool := dieOf core % 2 == 1
/-- The core bonded to a core: the same column and row on the other die of the stack (06 R149). -/
def bonded (core : Nat) : Nat := if isUpper core then core - 8192 else core + 8192
/-- The lower core of the pair. -/
def lowerCore (core : Nat) : Nat := if isUpper core then core - 8192 else core

/-- The mesh hops between two cores, by column and row (14 R285, R300). -/
def hops (a b : Nat) : Nat :=
  (colOf a - colOf b) + (colOf b - colOf a) + (rowOf a - rowOf b) + (rowOf b - rowOf a)

/-- The least delay of a load between two cores beyond the group (14 R285). -/
def minDelay (a b : Nat) : Nat := 8 + 2 * hops a b + (if dieOf a = dieOf b then 0 else 80)

/-! ### Access to the parts of the state -/

namespace State

def core (s : State) (c : Nat) : Core := (kget c s.cores).getD Core.reset
def setCore (s : State) (c : Nat) (k : Core) : State := { s with cores := kset c k s.cores }
def modCore (s : State) (c : Nat) (f : Core → Core) : State := s.setCore c (f (s.core c))

def cluster (s : State) (c : Nat) : Cluster := (kget c s.clusters).getD Cluster.reset
def setCluster (s : State) (c : Nat) (k : Cluster) : State := { s with clusters := kset c k s.clusters }
def modCluster (s : State) (c : Nat) (f : Cluster → Cluster) : State := s.setCluster c (f (s.cluster c))

def group (s : State) (g : Nat) : Group := (kget g s.groups).getD Group.reset
def setGroup (s : State) (g : Nat) (k : Group) : State := { s with groups := kset g k s.groups }
def modGroup (s : State) (g : Nat) (f : Group → Group) : State := s.setGroup g (f (s.group g))

def die (s : State) (d : Nat) : Die := (kget d s.dies).getD Die.reset
def setDie (s : State) (d : Nat) (k : Die) : State := { s with dies := kset d k s.dies }
def modDie (s : State) (d : Nat) (f : Die → Die) : State := s.setDie d (f (s.die d))

def ctx (s : State) (w : CtxId) : Ctx := (s.core w.core).ctxs.get w.ctx
def setCtx (s : State) (w : CtxId) (c : Ctx) : State :=
  s.modCore w.core (fun k => { k with ctxs := k.ctxs.set w.ctx.val c w.ctx.isLt })
def modCtx (s : State) (w : CtxId) (f : Ctx → Ctx) : State := s.setCtx w (f (s.ctx w))

def launch (s : State) (lid : Nat) : Option Launch := kget lid s.launches
def setLaunch (s : State) (l : Launch) : State := { s with launches := kset l.lid l s.launches }

/-- The launch of a core. -/
def launchOf (s : State) (core : Nat) : Option Launch := s.launch (s.core core).lid

/-- The tenant of a core's launch (21 R371); 0 when it has none. -/
def tenantOf (s : State) (core : Nat) : Nat := match s.launchOf core with | some l => l.tenant | none => 0

end State

/-- Whether a core lies in a berth's rectangle (20 R354). -/
def Berth.holds (b : Berth) (core : Nat) : Bool :=
  decide (b.die0 ≤ dieOf core) && decide (dieOf core < b.die0 + b.dies) && decide (b.col ≤ colOf core)
    && decide (colOf core < b.col + b.w) && decide (b.row ≤ rowOf core) && decide (rowOf core < b.row + b.h)

/-- The cores of a berth, in ascending index (00 R3). -/
def Berth.cores (b : Berth) : List Nat :=
  (List.range b.dies).flatMap (fun d => (List.range b.h).flatMap (fun r => (List.range b.w).map (fun c =>
    coreAt (b.die0 + d) (b.col + c) (b.row + r))))

/-- The clusters of a berth: every cluster its rectangle touches (20 R354). -/
def Berth.clusters (b : Berth) : List Nat :=
  (List.range b.dies).flatMap (fun d => (List.range ((b.h + 1) / 2)).flatMap (fun r => (List.range ((b.w + 3) / 4)).map (fun c =>
    (b.die0 + d) * 1024 + (b.row / 2 + r) * 32 + (b.col / 4 + c))))

/-- A core may reach another core's scratchpad, rings and ports only within its launch's berth (14 R283); a core without
a launch reaches its own. -/
def State.inBerth (s : State) (core target : Nat) : Bool :=
  match s.launchOf core with
  | some { berth := some b, .. } => b.holds target
  | _ => decide (target = core)

/-! ### The agenda and free values -/

/-- Inserts a dated event after every event due no later. -/
def agendaInsert (due : Nat) (i : Instr) : List (Nat × Instr) → List (Nat × Instr)
  | [] => [(due, i)]
  | (d, j) :: rest => if d ≤ due then (d, j) :: agendaInsert due i rest else (due, i) :: (d, j) :: rest

/-- The flits of 32 bytes (14 R300) that a dated event may keep in the queues of the mesh. -/
def flitsOf : Instr → Nat
  | .storeAcknowledge _ beyond _ => if beyond then 3 else 0
  | .resultWrite _ r => if r.beyond then 3 else 0
  | .amoHomeApply r => if r.beyond then 2 else 0
  | .lockResend r => if r.beyond then 2 else 0
  | .queueEntryArrival .. | .creditReturn .. | .sendOutcome .. | .boardingRequest .. | .cancelRequest .. => 2
  | .messageArrival m => 2 + m.bytes.length / 32
  | .lineFetched .. => 5
  | .migrationArrival .. => 40
  | .contributionArrival .. => 160
  | _ => 0

namespace State

/-- Posts an event for the start of a core cycle. -/
def post (s : State) (due : Nat) (i : Instr) : State := { s with agenda := agendaInsert due i s.agenda }

/-- Posts an event for the end of the core cycle n cycles from now (01 R20). -/
def postEnd (s : State) (n : Nat) (i : Instr) : State := s.post (s.cycle + n + 1) i

/-- A free choice (notes/assumptions/5). -/
def freeBool (s : State) : Bool := Config.freeBool s.free
/-- MARK of a reply beyond the group (14 R300): a free choice, once more than the 12 flits of a crowded output queue are on their way.
DESIGN CHOICE (notes/assumptions/11): no router's queue is held. -/
def mark (s : State) : Bool := s.freeBool && decide (12 < (s.agenda.map (fun e => flitsOf e.2)).sum)

/-- Moves past the free value just used. -/
def drew (s : State) : State := { s with free := s.free + 1 }

end State

/-! ### Memory by cell

Cells: DRAM and weight stores at their PA (21 R371); host memory at 2^48 + host PA; scratchpads at 2^50 + core × 2^17 + offset. -/

abbrev Memory := List Host.Cell

/-- What a byte that nothing has written reads as (notes/assumptions/3). -/
def Memory.unlisted : Byte := 0

def Memory.read : Memory → Nat → Byte
  | [], _ => Memory.unlisted
  | (a', b) :: rest, a => if a = a' then b else if a < a' then Memory.unlisted else Memory.read rest a

/-- Writes one byte, keeping the canonical form: addresses strictly rising, no byte equal to the unlisted one. -/
def Memory.write : Memory → Nat → Byte → Memory
  | [], a, b => if b = Memory.unlisted then [] else [(a, b)]
  | (a', b') :: rest, a, b =>
    if a = a' then (if b = Memory.unlisted then rest else (a, b) :: rest)
    else if a < a' then (if b = Memory.unlisted then (a', b') :: rest else (a, b) :: (a', b') :: rest)
    else (a', b') :: Memory.write rest a b

/-- Writes a run of bytes upwards from a cell. -/
def Memory.writeBytes : Memory → Nat → List Byte → Memory
  | m, _, [] => m
  | m, a, b :: bs => Memory.writeBytes (Memory.write m a b) (a + 1) bs

/-- Reads n bytes upwards from a cell. -/
def Memory.readBytes (m : Memory) (a : Nat) : Nat → List Byte
  | 0 => []
  | n + 1 => Memory.read m a :: Memory.readBytes m (a + 1) n

/-- The canonical form. -/
def Memory.wf : Memory → Bool
  | [] => true
  | [(_, b)] => decide (b ≠ Memory.unlisted)
  | (a, b) :: (a', b') :: rest => decide (b ≠ Memory.unlisted) && decide (a < a') && Memory.wf ((a', b') :: rest)

/-- The first cell of host memory. -/
def hostBase : Nat := 2 ^ 48
/-- The first cell of a core's scratchpad. -/
def spadCell (core off : Nat) : Nat := 2 ^ 50 + core * 2 ^ 17 + off
/-- The core and offset of a scratchpad cell. -/
def spadOf (key : Nat) : Option (Nat × Nat) :=
  if 2 ^ 50 ≤ key then some ((key - 2 ^ 50) / 2 ^ 17, (key - 2 ^ 50) % 2 ^ 17) else none

namespace State

/-- The n-byte little-endian value at a cell (00 R7). -/
def peek (s : State) (key n : Nat) : Nat := leValue (Memory.readBytes s.mem key n)

/-- Whether any of n bytes at a cell is poisoned (23 R406). -/
def poisoned (s : State) (key n : Nat) : Bool := s.poison.any (fun g => decide (g.1 < key + n) && decide (key < g.1 + g.2))

/-- A context that watches a cell of the 64-byte line (06 R122), if any. -/
def watched (s : State) (key : Nat) : Bool :=
  let on (p : Park) : Bool := match p with
    | .watch _ k _ _ _ _ _ _ => decide (k / 64 = key / 64)
    | .joining _ k _ => decide (k / 64 = key / 64)
    | _ => false
  s.cores.any (fun c => c.2.ctxs.toList.any (fun x => x.live && on x.park) || c.2.swapped.any (fun w => on w.ctx.park))

/-- The words of code lines (01 R12) that a write of n bytes at a cell replaces. -/
def replacedWords (s : State) (key n : Nat) : List (Nat × BitVec 32 × Nat) :=
  if 2 ^ 48 ≤ key then []
  else (List.range ((key + n - 1) / 4 - key / 4 + 1)).filterMap (fun i =>
    let a := (key / 4 + i) * 4
    if s.peek (a / 128 * 128) 4 % 2 = 1 then some (a, BitVec.ofNat 32 (s.peek a 4), s.cycle) else none)

/-- The 64-byte lines that n bytes at a cell touch. -/
def linesTouched (key n : Nat) : List Nat := (List.range ((key + n - 1) / 64 - key / 64 + 1)).map (fun i => (key / 64 + i) * 64)

/-- The doublewords among n bytes at a cell on which lock requests wait (06 R133). -/
def lockedWords (s : State) (key n : Nat) : List Nat :=
  ((s.dies.flatMap (fun d => d.2.locks.map (fun r => r.addr / 8))).filter (fun a => decide (key / 8 ≤ a) && decide (a ≤ (key + n - 1) / 8))).eraseDups.map (· * 8)

/-- Notes what takes effect at the end of this core cycle, behind what cores of no higher index have noted (10 R234). -/
def addLate (s : State) (core : Nat) (x : Late) : State :=
  { s with late := s.late.filter (fun e => decide (e.1 ≤ core)) ++ (core, x) :: s.late.filter (fun e => decide (core < e.1)) }

/-- Performs a write of bytes at a cell. Poison granules it covers whole are cleared (23 R407). The watches of its lines are read again in
the core cycle before that from which they let their contexts issue, `wait` from now, and the lock requests on its doublewords are evaluated again (06 R122, R133;
17 R339). -/
def writeMemAfter (s : State) (wait key : Nat) (bytes : List Byte) : State :=
  let n := bytes.length
  let s := { s with
    mem := Memory.writeBytes s.mem key bytes
    overwritten := s.overwritten ++ s.replacedWords key n
    poison := s.poison.filter (fun g => !(decide (key ≤ g.1) && decide (g.1 + g.2 ≤ key + n))) }
  let s := ((linesTouched key n).filter (fun l => s.watched l)).foldl (fun s l => s.post (s.cycle + wait - 1) (.watchReevaluate { addr := l, ready := s.cycle + wait })) s
  (s.lockedWords key n).foldl (fun s a => s.post s.cycle (.lockReevaluate a)) s

/-- A write that is performed at the end of the last core cycle: its watches complete in this one (17 R339). -/
def writeMem (s : State) (key : Nat) (bytes : List Byte) : State := s.writeMemAfter 1 key bytes

end State

/-! ### Issuers of accesses -/

/-- The context in a slot, as the issuer of an access. -/
def State.issuer (s : State) (w : CtxId) : Issuer := { slot := w, serial := (s.ctx w).serial, epoch := (s.ctx w).epoch }

/-- The context that issued an access, in the slot in which it did, or in another one of its core. -/
def State.issuing (s : State) (i : Issuer) : Option CtxId :=
  let here (c : CtxNo) : Bool := let x := s.ctx { core := i.slot.core, ctx := c }; x.live && decide (x.serial = i.serial)
  if here i.slot.ctx then some i.slot else ((List.finRange 11).find? here).map (fun c => { core := i.slot.core, ctx := c })

/-! ### Registers of a context -/

/-- x0 reads zero (00 R6). -/
def Ctx.getX (c : Ctx) (r : XReg) : Word := if r = 0 then 0 else c.x.get r
/-- A write to x0 is ignored. -/
def Ctx.setX (c : Ctx) (r : XReg) (v : Word) : Ctx := if r = 0 then c else { c with x := c.x.set r.val v r.isLt }
def Ctx.getV (c : Ctx) (r : VReg) : Vec := c.v.get r
def Ctx.setV (c : Ctx) (r : VReg) (v : Vec) : Ctx := { c with v := c.v.set r.val v r.isLt }
/-- m0 is all ones (00 R6). -/
def Ctx.getM (c : Ctx) (r : MReg) : BitVec 32 := if r = 0 then BitVec.allOnes 32 else c.m.get r
def Ctx.setM (c : Ctx) (r : MReg) (v : BitVec 32) : Ctx := if r = 0 then c else { c with m := c.m.set r.val v r.isLt }

def Ctx.getD (c : Ctx) : Dest → Vec
  | .x r => (c.getX r).setWidth 512
  | .v r => c.getV r
  | .m r => (c.getM r).setWidth 512

def Ctx.setD (c : Ctx) (d : Dest) (v : Vec) : Ctx :=
  match d with
  | .x r => c.setX r (v.setWidth 64)
  | .v r => c.setV r v
  | .m r => c.setM r (v.setWidth 32)

/-- A hint group is pending (01 R25). -/
def Hints.pending (h : Hints) : Bool := h.imm.isSome || h.imx.isSome || h.mod.isSome || h.reg.isSome

/-- The address bits of TRAPPC and TRAPVEC (10 R236): 47:2. -/
def wordAddress (v : Word) : Word := v &&& 0xFFFFFFFFFFFC

/-- The sequential successor N of a word's address (01 R13, 04 R91). -/
def seqNext (pc : Word) : Word := if pc.toNat % 128 = 124 then pc + 8 else pc + 4

/-- The port of x24 to x31 (06 R137). -/
def portOf (r : XReg) : Option (Fin 8) := if 24 ≤ r.val then some (Fin.ofNat 8 (r.val - 24)) else none

/-- The register is a bound queue port of the core. -/
def Core.isPort (k : Core) (r : XReg) : Bool := match portOf r with | some p => (k.ports.get p).bound | none => false

def Core.setPort (k : Core) (p : Fin 8) (v : Port) : Core := { k with ports := k.ports.set p.val v p.isLt }

/-- The one-way delay between two cores of queue entries, credits and messages (14 R297). -/
def linkDelay (a b : Nat) : Nat :=
  if a = b then 1 else if clusterOf a = clusterOf b then 3 else if groupOf a = groupOf b then 5 else minDelay a b

/-- `linkDelay`, with contention beyond the group (14 R285). -/
def State.linkDelay (s : State) (a b : Nat) : Nat :=
  Sys2Proof.Machine.linkDelay a b + (if groupOf a = groupOf b then 0 else Config.contention s.free)

end Sys2Proof.Machine
end

