-- ==== Sys2Proof/Machine/Access.lean ====
section
/-! DEFINITION. From a virtual address to a memory cell: the local windows (14 R283 to R286), the protection unit (21 R380,
R381), translation at the home die (21 R369 to R377), page requests and the dirty log (21 R379, R382), and the element
formats of pages and regions (03 R68). -/

namespace Sys2Proof.Machine

/-- Where an access lands: its cell, the format attributes, the latency of a load (06 R119, 14 R283, R285), the scratchpad
(core, offset) it reaches, if any, whether it lies beyond the group (14 R301), and the owner die of a page that its home forwards (21 R383). -/
structure Access where
  key : Nat
  attr : Attr
  lat : Nat
  spad : Option (Nat × Nat)
  beyond : Bool
  owner : Option Nat := none
  deriving DecidableEq, Repr

def Attr.raw : Attr := { format := 0, blockg := 0, planesn := 0 }

/-- The attributes that 03 R68 allows. -/
def Attr.ok (a : Attr) : Bool :=
  decide (a.format ≤ 0xA) && (if a.format = 8 then decide (1 ≤ a.planesn) else decide (a.blockg = 0) && decide (a.planesn = 0))

/-- The bits hi down to lo of a doubleword, as a number. -/
def bits (w : Nat) (hi lo : Nat) : Nat := w / 2 ^ lo % 2 ^ (hi + 1 - lo)
def bitAt (w : Nat) (i : Nat) : Bool := w / 2 ^ i % 2 == 1

/-! ### The local windows (14 R283) -/

/-- What a local address names. -/
inductive Window where
  | spad (core off lat : Nat)
  | control (off : Nat)
  | gap
  deriving DecidableEq, Repr

/-- The window of a local address, for a core (14 R283). -/
def window (core va : Nat) : Window :=
  if va < 0x18000 then .spad core va 1
  else if va < 0x19000 then .control (va - 0x18000)
  else if 0x100000 ≤ va && va < 0x200000 then
    let o := va - 0x100000
    if o % 0x20000 < 0x18000 then .spad (coreOfCluster (clusterOf core) (o / 0x20000)) (o % 0x20000) 3 else .gap
  else if 0x1000000 ≤ va && va < 0x1800000 then
    let o := va - 0x1000000
    if o % 0x20000 < 0x18000 then
      .spad (coreOfGroup (groupOf core) (o / 0x100000) (o % 0x100000 / 0x20000)) (o % 0x20000) 5
    else .gap
  else .gap

/-- The own window (14 R283). -/
def inOwn (va n : Nat) : Bool := decide (va + n ≤ 0x18000)
/-- The cluster window, or the own one (14 R283). -/
def inClusterWindow (core va : Nat) : Bool :=
  match window core va with | .spad _ _ lat => decide (lat ≤ 3) | _ => false
/-- Any of the three windows (14 R283). -/
def inGroupWindow (core va : Nat) : Bool :=
  match window core va with | .spad .. => true | _ => false

/-! ### The protection unit (21 R380, R381) -/

/-- The attributes of a protection region (21 R380). -/
def protAttr (p : Word) : Attr :=
  { format := bits p.toNat 60 57, blockg := bits p.toNat 56 55, planesn := bits p.toNat 54 52 }

/-- The lowest-numbered region in force that holds a tile (21 R381). -/
def protRegion (k : Core) (tile : Nat) : Option Word :=
  k.prot.toList.find? (fun p => bitAt p.toNat 63 && decide (bits p.toNat 7 0 ≤ tile) && decide (tile < bits p.toNat 23 16))

/-- The decision for one tile: the attributes, or the cause (21 R381). An access in no region is allowed, RAW. -/
def protTile (k : Core) (rd wr : Bool) (tile : Nat) : Except Cause Attr :=
  match protRegion k tile with
  | none => .ok .raw
  | some p =>
    if (rd && !bitAt p.toNat 61) || (wr && !bitAt p.toNat 62) then .error .protection
    else if !(protAttr p).ok then .error .translation
    else .ok (protAttr p)

/-- The cause for a tile, if it has one. -/
def protCause (k : Core) (rd wr : Bool) (tile : Nat) : Option Cause :=
  match protTile k rd wr tile with
  | .error c => some c
  | .ok _ => none

/-- The decision for n bytes at an offset, tile by tile; the attributes are those of the first tile (21 R381). -/
def protCheck (k : Core) (rd wr : Bool) (off n : Nat) : Except Cause Attr :=
  match protTile k rd wr (off / 512) with
  | .error c => .error c
  | .ok a =>
    match (List.range ((off + n - 1) / 512 - off / 512)).findSome? (fun i => protCause k rd wr (off / 512 + 1 + i)) with
    | some c => .error c
    | none => .ok a

/-! ### Translation (21 R369 to R377) -/

/-- The home die of a translated address (21 R369). -/
def homeDie (va : Nat) : Nat := va / 2 ^ 42 % 32

/-- A physical address in DRAM, or in a weight store (21 R371). -/
def isDram (pa : Nat) : Bool := decide (pa < 2 ^ 40) && decide (pa % 2 ^ 36 < 0x900000000)
def isWeightStore (pa : Nat) : Bool :=
  decide (pa < 2 ^ 40) && decide (0xF00000000 ≤ pa % 2 ^ 36) && decide (pa % 2 ^ 36 < 0xF20000000)

/-- A doubleword of a tenant's entry of the tenant table (21 R371). -/
def State.tenantWord (s : State) (die tenant i : Nat) : Nat := s.peek ((s.die die).ttBase.toNat + 64 * tenant + 8 * i) 8

/-- The tenant exists at a die (21 R371, R387). -/
def State.tenantOk (s : State) (die tenant : Nat) : Bool :=
  decide (tenant < (s.die die).ttCount.toNat) && bitAt (s.tenantWord die tenant 0) 0

/-- LOG of a tenant is set, and has come into force at an interface with an invalidation (21 R378, R382). -/
def State.logging (s : State) (die tenant : Nat) : Bool := bitAt (s.tenantWord die tenant 2) 0 && (s.die die).logs.contains tenant

/-- A leaf, decoded (21 R373). -/
structure Leaf where
  addr : Nat
  raw : Nat
  big : Bool
  deriving DecidableEq, Repr

/-- FRAME obeys 21 R374 for its LOC, and the other reserved fields are zero (21 R373, R372). -/
def leafOk (home : Nat) (l : Leaf) : Bool :=
  let w := l.raw
  let frame := bits w 39 12 * 4096
  let attr : Attr := { format := bits w 61 58, blockg := bits w 57 56, planesn := bits w 55 53 }
  decide (bits w 50 48 = 0) && decide (bits w 11 9 = 0) && decide (bits w 4 2 = 0) && attr.ok
    && (!l.big || decide (bits w 20 12 = 0))
    && (match bits w 52 51 with
      | 0 => decide (bits w 47 40 = 0) && decide (frame / 2 ^ 36 = home / 2) && (isDram frame || isWeightStore frame)
      | 1 => decide (bits w 47 45 = 0) && decide (frame / 2 ^ 36 = bits w 44 40 / 2) && decide (bits w 44 40 / 2 ≠ home / 2)
          && isDram frame
      | 2 => true
      | _ => false)

/-- The page-table walk from a level's table (21 R372): the leaf, or none where an entry is not valid or breaks its
layout. `fuel` counts the levels left. -/
def State.walk (s : State) (va table : Nat) : Nat → Option Leaf
  | 0 => none
  | fuel + 1 =>
    let idx := va / 2 ^ (12 + 9 * fuel) % 512
    let addr := table + 8 * idx
    let w := s.peek addr 8
    if fuel ≤ 1 && bitAt w 1 then some { addr := addr, raw := w, big := decide (fuel = 1) }
    else if bitAt w 0 && !bitAt w 1 && decide (fuel ≠ 0) && decide (bits w 63 40 = 0) && decide (bits w 11 2 = 0) then
      s.walk va (bits w 39 12 * 4096) fuel
    else none

/-- A range table entry, if it obeys 21 R377. Its format fields are judged as a leaf's, once it is loaded (21 R375). -/
def State.rangeAt (s : State) (tenant home pa : Nat) : Option LookEntry :=
  let base := s.peek pa 8
  let limit := s.peek (pa + 8) 8
  let frame := s.peek (pa + 16) 8
  let w := s.peek (pa + 24) 8
  let attr : Attr := { format := bits w 61 58, blockg := bits w 57 56, planesn := bits w 55 53 }
  let ok := decide (base % 4096 = 0) && decide (limit % 4096 = 0) && decide (base < limit) && decide (0x2000000 ≤ base)
    && decide (limit ≤ 2 ^ 47) && decide (homeDie base = homeDie (limit - 1)) && decide (homeDie base = home)
    && decide (base / 2 ^ 42 = (limit - 1) / 2 ^ 42)
    && decide (frame % 4096 = 0) && decide (frame < 2 ^ 40) && decide (frame / 2 ^ 36 = home / 2)
    && decide ((frame + (limit - base) - 1) / 2 ^ 36 = home / 2)
    && decide (bits w 63 62 = 0) && decide (bits w 52 8 = 0) && decide (bits w 4 0 = 0)
  if ok then
    some { tenant := tenant, base := base, limit := limit, frame := frame, loc := 0, x := bitAt w 7, w := bitAt w 6, r := bitAt w 5
           attr := attr, leaf := none, raw := 0 }
  else none

/-- The first range of the tenant's table that covers an address (21 R370, R377). -/
def State.findRange (s : State) (home tenant va : Nat) : Option LookEntry :=
  let w := s.tenantWord home tenant 1
  let base := bits w 39 5 * 32
  (List.range (w % 32)).findSome? (fun i =>
    match s.rangeAt tenant home (base + 32 * i) with
    | some e => if e.base ≤ va && va < e.limit then some e else none
    | none => none)

def LookEntry.covers (e : LookEntry) (tenant va : Nat) : Bool :=
  decide (e.tenant = tenant) && decide (e.base ≤ va) && decide (va < e.limit)

/-- Puts an entry first in a lookaside, least recently used last, at most n entries (21 R370). -/
def lookInsert (n : Nat) (e : LookEntry) (l : List LookEntry) : List LookEntry :=
  (e :: l.filter (fun f => decide (f ≠ e))).take n

/-- Writes a page request to the ring of a die when it has room (21 R379, R387); otherwise the request is held. -/
def State.sendRequest (s : State) (home : Nat) (r : PageRequest) : State × PageRequest :=
  let d := s.die home
  if d.prqTail - d.prqHead < d.prqSize then
    let w := r.tenant % 2 ^ 16 + r.kind * 2 ^ 16 + r.die * 2 ^ 18 + r.page % 2 ^ 36 * 2 ^ 28
    ((s.setDie home { d with prqTail := d.prqTail + 1 }).writeMem
      (hostBase + d.prqBase.toNat + 16 * (d.prqTail.toNat % d.prqSize.toNat)) (leBytes 8 w ++ leBytes 8 0), { r with written := true })
  else (s, r)

/-- The page request of 21 R379, once for a tenant and page. Atomics and lock operations are writes (21 R376). -/
def State.requestPage (s : State) (home asker tenant : Nat) (kind : AccessKind) (va : Nat) : State :=
  if (s.die home).requests.any (fun r => decide (r.tenant = tenant) && decide (r.page = va / 4096)) then s
  else
    let code := match kind with | .fetch => 2 | .write | .atomic | .lock => 1 | .read => 0
    let (s, r) := s.sendRequest home { tenant := tenant, die := asker, kind := code, page := va / 4096, written := false }
    s.modDie home (fun d => { d with requests := d.requests ++ [r] })

/-- The dirty-log append of 21 R382. -/
def State.logDirty (s : State) (home tenant va : Nat) : State :=
  let tt := (s.die home).ttBase.toNat + 64 * tenant
  if s.logging home tenant then
    let size := bits (s.tenantWord home tenant 3) 20 0
    let tail := s.tenantWord home tenant 4
    let head := s.tenantWord home tenant 5
    if (tail + 2 ^ 64 - head) % 2 ^ 64 = size then s.writeMem (tt + 31) [BitVec.ofNat 8 (bits (s.tenantWord home tenant 3) 63 56 ||| 0x80)]
    else
      let s := s.writeMem (bits (s.tenantWord home tenant 2) 39 12 * 4096 + 8 * (tail % size)) (leBytes 8 (va / 4096 * 4096))
      s.writeMem (tt + 32) (leBytes 8 (tail + 1))
  else s

/-- A leaf's word after an access: A is set, and D after a write (21 R376). -/
def leafTouched (write : Bool) (w : Nat) : Nat := w ||| 2 ^ 62 ||| (if write then 2 ^ 63 else 0)

/-- Sets A at the first access and D at the first write, by the word that a lookaside entry caches (21 R376): one that has them already
leaves the leaf alone. D and the log append come before the write. -/
def State.setAD (s : State) (home tenant va : Nat) (write : Bool) (leaf : Nat) (e : LookEntry) : State :=
  let w := leafTouched write e.raw
  if w = e.raw then s
  else
    let s := if write && !bitAt e.raw 63 then s.logDirty home tenant va else s
    (s.writeMem leaf (leBytes 8 w)).modDie home (fun d => { d with pages := d.pages.map (fun f => if f = e then { f with raw := w } else f) })

/-- The compare of the compare-and-swap on a leaf fails: it is no longer the word that the entry caches (21 R376). -/
def State.leafMoved (s : State) (write : Bool) (e : LookEntry) : Bool :=
  match e.leaf with
  | some leaf => decide (leafTouched write e.raw ≠ e.raw) && decide (s.peek leaf 8 ≠ e.raw)
  | none => false

/-- The rights of 21 R375, after the entry itself has passed. -/
def LookEntry.allows (e : LookEntry) (kind : AccessKind) (pa : Nat) : Bool :=
  match kind with
  | .fetch => e.x && decide (e.loc ≠ 2)
  | .read => e.r
  | .write => e.w && !(decide (e.loc ≠ 2) && isWeightStore pa)
  | .atomic => e.r && e.w && decide (e.loc ≠ 2) && !isWeightStore pa
  | .lock => e.w && decide (e.loc ≠ 2) && !isWeightStore pa

/-- The entry of a leaf (21 R373, R374). -/
def entryOfLeaf (tenant va : Nat) (l : Leaf) : LookEntry :=
  let size := if l.big then 2 ^ 21 else 4096
  let loc := bits l.raw 52 51
  { tenant := tenant, base := va / size * size, limit := va / size * size + size
    frame := if loc = 2 then bits l.raw 47 12 * 4096 else bits l.raw 39 12 * 4096
    loc := loc, x := bitAt l.raw 7, w := bitAt l.raw 6, r := bitAt l.raw 5
    attr := { format := bits l.raw 61 58, blockg := bits l.raw 57 56, planesn := bits l.raw 55 53 }
    leaf := some l.addr, raw := l.raw }

/-- The entry or range that applies (21 R370), loaded into its lookaside; or the cause. -/
def State.lookup (s : State) (home asker tenant : Nat) (kind : AccessKind) (va : Nat) : State × Except Cause LookEntry :=
  if !s.tenantOk home tenant then (s, .error .translation)
  else
    let log := s.logging home tenant
    let d := s.die home
    match if log then none else d.ranges.find? (·.covers tenant va) with
    | some e => (s.setDie home { d with ranges := lookInsert 32 e d.ranges }, .ok e)
    | none =>
      match d.pages.find? (·.covers tenant va) with
      | some e => (s.setDie home { d with pages := lookInsert 4096 e d.pages }, .ok e)
      | none =>
        match if log then none else s.findRange home tenant va with
        | some e => (s.setDie home { d with ranges := lookInsert 32 e d.ranges }, .ok e)
        | none =>
          match s.walk va (bits (s.tenantWord home tenant 0) 39 12 * 4096) 4 with
          | none => (s, .error .translation)
          | some l =>
            if !leafOk home l then (s, .error .translation)
            else if !bitAt l.raw 0 then
              if bitAt l.raw 8 then (s.requestPage home asker tenant kind va, .error .translation) else (s, .error .translation)
            else
              let e := entryOfLeaf tenant va l
              (s.setDie home { d with pages := lookInsert 4096 e d.pages }, .ok e)

/-- The decision of 21 R375 by an entry or a range that applies: a cause, or none. A range may map to what is no memory (21 R371, R374), and bear a
format that 03 R68 does not allow. -/
def LookEntry.cause (e : LookEntry) (kind : AccessKind) (va : Nat) : Option Cause :=
  let pa := e.frame + (va - e.base)
  if !e.attr.ok || (e.loc ≠ 2 && !isDram pa && !isWeightStore pa) then some .translation
  else if !e.allows kind pa then some .protection
  else none

/-- The page entries of a tenant that cover an address leave the lookaside. -/
def State.dropPages (s : State) (home tenant va : Nat) : State :=
  s.modDie home (fun d => { d with pages := d.pages.filter (fun e => !e.covers tenant va) })

/-- Where an access of a cell is performed while its page migrates (21 R385): a line that has been handed over stands in the new frame. -/
def State.handedOver (s : State) (pa : Nat) : Nat :=
  match s.dies.findSome? (fun d => d.2.migrating.bind (fun m => if m.old ≤ pa && pa < m.old + 64 * m.line then some (m.frame + (pa - m.old)) else none)) with
  | some cell => cell
  | none => pa

/-- An access under an entry: the cause, or A and D, and the cell. -/
def State.enter (s : State) (home tenant : Nat) (kind : AccessKind) (va : Nat) (e : LookEntry) : State × Except Cause (Nat × LookEntry) :=
  match e.cause kind va with
  | some c => (s, .error c)
  | none =>
    let s := match e.leaf with
      | some leaf => s.setAD home tenant va kind.writes leaf e
      | none => s
    let pa := e.frame + (va - e.base)
    (s, .ok (if e.loc = 2 then hostBase + pa else s.handedOver pa, e))

/-- The entry or range that decides (21 R370, R376): where an allowed access finds that its leaf moved, the interface walks again and decides afresh. -/
def State.ruling (s : State) (home asker tenant : Nat) (kind : AccessKind) (va : Nat) : State × Except Cause LookEntry :=
  match s.lookup home asker tenant kind va with
  | (s, .error c) => (s, .error c)
  | (s, .ok e) =>
    if e.cause kind va = none && s.leafMoved kind.writes e then (s.dropPages home tenant va).lookup home asker tenant kind va else (s, .ok e)

/-- Translation at the home interface (21 R370, R375, R376), for an access from the die `asker`: the cell and the entry, or the cause. -/
def State.translateFrom (s : State) (asker tenant : Nat) (kind : AccessKind) (va : Nat) : State × Except Cause (Nat × LookEntry) :=
  if va < 0x2000000 || 2 ^ 47 ≤ va then (s, .error .translation)
  else
    match s.ruling (homeDie va) asker tenant kind va with
    | (s, .error c) => (s, .error c)
    | (s, .ok e) => s.enter (homeDie va) tenant kind va e

/-- Translation for an access that no core makes (a controller, a pier, the host agent): its home interface itself asks. -/
def State.translate (s : State) (tenant : Nat) (kind : AccessKind) (va : Nat) : State × Except Cause (Nat × LookEntry) :=
  s.translateFrom (homeDie va) tenant kind va

/-- The refresh stall of a read of a weight store that comes to it in a core cycle: what is left of its quarter's window (22 R405). -/
def refreshStall (pa cycle : Nat) : Nat :=
  if isWeightStore pa && decide (cycle % 2048 < 64) && decide (pa / 0x4000000 % 4 = cycle / 2048 % 4) then 64 - cycle % 2048 else 0

/-- The die that an access goes to: the lower die of the stack that holds the cell, the die of the weight store, or the home (14 R285). -/
def servingDie (va key : Nat) : Nat :=
  if 2 ^ 40 ≤ key then homeDie va else if isWeightStore key then 2 * (key / 2 ^ 36) + key / 2 ^ 28 % 2 else 2 * (key / 2 ^ 36)

/-- The latency of a translated access: the path, the memory behind it, and contention (14 R285, 22 R404). A page that its home
forwards to an owner adds the path from the home to the owner, of another stack (21 R383). An access crosses to another die where its home,
which translates it (21 R370), or the die behind which its memory lies is another one. -/
def State.translatedLat (s : State) (core va key : Nat) (forwarded : Bool) : Nat :=
  8 + (if dieOf core = homeDie va && (forwarded || decide (dieOf core = servingDie va key)) then 0 else 80) + (if forwarded then 88 else 0)
    + (if key < 2 ^ 40 then (if isWeightStore key then 24 + refreshStall key s.cycle else 72) else 0) + Config.contention s.free

/-! ### Access counters (21 R384) -/

/-- Adds 1 to the count of a stack, which saturates. -/
def bump (stack : Nat) (l : List Nat) : List Nat := l.zipIdx.map (fun p => if p.2 = stack then min 65535 (p.1 + 1) else p.1)

/-- The entry of least total, the last among equals. -/
def leastCounted (l : List (Nat × Nat × List Nat)) : Option (Nat × Nat × List Nat) :=
  l.foldl (fun best e => match best with | some b => if e.2.2.sum ≤ b.2.2.sum then some e else best | none => some e) none

/-- A page's counts after an access from a stack. -/
def countPage (tenant page stack : Nat) (l : List (Nat × Nat × List Nat)) : List (Nat × Nat × List Nat) :=
  if l.any (fun e => decide (e.1 = tenant) && decide (e.2.1 = page)) then
    l.map (fun e => if e.1 = tenant && e.2.1 = page then (e.1, e.2.1, bump stack e.2.2) else e)
  else
    let l := if l.length < 1024 then l else (match leastCounted l with | some e => l.erase e | none => l)
    (tenant, page, bump stack (List.replicate 16 0)) :: l

/-- The frame of a stack that the die controller takes (21 R385 step 1): which of the free ones is free. -/
def State.freeFrame (s : State) (stack : Nat) : Nat := stack * 2 ^ 36 + (Config.freeWord s.free).toNat % 9437184 * 4096

/-- No cell of a frame is listed. -/
def State.frameEmpty (s : State) (frame : Nat) : Bool := !s.mem.any (fun c => decide (frame ≤ c.1) && decide (c.1 < frame + 4096))

/-- Counts an access of a core's stack to a page, and begins the migration of a page of 4 KiB of DRAM that has become a candidate. -/
def State.countAccess (s : State) (home tenant stack : Nat) (e : LookEntry) : State :=
  if e.leaf.isNone || e.loc = 2 then s
  else
    let s := s.modDie home (fun d => { d with counters := countPage tenant (e.base / 4096) stack d.counters })
    let thr := bits (s.tenantWord home tenant 6) 15 0
    let d := s.die home
    let n := match d.counters.find? (fun x => decide (x.1 = tenant) && decide (x.2.1 = e.base / 4096)) with | some x => x.2.2 | none => []
    let frame := s.freeFrame stack
    if thr ≠ 0 && decide (thr ≤ n.getD stack 0) && decide (2 * n.getD (e.frame / 2 ^ 36) 0 ≤ n.getD stack 0) && decide (stack ≠ e.frame / 2 ^ 36)
        && d.migrating.isNone && s.frameEmpty frame && decide (e.limit - e.base = 4096) && isDram e.frame then
      (s.setDie home { d with migrating := some { tenant := tenant, va := e.base, old := e.frame, owner := 2 * stack + home % 2, frame := frame
                                                  line := 0, next := s.cycle + 1 } }).drew
    else s

/-! ### Resolving an access of a context (06 R115 rows 2 and 3) -/

/-- The spill carve-out (14 R292). -/
def Core.inCarveOut (k : Core) (off n : Nat) : Bool := decide (k.spillBase < off + n) && decide (off < 0x18000)

/-- An access of n aligned bytes by a core, at a virtual address: rows 2 and 3 of 06 R115. The control block is not
reached here (14 R286). -/
def State.resolve (s : State) (core : Nat) (kind : AccessKind) (va : Word) (n : Nat) : State × Except Cause Access :=
  let a := va.toNat
  if 2 ^ 48 ≤ a then (s, .error .translation)
  else if a < 0x2000000 then
    match window core a with
    | .gap | .control _ => (s, .error .protection)
    | .spad c off lat =>
      if !s.inBerth core c || (s.core c).inCarveOut off n then (s, .error .protection)
      else match protCheck (s.core c) kind.reads kind.writes off n with
        | .error e => (s, .error e)
        | .ok attr => (s, .ok { key := spadCell c off, attr := attr, lat := lat, spad := some (c, off), beyond := false })
  else
    match s.translateFrom (dieOf core) (s.tenantOf core) kind a with
    | (s, .error e) => (s, .error e)
    | (s, .ok (key, e)) =>
      let s := s.countAccess (homeDie a) (s.tenantOf core) (dieOf core / 2) e
      (s, .ok { key := key, attr := e.attr, lat := s.translatedLat core a key (e.loc == 1), spad := none, beyond := true
                owner := if e.loc = 1 then some (bits e.raw 44 40) else none })

/-- The tags of a tile (14 R287). -/
def Core.tag (k : Core) (t : Nat) : TileTag := (kget t k.tags).getD TileTag.reset
def Core.setTag (k : Core) (t : Nat) (g : TileTag) : Core := { k with tags := kset t g k.tags }

/-- Rows 4 and 5 of 06 R115, for a load of n bytes. -/
def State.loadPoison (s : State) (a : Access) (n : Nat) : Option Cause :=
  if (match a.spad with | some (c, off) => ((s.core c).tag (off / 512)).poison | none => false) then some .manifest
  else if s.poisoned a.key n then some .poison
  else none

/-- The width of an element under zero-map form (03 R71); 0 for another format. -/
def zeroMapWidth (format : Nat) : Nat := if format = 9 then 2 else if format = 0xA then 4 else 0

/-- The 512-byte blocks that n bytes at a cell touch. -/
def blocksTouched (key n : Nat) : List Nat := (List.range ((key + n - 1) / 512 - key / 512 + 1)).map (key / 512 + ·)

/-- A block is held in zero-map form: its negative zeros are replaced (03 R71, R72). -/
def State.encodeBlock (s : State) (format b : Nat) : State :=
  let w := zeroMapWidth format
  (List.range (512 / w)).foldl (fun s i =>
    let a := 512 * b + i * w
    if s.peek a w = 2 ^ (8 * w - 1) then { s with mem := Memory.writeBytes s.mem a (List.replicate w 0) } else s)
    { s with zeroBlocks := kset b format s.zeroBlocks }

/-- The blocks that a write of n bytes at a cell of a page of a format touches (03 R71, R72): encoded, or held as they are under another format.
A scratchpad holds no zero-map form, whatever its region declares. -/
def State.zeroMap (s : State) (attr : Attr) (key n : Nat) : State :=
  if 2 ^ 50 ≤ key then s
  else if zeroMapWidth attr.format = 0 then
    { s with zeroBlocks := s.zeroBlocks.filter (fun e => !(decide (key / 512 ≤ e.1) && decide (e.1 ≤ (key + n - 1) / 512))) }
  else (blocksTouched key n).foldl (fun s b => s.encodeBlock attr.format b) s

/-- A write of bytes at a cell of a page with these attributes, by any path (03 R72). -/
def State.writePage (s : State) (attr : Attr) (key : Nat) (bytes : List Byte) : State :=
  (s.writeMem key bytes).zeroMap attr key bytes.length

/-- Performs a store of bytes at an access (06 R120, 03 R72). -/
def State.storeAt (s : State) (a : Access) (bytes : List Byte) : State := s.writePage a.attr a.key bytes

/-- The mapping under zero-map form (03 R71) that a lookaside holds for a cell. -/
def State.zeroMapEntry (s : State) (key : Nat) : Option LookEntry :=
  s.dies.findSome? (fun d => (d.2.pages ++ d.2.ranges).find? (fun e =>
    (decide (e.attr.format = 9) || decide (e.attr.format = 10)) && decide (e.loc ≠ 2) && decide (e.frame ≤ key) && decide (key < e.frame + (e.limit - e.base))))

/-- The format under which a write by physical address meets a block (03 R72): that of its last write through a page, else of a page that a
lookaside holds. -/
def State.blockFormat (s : State) (b : Nat) : Nat :=
  match kget b s.zeroBlocks, s.zeroMapEntry (512 * b) with
  | some f, _ => f
  | none, some e => e.attr.format
  | none, none => 0

/-- A write of bytes by physical address: each block that it touches keeps its form (03 R72). -/
def State.writePhys (s : State) (key : Nat) (bytes : List Byte) : State :=
  (blocksTouched key bytes.length).foldl (fun s b => if zeroMapWidth (s.blockFormat b) = 0 then s else s.encodeBlock (s.blockFormat b) b) (s.writeMem key bytes)

/-- The core cycles from the issue of an access to the second read of a watch that its write satisfies: the write is performed
at the end of the access's latency after the issue (17 R339). -/
def Access.watchDelay (a : Access) : Nat := (if a.beyond then a.lat / 2 else a.lat) + 2

/-- The stores whose acknowledgements are due, with one more beyond the group (23 R409). -/
def State.postedWith (s : State) (a : Access) (n : Nat) : List Posted :=
  if a.beyond then
    { who := s.issuer s.who, key := a.key, old := Memory.readBytes s.mem a.key n, due := s.cycle + a.lat } :: s.posted.filter (fun p => decide (s.cycle ≤ p.due))
  else s.posted

/-- Performs a store at its issue. -/
def State.storeIssued (s : State) (a : Access) (bytes : List Byte) : State :=
  { (s.writeMemAfter a.watchDelay a.key bytes).zeroMap a.attr a.key bytes.length with posted := s.postedWith a bytes.length }

/-! ### Fetch (01 R14 to R16, 21 R375, R381) -/

/-- The translation and protection checks of a fetch: the cell and the entry, or the cause. -/
def State.fetchEntry (s : State) (core : Nat) (va : Word) : State × Except Cause (Nat × LookEntry) :=
  let a := va.toNat
  if 2 ^ 48 ≤ a then (s, .error .translation)
  else if a < 0x2000000 then (s, .error .protection)
  else s.translateFrom (dieOf core) (s.tenantOf core) .fetch a

def State.resolveFetch (s : State) (core : Nat) (va : Word) : State × Except Cause Nat :=
  match s.fetchEntry core va with
  | (s, .error e) => (s, .error e)
  | (s, .ok (key, _)) => (s, .ok key)

/-- The kernel of a core has begun to issue by a core cycle. -/
def State.issuedBy (s : State) (core cycle : Nat) : Bool :=
  match s.launchOf core with | some l => l.wentAt.any (fun n => decide (n ≤ cycle)) | none => true

/-- A word of a line as a core fetches it (01 R16): the one in memory, the one that the core fetched before, or one that a write of the
running kernel replaced; a free choice, where they differ. -/
def State.codeWord (s : State) (core line key i : Nat) : State × BitVec 32 :=
  let now := BitVec.ofNat 32 (s.peek (key / 128 * 128 + 4 * i) 4)
  let held := match kget line (s.core core).lines with | some (_, ws) => [ws.getD i 0] | none => []
  let gone := s.overwritten.filterMap (fun e => if e.1 = key / 128 * 128 + 4 * i && s.issuedBy core e.2.2 then some e.2.1 else none)
  match (held ++ gone).filter (fun w => decide (w ≠ now)) with
  | [] => (s, now)
  | old => (s.drew, (now :: old).getD ((Config.freeWord s.free).toNat % (old.length + 1)) now)

/-- The checks of a control target (01 R14, 04 R92), in order; `all` adds rows 1, 3 and 4, which a sequential step into a new line and a trap
return skip. DESIGN CHOICE (notes/assumptions/118): a poisoned header traps POISON, with the target as TRAPVAL, ahead of row 2. -/
def State.checkTarget (s : State) (core : Nat) (target : Word) (all : Bool) : State × Option Trap :=
  if all && decide (target.toNat % 4 ≠ 0) then (s, some { cause := .misaligned, val := target })
  else match s.resolveFetch core target with
    | (s, .error c) => (s, some { cause := c, val := target })
    | (s, .ok key) =>
      let (s, header) := s.codeWord core (target.toNat / 128 * 128) key 0
      let slot := target.toNat % 128 / 4
      if s.poisoned (key / 128 * 128) 4 then (s, some { cause := .poison, val := target })
      else if !header.getLsbD 0 then (s, some { cause := .illegal, val := target })
      else if all && decide (slot = 0) then (s, some { cause := .headerSlot, val := target })
      else if all && !header.getLsbD slot then (s, some { cause := .unmarkedTarget, val := target })
      else (s, none)

end Sys2Proof.Machine
end

