-- ==== Sys2Proof/Machine/Barriers.lean ====
section
/-! DEFINITION. The barrier operations that arrivals, withdrawals, exits and kills share (06 R143 to R148; 13 R280 to R282):
recording an arrival, sending it, and finding a phase complete. -/

namespace Sys2Proof.Machine

def natAt {n : Nat} (v : Vector Nat n) (i : Fin n) : Nat := v.get i
def natSet {n : Nat} (v : Vector Nat n) (i : Fin n) (x : Nat) : Vector Nat n := v.set i.val x i.isLt
def bitSet (b : BitVec 8) (i : Fin 8) (x : Bool) : BitVec 8 := if x then b ||| (1#8 <<< i.val) else b &&& ~~~(1#8 <<< i.val)
def bitGet (b : BitVec 8) (i : Fin 8) : Bool := b.getLsbD i.val

/-- The fields of BARRECT (06 R147). -/
structure Rect where
  col : Nat
  row : Nat
  w : Nat
  h : Nat
  deriving DecidableEq, Repr

def rectOf (r : BitVec 28) : Rect :=
  { h := bits r.toNat 27 21, w := bits r.toNat 20 13, col := bits r.toNat 12 6, row := bits r.toNat 5 0 }

/-- The rule of 06 R147: within the die, and containing the core. -/
def rectOk (r : Rect) (core : Nat) : Bool :=
  decide (1 ≤ r.w) && decide (1 ≤ r.h) && decide (r.col + r.w ≤ 128) && decide (r.row + r.h ≤ 64)
    && decide (r.col ≤ colOf core) && decide (colOf core < r.col + r.w)
    && decide (r.row ≤ rowOf core) && decide (rowOf core < r.row + r.h)

/-- The cores of a rectangle on a die. -/
def Rect.cores (r : Rect) (die : Nat) : List Nat :=
  (List.range r.h).flatMap (fun j => (List.range r.w).map (fun i => coreAt die (r.col + i) (r.row + j)))

/-- The core has arrived at a tag: it has sent, or its count is 0 (06 R143). -/
def Barriers.tagIn (b : Barriers) (t : Fin 8) : Bool := bitGet b.tagSent t || decide (natAt b.tagReg t = 0)

namespace State

def modBar (s : State) (core : Nat) (f : Barriers → Barriers) : State := s.modCore core (fun k => { k with bar := f k.bar })

/-- The core at the first column of its rectangle has arrived: it sends its row token 2 core cycles later (13 R280). -/
def startSweep (s : State) (core : Nat) : State :=
  let b := (s.core core).bar
  let r := rectOf b.rect
  if rectOk r core && decide (colOf core = r.col) then
    s.modDie (dieOf core) (fun d => { d with
      sweeps := d.sweeps ++ [{ core := core, up := false, rect := b.rect, last := b.sentAt, heldAt := b.sentAt + 1 }] })
  else s

/-- A core sends its arrival at the mesh barrier (06 R143). -/
def sendMesh (s : State) (core : Nat) : State :=
  (s.modBar core (fun b => { b with sent := true, sentAt := s.cycle })).startSweep core

/-- A token reaches the next core of its launch: one with another BARRECT drops it and sets MIS (06 R144). Outside the berth no core takes
it (13 R280). -/
def sweepTo (s : State) (t : Sweep) (next : Nat) : State :=
  if (s.core next).lid ≠ (s.core t.core).lid then s
  else if (s.core next).bar.rect ≠ t.rect then s.modBar next (fun b => { b with mis := true })
  else s.modDie (dieOf next) (fun d => { d with sweeps := d.sweeps ++ [{ t with core := next, heldAt := s.cycle }] })

def dropSweep (s : State) (t : Sweep) : State := s.modDie (dieOf t.core) (fun d => { d with sweeps := d.sweeps.erase t })

/-- A row end passes the column token upward; the corner fixes the release cycle (13 R280). -/
def sweepUp (s : State) (t : Sweep) : State :=
  let r := rectOf t.rect
  let die := dieOf t.core
  if rowOf t.core + 1 < r.row + r.h then s.sweepTo { t with up := true } (coreAt die (colOf t.core) (rowOf t.core + 1))
  else s.post (t.last + 2 * (r.w + r.h) + 4) (.meshPhaseRelease die r.col r.row r.w r.h)

/-- A core passes a row token on in the core cycle after it holds both its own arrival and the token; a row end, once it holds the
column token from below as well (13 R280). -/
def moveSweep (s : State) (t : Sweep) : State :=
  let b := (s.core t.core).bar
  let r := rectOf t.rect
  if t.up || !b.sent || decide (s.cycle ≤ max t.heldAt b.sentAt) then s
  else if b.rect ≠ t.rect then (s.dropSweep t).modBar t.core (fun b => { b with mis := true })
  else
    let t' := { t with last := max t.last b.sentAt }
    if colOf t.core + 1 < r.col + r.w then (s.dropSweep t).sweepTo t' (t.core + 1)
    else if rowOf t.core = r.row then (s.dropSweep t).sweepUp t'
    else match (s.die (dieOf t.core)).sweeps.find? (fun u => u.up && decide (u.core = t.core) && decide (u.rect = t.rect) && decide (u.heldAt < s.cycle)) with
      | some u => ((s.dropSweep t).dropSweep u).sweepUp { t' with last := max t'.last u.last }
      | none => s

/-- The tokens of a die in a core cycle. -/
def moveSweeps (s : State) (die : Nat) : State := (s.die die).sweeps.foldl (fun s t => s.moveSweep t) s

/-- Every access that the core's contexts issued before they arrived is performed (15 R313). -/
def arrivalsClear (s : State) (core : Nat) : Bool :=
  let k := s.core core
  k.ctxs.toList.all (fun c => decide (c.arriveDebt = 0)) && k.swapped.all (fun x => decide (x.ctx.arriveDebt = 0))
    && k.orphans.all (fun o => decide (o.debt = 0))

/-- A core sends its arrival when its arrivals equal its registered count (06 R143), once the arriving contexts' earlier
accesses are performed (15 R313). -/
def meshSend (s : State) (core : Nat) : State :=
  let b := (s.core core).bar
  if s.arrivalsClear core && !b.sent && decide (b.arr = b.reg) && decide (0 < b.reg) then s.sendMesh core else s

/-- The member cores of a tag on a die (06 R145). -/
def tagMembers (s : State) (die : Nat) (t : Fin 8) : List Nat :=
  (s.cores.filter (fun c => decide (dieOf c.1 = die) && bitGet c.2.bar.member t)).map (·.1)

/-- The release of a tag is on its way. -/
def tagReleasing (s : State) (die : Nat) (t : Fin 8) : Bool :=
  s.agenda.any (fun e => match e.2 with | .wiredTagRelease d u => decide (d = die) && decide (u = t) | _ => false)

/-- When every member has arrived, the tag is released 24 core cycles later (06 R145). -/
def tagComplete (s : State) (die : Nat) (t : Fin 8) : State :=
  let l := s.tagMembers die t
  if !l.isEmpty && l.all (fun c => (s.core c).bar.tagIn t) && !s.tagReleasing die t then s.post (s.cycle + 24) (.wiredTagRelease die t) else s

def tagSend (s : State) (core : Nat) (t : Fin 8) : State :=
  let b := (s.core core).bar
  if s.arrivalsClear core && !bitGet b.tagSent t && decide (natAt b.tagArr t = natAt b.tagReg t) && decide (0 < natAt b.tagReg t) then
    (s.modBar core (fun b => { b with tagSent := bitSet b.tagSent t true })).tagComplete (dieOf core) t
  else s

/-- A context arrives: the accesses that it has issued by now are owed before its arrival is sent (15 R313). -/
def arriving (s : State) (w : CtxId) : State := s.modCtx w (fun c => { c with arriveDebt := c.unacked, epoch := c.epoch + 1 })

/-- An arrival of a context at the mesh barrier (06 R143). -/
def arriveMesh (s : State) (w : CtxId) : State :=
  (((s.arriving w).modCtx w (fun c => { c with arrivedMesh := true })).modBar w.core (fun b => { b with arr := b.arr + 1 })).meshSend w.core

def arriveTag (s : State) (w : CtxId) (t : Fin 8) : State :=
  (((s.arriving w).modCtx w (fun c => { c with arrivedTags := bitSet c.arrivedTags t true })).modBar w.core
    (fun b => { b with tagArr := natSet b.tagArr t (natAt b.tagArr t + 1) })).tagSend w.core t

/-- One barrier's part of a withdrawal: the arrival where none stands, and the fall from the next phase (06 R146). -/
def withdrawMesh (s : State) (core : Nat) (arrived : Bool) : State :=
  let s := s.modBar core (fun b => { b with falls := b.falls + 1, wd := true, arr := if arrived then b.arr else b.arr + 1 })
  if arrived then s else s.meshSend core

def withdrawTag (s : State) (core : Nat) (arrived : Bool) (t : Fin 8) : State :=
  if bitGet (s.core core).bar.member t then
    let s := s.modBar core (fun b => { b with
      tagFalls := natSet b.tagFalls t (natAt b.tagFalls t + 1)
      tagArr := if arrived then b.tagArr else natSet b.tagArr t (natAt b.tagArr t + 1) })
    if arrived then s else s.tagSend core t
  else s

/-- The withdrawal of a registered context from every barrier (06 R146). -/
def withdraw (s : State) (core : Nat) (arrivedMesh : Bool) (arrivedTags : BitVec 8) : State :=
  (List.finRange 8).foldl (fun s t => s.withdrawTag core (bitGet arrivedTags t) t) (s.withdrawMesh core arrivedMesh)

/-- The withdrawal of a context, which arrives at once where it has not (06 R143, R146). -/
def withdrawCtx (s : State) (w : CtxId) : State :=
  let c := s.ctx w
  if c.registered then
    ((s.arriving w).withdraw w.core c.arrivedMesh c.arrivedTags).modCtx w
      (fun c => { c with registered := false, arrivedMesh := false, arrivedTags := 0 })
  else s

/-- The sends of arrivals that waited for an acknowledgement. -/
def sendArrivals (s : State) (core : Nat) : State :=
  (List.finRange 8).foldl (fun s t => s.tagSend core t) (s.meshSend core)

end State

end Sys2Proof.Machine
end

