-- ==== Sys2Proof/Machine/Roles.lean ====
section
/-! DEFINITION. What the end of a helper does to the unit that started it (07 R164; 09 R218, R219; 13 R275; 16 R336, R337;
08 R194, R196), the fault log of the die controllers (23 R416, R417), and the order of a die's ordered tasks (08 R190, R194). -/

namespace Sys2Proof.Machine

/-! ### The fault log (23 R416, R417) -/

/-- The 64 bytes of a fault record (23 R416). -/
def FaultRecord.encode (r : FaultRecord) : List Byte :=
  let b (x : Bool) (n : Nat) : Nat := if x then 2 ^ n else 0
  leBytes 8 ((if r.tunk then 0 else r.tenant % 2 ^ 16 * 2 ^ 32) + b r.replay 17 + b r.tunk 16 + r.cause % 256 * 256 + r.type % 256)
    ++ leBytes 8 (r.lid % 2 ^ 21) ++ leBytes 8 r.cycle ++ leBytes 8 (b r.phys 63 + r.addr % 2 ^ 48)
    ++ leBytes 8 r.ident.toNat ++ leBytes 8 r.seg.toNat ++ leBytes 8 ((Config.unitCode r.unit).toNat * 2 ^ 20 + r.core % 2 ^ 18)
    ++ leBytes 8 (r.count % 2 ^ 32)

def FaultRecord.blank : FaultRecord :=
  { tenant := 0, tunk := false, cause := 0, type := 0, lid := 0, cycle := 0, phys := false, addr := 0, ident := 0, seg := 0, unit := 0
    core := 0, count := 1, replay := false }

/-- The trap-cause numbers (10 R238). -/
def causeCode : Cause → Nat
  | .illegal => 1 | .reservedField => 2 | .zeroWord => 3 | .unmarkedTarget => 4 | .headerSlot => 5 | .misaligned => 6
  | .protection => 7 | .translation => 8 | .privilege => 9 | .windowHazard => 10 | .queueUnbound => 11 | .poison => 12
  | .storm => 13 | .manifest => 14 | .brk => 15 | .preempt => 16 | .machineCheck => 17

namespace State

/-- Appends a record to the host ring when it has room (23 R417). -/
def ringFault (s : State) (die : Nat) (r : FaultRecord) : State :=
  let d := s.die die
  if d.fqTail - d.fqHead = d.fqSize then
    s.setDie die { d with fqLost := if d.fqLost.toNat < 2 ^ 32 - 1 then d.fqLost + 1 else d.fqLost }
  else
    (s.setDie die { d with fqTail := d.fqTail + 1 }).writeMem
      (hostBase + d.fqBase.toNat + 64 * (d.fqTail.toNat % d.fqSize.toNat)) r.encode

/-- Records of type 1 that are identical but for CYCLE and COUNT, of one reset and within 2^20 core cycles, are one occurrence more (23 R416). -/
def FaultRecord.same (a b : FaultRecord) : Bool :=
  decide (a.type = 1) && decide ({ a with cycle := b.cycle, count := b.count } = b) && decide (a.cycle ≤ b.cycle) && decide (b.cycle - a.cycle < 2 ^ 20)

/-- A fault record of a die: kept among the last 256, and sent to the host ring (23 R416, R417). -/
def logFault (s : State) (die : Nat) (r : FaultRecord) : State :=
  let r := { r with cycle := s.cycle }
  let d := s.die die
  match d.log.find? (FaultRecord.same · r) with
  | some old =>
    s.setDie die { d with log := d.log.map (fun f => if f = old then { f with count := f.count + 1 } else f) }
  | none =>
    let log := d.log ++ [r]
    (s.setDie die { d with log := log.drop (log.length - 256) }).ringFault die r

/-- A program fault, charged to the core's launch (23 R416 type 7). -/
def logProgramFault (s : State) (core : Nat) (cause : Cause) (va : Nat) : State :=
  s.logFault (dieOf core) { FaultRecord.blank with
    tenant := s.tenantOf core, cause := causeCode cause, type := 7, lid := (s.core core).lid, addr := va, unit := 3, core := core }

end State

/-! ### Ordered tasks (08 R190, R194) -/

/-- (TS, KEY) order. -/
def tsLess (a b : Nat × Nat) : Bool := decide (a.1 < b.1) || (decide (a.1 = b.1) && decide (a.2 < b.2))

def OTask.order (t : OTask) : Nat × Nat := (t.ts, t.key)
/-- Not committed and not discarded. -/
def OTask.open_ (t : OTask) : Bool := decide (t.state < 3)

/-- The commit point of a launch: its open task with the least (TS, KEY) (08 R194). -/
def Die.commitPoint (d : Die) (lid : Nat) : Option (Nat × OTask) :=
  (d.tasks.filter (fun t => decide (t.1 / 512 = lid) && t.2.open_)).foldl (fun best t =>
    match best with
    | none => some t
    | some b => if tsLess t.2.order b.2.order then some t else best) none

/-- The commit point of a launch on a die before any commit. -/
def Commits.reset : Commits := { last := none, busy := none, from_ := 0, holds := [] }

def Die.commitsOf (d : Die) (lid : Nat) : Commits := (kget lid d.commits).getD Commits.reset
def Die.modCommits (d : Die) (lid : Nat) (f : Commits → Commits) : Die := { d with commits := kset lid (f (d.commitsOf lid)) d.commits }

/-- A task is its launch's commit point on a die (08 R194), from the cycle after the last commit (13 R277). -/
def State.isCommitPoint (s : State) (die slot : Nat) : Bool :=
  let d := s.die die
  decide ((d.commitsOf (slot / 512)).from_ ≤ s.cycle) && (match d.commitPoint (slot / 512) with | some (n, _) => decide (n = slot) | none => false)

def Die.modTask (d : Die) (slot : Nat) (f : OTask → OTask) : Die :=
  match kget slot d.tasks with
  | some t => { d with tasks := kset slot (f t) d.tasks }
  | none => d

/-! ### Stage sets (16 R336, R337) -/

/-- Records of a set that wait for a stage: QDEPTH (09 R220). -/
def Cluster.qdepth (k : Cluster) (set stage : Nat) : Nat :=
  (k.records.filter (fun r => decide (r.2.header.toNat / 2 ^ 62 = set) &&
    (match r.2.queued with | some (st, _) => decide (st = stage) | none => false))).length

/-- Those in a core cycle: what an act of the core cycle routes comes to its queue in the next one (18 R344). -/
def Cluster.qdepthAt (k : Cluster) (set stage cycle : Nat) : Nat :=
  { k with records := k.records.filter (fun r => match r.2.queued with | some (_, age) => decide (age ≤ cycle + 1) | none => false) }.qdepth set stage

/-- The weight computed at the end of a window (16 R336). -/
def newWeight (passed rejects depth : Nat) : Nat :=
  let d := passed + rejects
  let base := if 0 < d then 256 + 1024 * rejects / d else 256
  max 1 (base / (1 + depth))

/-- The end of a statistics window (16 R336). -/
def Cluster.endWindow (k : Cluster) (set : Fin 4) : Cluster :=
  let st := k.sets.get set
  let stages := (st.stages.zipIdx).map (fun (g, i) =>
    { g with passed := g.passedNow, rejects := g.rejectsNow, passedNow := 0, rejectsNow := 0
             weight := if g.cls = 2 then 0 else newWeight g.passedNow g.rejectsNow (k.qdepth set.val i) })
  { k with sets := k.sets.set set.val { st with stages := stages, windowLeft := 0 } set.isLt }

/-- A record leaves the router (09 R218), counting towards its set's window. -/
def Cluster.recordLeaves (k : Cluster) (n : Nat) : Cluster :=
  match kget n k.records with
  | none => k
  | some r =>
    let set : Fin 4 := Fin.ofNat 4 (r.header.toNat / 2 ^ 62)
    let st := k.sets.get set
    let st := { st with left := st.left + 1, windowLeft := st.windowLeft + 1 }
    let k := { k with records := kdel n k.records, sets := k.sets.set set.val st set.isLt }
    if st.windowLeft = 2 ^ st.wexp then k.endWindow set else k

/-- A record goes to its exit's queue, a pending start from the cycle given (09 R218, 16 R337, 18 R344); the exit stands as stage 8. -/
def Cluster.toExit (k : Cluster) (n cycle : Nat) : Cluster :=
  match kget n k.records with
  | none => k
  | some r => { k with records := kset n { r with draw := none, queued := some (8, cycle), delivering := false } k.records }

/-! ### The end of a helper -/

def Core.setRing (k : Core) (i : Fin 8) (r : Ring) : Core := { k with rings := k.rings.set i.val r i.isLt }

def Cluster.modJob (k : Cluster) (slot : Nat) (f : JobSlot → JobSlot) : Cluster :=
  let i : Fin 32 := Fin.ofNat 32 slot
  { k with jobs := k.jobs.set i.val (f (k.jobs.get i)) i.isLt }

/-- The identifier of a slot's job (07 R153). -/
def JobSlot.ident (j : JobSlot) (slot : Nat) : BitVec 16 := BitVec.ofNat 16 (j.gen * 32 + slot)

/-- The row leaves the drain path. -/
def Slice.freeRow (sl : Slice) (row : Nat) (job : BitVec 16) : Slice :=
  { sl with buffers := sl.buffers.filter (fun b => !(decide (b.row = row) && decide (b.job = job))) }

/-- A row of a job has been written or dropped (07 R164, R165): DRAINED counts it, and with the 64th the operation completes, at the
cycle given. -/
def State.drained (s : State) (core : Nat) (job : BitVec 16) (at_ : Nat) : State :=
  if (s.core core).slice.jobId = job then
    let s := s.modCore core (fun k => { k with slice := { k.slice with drained := k.slice.drained + 1 } })
    if (coresOfCluster (clusterOf core)).foldl (fun n c => n + (s.core c).slice.drained) 0 = 64 then
      s.post at_ (.matrixOperationComplete (clusterOf core))
    else s
  else s

/-- The core cycle that what is being done belongs to: before this cycle has begun, dated events end the last one. -/
def State.acting (s : State) : Nat := if s.begun then s.cycle else s.cycle - 1

/-- The part of a helper's end that its role asks for; `killed` by a trap or not. -/
def State.roleEnd (s : State) (w : CtxId) (killed : Bool) : State :=
  let home := (s.ctx w).origin
  match (s.ctx w).role with
  | .plain => s
  | .drainRow row job _ _ rowout =>
    if rowout then s
    else
      -- The row is dropped: its buffer frees, DROP is set (07 R164).
      let s := s.modCore home (fun k => { k with slice := k.slice.freeRow row job })
      (s.modCluster (clusterOf home) (fun k => k.modJob (job.toNat % 32) (fun j =>
        if j.ident (job.toNat % 32) = job then { j with drop := true } else j))).drained home job (s.cycle + 1)
  | .ring i =>
    -- The routine becomes ready again at once while its ring holds messages (13 R275).
    s.modCore home (fun k =>
      let r := k.rings.get i
      k.setRing i { r with running := false, readyAge := if 0 < r.used then some s.cycle else none })
  | .task slot =>
    s.modDie (dieOf home) (fun d => d.modTask slot (fun t =>
      if killed then
        { t with state := 2, finishedAt := s.acting, running := none, killed := true, buffer := [], exitDec := none, slopes := [], records := t.stepped }
      else { t with state := 2, finishedAt := s.acting, running := none }))
  | .stage record _ ended =>
    if ended then s
    else s.modCluster (clusterOf home) (fun k =>
      match kget record k.records with
      | none => k
      | some r => { k with records := kset record { r with header := r.header ||| (1#64 <<< 52) } k.records }.toExit record (s.acting + 2))
  | .exit record => s.modCluster (clusterOf home) (fun k => k.recordLeaves record)

/-- A matrix operation of the queue waits to start. -/
def Cluster.matrixWaits (k : Cluster) : Bool :=
  k.jobs.toList.any (fun j => j.taken && decide (j.state = 0) && (match j.job with | some (.matrix _) => true | _ => false))

/-- STATE of a slice that computes nothing (07 R168): 1 while its core's gang arrival stands or an operation waits to start, else 0. -/
def Cluster.restState (k : Cluster) (core : Nat) : Nat :=
  if bitGet k.gangArrivals (Fin.ofNat 8 (posOf core)) || k.matrixWaits then 1 else 0

/-- The slice of a core computes nothing now; a slice that was stopped stays so. -/
def State.restSlice (s : State) (core : Nat) : State :=
  s.modCore core (fun k => { k with slice := { k.slice with
    state := if k.slice.state = 3 then 3 else (s.cluster (clusterOf core)).restState core } })

/-- An arrival of `mx.gang` that has not been consumed is withdrawn (07 R160). -/
def State.withdrawGang (s : State) (core : Nat) : State :=
  let s := s.modCluster (clusterOf core) (fun k => { k with gangArrivals := bitSet k.gangArrivals (Fin.ofNat 8 (posOf core)) false })
  if (s.core core).slice.state = 1 && (s.core core).slice.startReq.isNone then s.restSlice core else s

/-- The context takes part in its core's gang. -/
def Core.inGang (k : Core) (w : CtxId) : Bool := k.gang.active && decide (k.gang.ctx = w.ctx)

/-- The context is the leader of its core's gang, or an attached follower of it (08 R199, R200). -/
def Core.leads (k : Core) (w : CtxId) : Bool := k.gang.active && decide (k.gang.ctx = w.ctx) && decide (k.gang.leader.val = posOf w.core)
def Core.follows (k : Core) (w : CtxId) : Bool :=
  k.gang.active && k.gang.attached && decide (k.gang.ctx = w.ctx) && decide (k.gang.leader.val ≠ posOf w.core)

/-- The forwarded words on their way to a core are dropped. -/
def dropForwarded (core : Nat) (l : List (Nat × Instr)) : List (Nat × Instr) :=
  l.filter (fun e => match e.2 with | .forwardedWordArrival c _ _ => decide (c ≠ core) | _ => true)

/-- A follower detaches: its buffered words are discarded (08 R201). -/
def State.detach (s : State) (core : Nat) : State :=
  { s.modCore core (fun k => { k with gang := { k.gang with attached := false, queue := [], inFlight := 0, behind := none } }) with
    agenda := dropForwarded core s.agenda }

/-- The other members of a leader's gang. -/
def State.gangMates (s : State) (core : Nat) : List Nat :=
  let g := (s.core core).gang
  (coresOfCluster (clusterOf core)).filter (fun c => decide (c ≠ core) && (s.core c).gang.active && decide ((s.core c).gang.leader = g.leader)
    && bitGet g.mask (Fin.ofNat 8 (posOf c)))

/-- A core leaves its gang, or a leader dissolves it: attached followers go on by their own fetch from the leader's next word,
once they have issued what was forwarded (08 R202). -/
def State.leaveGang (s : State) (w : CtxId) (next : Word) : State :=
  let k := s.core w.core
  let g := k.gang
  if g.active && decide (g.ctx = w.ctx) then
    let mates := (coresOfCluster (clusterOf w.core)).filter (fun c => decide (c ≠ w.core))
    if g.leader.val = posOf w.core then
      ((s.gangMates w.core).foldl (fun s c => s.modCore c (fun k =>
        { k with gang := if k.gang.attached && k.gang.behind.isNone then { k.gang with stop := some next } else Gang.reset })) s).modCore w.core
          (fun k => { k with gang := Gang.reset })
    else
      let bit := bitSet 0 (Fin.ofNat 8 (posOf w.core)) true
      (mates.foldl (fun s c => if (s.core c).gang.active && decide ((s.core c).gang.leader = g.leader) then
        s.modCore c (fun k => { k with gang := { k.gang with mask := k.gang.mask &&& ~~~bit } }) else s) s).modCore w.core
          (fun k => { k with gang := Gang.reset })
  else s

/-! ### The overflow area (14 R292, R299) -/

/-- The hardware reads or writes lines of the overflow area: whether they translate. A failure is a fault of the launch (14 R292). -/
def State.spillAccess (s : State) (core : Nat) (kind : AccessKind) (lines : List Nat) : State × Bool :=
  lines.foldl (fun acc l =>
    if !acc.2 then acc
    else
      let va := BitVec.ofNat 64 (bits (acc.1.core core).spillOvf.toNat 47 12 * 4096 + 64 * l)
      match acc.1.resolve core kind va 64 with
      | (s, .ok _) => (s, true)
      | (s, .error e) => (s.logProgramFault core e va.toNat, false)) (s, true)

/-- The line of the overflow area that holds an entry of a queue port's FIFO, by its number from the oldest (14 R292, R299). -/
def Port.farLine (q : Port) (n : Nat) : List Nat := if n < 8 + 8 * q.spill.near then [] else (q.spill.far.drop ((n - 8) / 8 - q.spill.near)).take 1

/-- What is left of a context that ends with accesses unacknowledged. -/
def Ctx.orphan (c : Ctx) : Option Orphan :=
  if c.unacked = 0 then none
  else some { serial := c.serial, unacked := c.unacked, epoch := c.epoch, debt := c.arriveDebt }

/-- An arrival of `mx.gang` of a context that ends is withdrawn, unless it has been consumed (07 R160). -/
def State.dropArrival (s : State) (w : CtxId) : State :=
  match (s.ctx w).park with | .mxGang _ false _ => s.withdrawGang w.core | _ => s

/-- The end of a context by exit or kill (08 R181, 10 R237): barrier withdrawal, whose arrivals the core sends once the context's accesses are
performed (06 R146, 15 R313), gang, role, and the slot, free from the next core cycle (13 R268). -/
def State.endCtx (s : State) (w : CtxId) (killed : Bool) : State :=
  let next := if killed then (s.ctx w).pc else seqNext (s.ctx w).pc
  let s := (((s.dropArrival w).leaveGang w next).roleEnd w killed).withdrawCtx w
  let c := s.ctx w
  s.modCore w.core (fun k => { k with
    ctxs := k.ctxs.set w.ctx.val { Ctx.reset with readyAt := s.acting + 1 } w.ctx.isLt
    orphans := k.orphans ++ c.orphan.toList })

end Sys2Proof.Machine
end

