-- ==== Sys2Proof/Machine/Ops.lean ====
section
/-! DEFINITION. The shared operations of issue: taking an exception and returning from one (10 R237, R238), variable-latency
results (01 R18 to R21), queue ports as operands (04 R86, 06 R116), hint groups (01 R25 to R27), the checks every word
passes (02 R41 rows 5 to 7, 01 R21, 08 R193), and the retirement of a word. -/

namespace Sys2Proof.Machine

/-! ### Queue ports (06 R137, 14 R297) -/

/-- Posts an event that may not overtake an earlier one of the same source and destination (14 R297). -/
def State.postOrdered (s : State) (due : Nat) (i : Instr) (same : Instr → Bool) : State :=
  s.post (s.agenda.foldl (fun d e => if same e.2 then max d e.1 else d) due) i

/-- The traffic of one core to another that arrives in the order in which it was sent (14 R297): entries with messages, and credits among
themselves. -/
def State.sameWay (s : State) (src dst : Nat) (credit : Bool) (i : Instr) : Bool :=
  match i with
  | .queueEntryArrival c p _ => !credit && decide (c = dst) && decide (((s.core c).ports.get p).peerCore = src)
  | .creditReturn c p => credit && decide (c = dst) && decide (((s.core c).ports.get p).peerCore = src)
  | .messageArrival m => !credit && decide (m.src = src) && decide (m.core = dst)
  | _ => false

/-- Posts the arrival of what one core sends to another. Within a group all of it takes one delay, which keeps the order (14 R297). -/
def State.postLink (s : State) (src dst due : Nat) (credit : Bool) (i : Instr) : State :=
  if groupOf src = groupOf dst then s.post due i else s.postOrdered due i (s.sameWay src dst credit)

/-- Returns one credit to the other end of a pair (06 R137, 14 R297). -/
def State.sendCredit (s : State) (core : Nat) (q : Port) : State :=
  if q.paired then
    (s.postLink core q.peerCore (s.cycle + s.linkDelay core q.peerCore + 1) true (.creditReturn q.peerCore q.peerPort)).drew
  else s

/-- An entry that a FIFO holds in a line of the overflow area refills the hardware FIFO as it drains (14 R299).
DESIGN CHOICE (notes/assumptions/124): a line of a port's FIFO is no context's; where it does not translate the fault is recorded and no context killed. -/
def State.refillFifo (s : State) (core : Nat) (q : Port) : State :=
  if q.fifo.length ≤ 8 then s else (s.spillAccess core .read (q.farLine 8)).1

/-- Pops the oldest entry of a port and returns one credit to the other end. -/
def State.popPort (s : State) (core : Nat) (p : Fin 8) : State :=
  let q := (s.core core).ports.get p
  let s := s.refillFifo core q
  let s := s.modCore core (fun k => k.setPort p { q with fifo := q.fifo.tail })
  s.sendCredit core q

/-- Takes the oldest entry of a port for a word that parks; its credit is still to be returned (06 R116). -/
def State.takePop (s : State) (w : CtxId) (p : Fin 8) : State :=
  let q := (s.core w.core).ports.get p
  let s := s.refillFifo w.core q
  let s := s.modCore w.core (fun k => k.setPort p { q with fifo := q.fifo.tail })
  s.modCtx w (fun c => { c with popped := c.popped ++ [(p, q.fifo.headD 0)] })

/-- Returns the credits of the entries a parked word has popped: the word is complete. -/
def State.returnCredits (s : State) (w : CtxId) : State :=
  let l := (s.ctx w).popped
  if l.isEmpty then s
  else l.foldl (fun s e => s.sendCredit w.core ((s.core w.core).ports.get e.1))
    (s.modCtx w (fun c => { c with popped := [] }))

/-- Puts the entries a parked word has popped back at the heads of their FIFOs, in their order (06 R116). -/
def State.unpop (s : State) (w : CtxId) : State :=
  let l := (s.ctx w).popped
  if l.isEmpty then s
  else (l.foldr (fun e s => s.modCore w.core (fun k =>
    let q := k.ports.get e.1
    if q.bound then k.setPort e.1 { q with fifo := e.2 :: q.fifo } else k)) s).modCtx w (fun c => { c with popped := [] })

/-- Pushes a value, in the core cycle given, to the other end's FIFO. -/
def State.sendPort (s : State) (core : Nat) (p : Fin 8) (from_ : Nat) (v : Word) : State :=
  let q := (s.core core).ports.get p
  if q.paired then
    (s.postLink core q.peerCore (from_ + s.linkDelay core q.peerCore + 1) false (.queueEntryArrival q.peerCore q.peerPort v)).drew
  else s

/-- Takes one credit of a port. -/
def State.takeCredit (s : State) (core : Nat) (p : Fin 8) : State :=
  s.modCore core (fun k => let q := k.ports.get p; k.setPort p { q with credits := q.credits - 1 })

/-! ### Taking an exception -/

/-- Where TRAPPC points for the word at the PC: at its hint group's first word, if one is pending (01 R26). -/
def Ctx.wordPc (c : Ctx) : Word := if c.hints.pending then c.hints.first else c.pc

/-- Trap entry, when no result of the context is outstanding (10 R237): the hint group is discarded (01 R26); with
INTRAP set, or no vector, or a vector that fails 01 R14, the context is killed and the fault recorded; otherwise TRAPCAUSE,
TRAPPC and TRAPVAL are saved, INTRAP is set and the PC is TRAPVEC. -/
def State.enterTrap (s : State) (w : CtxId) (t : Trap) : State :=
  let c := s.ctx w
  let kill (s : State) : State := (s.logProgramFault w.core t.cause t.val.toNat).endCtx w true
  if c.intrap || decide (c.trapVec = 0) then kill s
  else match s.checkTarget w.core c.trapVec true with
    | (s, some _) => kill s
    | (s, none) =>
      s.modCtx w (fun c => { c with
        trapCause := BitVec.ofNat 8 (causeCode t.cause), trapHints := c.hints.pending
        trapPc := wordAddress c.wordPc
        trapVal := t.val, intrap := true, pc := c.trapVec, newLine := false, hints := .none, park := .none, readyAt := s.cycle + 1 })

/-- A trap of an ordered task is held until the task is the commit point (08 R196). -/
def State.holdTrap (s : State) (w : CtxId) (slot : Nat) (t : Trap) : State :=
  (s.modCtx w (fun c => { c with park := .held t, parkedAt := s.cycle })).modDie (dieOf w.core) (fun d => d.modTask slot (fun o => { o with held := some t }))

/-- A trap of a context (10 R237): held in an ordered task that is not the commit point (08 R196); otherwise it waits for
the outstanding results (01 R20) and enters. -/
def State.raise (s : State) (w : CtxId) (t : Trap) : State :=
  let s := s.unpop w
  -- An attached follower that takes a trap detaches (08 R201).
  let s := if (s.core w.core).follows w then s.detach w.core else s
  let c := s.ctx w
  match c.role with
  | .task slot =>
    if s.isCommitPoint (dieOf w.core) slot then
      if c.outstanding.isEmpty then s.enterTrap w t else s.modCtx w (fun c => { c with park := .trap t, parkedAt := s.cycle })
    else s.holdTrap w slot t
  | _ => if c.outstanding.isEmpty then s.enterTrap w t else s.modCtx w (fun c => { c with park := .trap t, parkedAt := s.cycle })

/-- The return (10 R237): the PC is TRAPPC, slot 0 of a line resuming at slot 1; INTRAP is cleared; a line whose CODE is 0
traps ILLEGAL at the return address (01 R14 row 2). -/
def State.trapReturn (s : State) (w : CtxId) : State :=
  let c := s.ctx w
  let target := if c.trapPc.toNat % 128 = 0 then c.trapPc + 4 else c.trapPc
  let s := s.modCtx w (fun c => { c with pc := target, newLine := false, intrap := false, park := .none, readyAt := s.cycle + 1 })
  match s.checkTarget w.core target false with
  | (s, none) => s
  | (s, some t) => (s.modCtx w (fun d => { d with pc := c.trapPc })).raise w { t with val := c.trapPc }

/-! ### Writing results -/

/-- Writes a single-cycle result to an x register (04 R86, R87): a bound port pushes it, x0 ignores it. -/
def State.writeX (s : State) (w : CtxId) (d : XReg) (v : Word) : State :=
  if (s.core w.core).isPort d then
    match portOf d with
    | some p => (s.takeCredit w.core p).sendPort w.core p s.cycle v
    | none => s
  else s.modCtx w (fun c => c.setX d v)

/-- The outstanding entry of the word at the PC. -/
def Ctx.mark (c : Ctx) (d : Dest) (by_ : Producer) : Outstanding := { dest := d, by_ := by_, pc := c.pc, hints := c.hints, stale := false, past := false }

/-- Marks a destination outstanding (01 R18). DEDUCED (notes/assumptions/114): a bound queue port is a destination register like any other, so
its push is awaited by a trap's entry, a trap's return and a switch marker. -/
def State.markOut (s : State) (w : CtxId) (d : Dest) (by_ : Producer) : State :=
  if d.isNone then s else s.modCtx w (fun c => { c with outstanding := c.outstanding ++ [c.mark d by_] })

/-- A result in hand, with nothing kept and no flag. -/
def Result.plain (d : Dest) (v : Vec) : Result :=
  { dest := d, value := v, keep := 0, flags := .none, beyond := false, mark := false }

/-- A result that a port sends when it lands: its write changes no register. -/
def Result.sent (r : Result) : Result := { r with keep := BitVec.allOnes 512 }

/-- A variable-latency result: the destination is outstanding from issue until its write at the end of the core cycle
`lat` cycles on (01 R18, R20). A bound port pushes the value then (14 R297), and the context's own register is left alone (06 R137). -/
def State.later (s : State) (w : CtxId) (lat : Nat) (by_ : Producer) (r : Result) : State :=
  match r.dest with
  | .x d =>
    if (s.core w.core).isPort d then
      match portOf d with
      | some p => ((s.takeCredit w.core p).markOut w r.dest by_).postEnd lat (.resultWrite w (Result.sent r))
      | none => s
    else if d = 0 && !r.beyond && r.flags = .none then s
    else (s.markOut w r.dest by_).postEnd lat (.resultWrite w r)
  | .v _ | .m _ => (s.markOut w r.dest by_).postEnd lat (.resultWrite w r)

/-- A scalar result of a given latency. -/
def State.laterX (s : State) (w : CtxId) (lat : Nat) (by_ : Producer) (d : XReg) (v : Word) : State :=
  s.later w lat by_ (Result.plain (.x d) (v.setWidth 512))

/-- Marks an x destination whose value is not yet known; a bound port gives up its credit now. -/
def State.awaitX (s : State) (w : CtxId) (by_ : Producer) (d : XReg) : State :=
  (if (s.core w.core).isPort d then (match portOf d with | some p => s.takeCredit w.core p | none => s) else s).markOut w (.x d) by_

/-- Writes a value that an engine or a home returns to a destination, at the end of the core cycle given: a bound port pushes it then. -/
def State.answerX (s : State) (w : CtxId) (d : XReg) (at_ : Nat) (v : Word) : State :=
  if (s.core w.core).isPort d then
    match portOf d with
    | some p =>
      if at_ ≤ s.cycle then s.sendPort w.core p at_ v
      else (s.markOut w (.x d) .unit).post (at_ + 1) (.resultWrite w (Result.sent (Result.plain (.x d) (v.setWidth 512))))
    | none => s
  else s.modCtx w (fun c => c.setX d v)

/-- The vertical window counter of 14 R301 for a reply beyond the group, marked or not. -/
def Core.reply (k : Core) (mark : Bool) : Core :=
  if mark && decide (k.wn ≤ k.sinceHalving) then
    { k with beyond := k.beyond - 1, wn := max 1 (k.wn / 2), run := 0, sinceHalving := 0 }
  else if mark then { k with beyond := k.beyond - 1, run := 0, sinceHalving := k.sinceHalving + 1 }
  else if k.run + 1 = k.wn then
    { k with beyond := k.beyond - 1, wn := min 64 (k.wn + 1), run := 0, sinceHalving := k.sinceHalving + 1 }
  else { k with beyond := k.beyond - 1, run := k.run + 1, sinceHalving := k.sinceHalving + 1 }

/-! ### The end of a word -/

/-- The word is complete: its hint group is consumed, the PC moves to `next`, and a switch marker parks the context while
results are outstanding (01 R19, R20, R25). A sequential step from a line's last slot enters a new line (01 R14). -/
def Ctx.retire (c : Ctx) (cycle : Nat) (sw : Bool) (next : Word) (keepHints : Bool) : Ctx :=
  { c with
    hints := if keepHints then c.hints else .none
    pc := next
    newLine := decide (c.pc.toNat % 128 = 124) && decide (next = seqNext c.pc)
    park := if sw && !c.outstanding.isEmpty then .marker else .none
    parkedAt := if sw && !c.outstanding.isEmpty then cycle else c.parkedAt
    readyAt := cycle + 1 }

def State.retire (s : State) (w : CtxId) (sw : Bool) (next : Word) : State := s.modCtx w (fun c => c.retire s.cycle sw next false)

/-- A parked word completes: it retires, and the context may issue from the cycle given. -/
def State.finishPark (s : State) (w : CtxId) (sw : Bool) (from_ : Nat) : State :=
  (s.returnCredits w).modCtx w (fun c => { c.retire s.cycle sw (seqNext c.pc) false with readyAt := from_ })

/-- Removes the first outstanding entry of a destination. -/
def dropOut (d : Dest) : List Outstanding → List Outstanding
  | [] => []
  | o :: os => if o.dest = d then os else o :: dropOut d os

/-! ### Butterfly ports (14 R284) -/

/-- Whether a butterfly port serves a core that has asked in this cycle: the first of the cores that ask, round-robin by core index
beginning after the core served last. -/
def Butterfly.serves (b : Butterfly) (core cycle : Nat) : Bool :=
  let rank (c : Nat) : Nat := (c + 262143 - b.last) % 262144
  !decide (b.served = some cycle)
    && !b.waiting.any (fun w => decide (w.2 = cycle) && decide (w.1 ≠ core) && decide (rank w.1 < rank core))

/-- The port after a request. -/
def Butterfly.note (b : Butterfly) (core cycle : Nat) : Butterfly :=
  { b with waiting := (core, cycle) :: b.waiting.filter (fun w => decide (w.2 = cycle) && decide (w.1 ≠ core)) }

/-- The port after a service. -/
def Butterfly.serve (b : Butterfly) (core cycle : Nat) : Butterfly := { b with last := core, served := some cycle }

/-- The butterfly port that an access uses: the core of the scratchpad, and whether it is the cluster butterfly. A core's own access
is its scratchpad's first port, by whichever window. -/
def Access.port (a : Access) (core : Nat) : Option (Nat × Bool) :=
  match a.spad with
  | some (c, _) => if c = core then none else if a.lat = 3 then some (c, true) else if a.lat = 5 then some (c, false) else none
  | none => none

def State.modButterfly (s : State) (p : Nat × Bool) (f : Butterfly → Butterfly) : State :=
  s.modCore p.1 (fun k => if p.2 then { k with clusterPort := f k.clusterPort } else { k with groupPort := f k.groupPort })

/-- Whether an access's port serves it in this core cycle: known once every core has been tried. -/
def State.portServes (s : State) (core : Nat) (a : Access) : Bool :=
  match a.port core with
  | some p => decide (s.deciding = some core) && (if p.2 then (s.core p.1).clusterPort else (s.core p.1).groupPort).serves core s.cycle
  | none => true

/-- An access's port has served it. -/
def State.servePort (s : State) (core : Nat) (a : Access) : State :=
  match a.port core with
  | some p => s.modButterfly p (fun b => b.serve core s.cycle)
  | none => s

/-- Notes an access's request at its port, while the requests are gathered. -/
def State.notePort (core : Nat) (a : Access) (s : State) : State :=
  match a.port core, s.deciding with
  | some p, none => { s.modButterfly p (fun b => b.note core s.cycle) with asked := s.asked ++ [s.who] }
  | _, _ => s

/-- Notes the request of a parked word of a context. -/
def State.askPort (s : State) (w : CtxId) (a : Access) : State :=
  match a.port w.core, s.deciding with
  | some p, none => if s.asked.contains w then s else { s.modButterfly p (fun b => b.note w.core s.cycle) with asked := s.asked ++ [w] }
  | _, _ => s

/-- A further access beyond the group would exceed Wn (14 R301). -/
def Core.windowFull (k : Core) (a : Access) : Bool := a.beyond && decide (k.wn ≤ k.beyond)

/-! ### Posted atomics and exits -/

/-- Counts an access beyond the group against Wn (14 R301). -/
def State.countBeyond (s : State) (core : Nat) (b : Bool) : State :=
  if b then s.modCore core (fun k => { k with beyond := k.beyond + 1 }) else s

/-- The checks of the counter of `work.exit` (08 R181). -/
def State.exitCheck (s : State) (w : CtxId) (counter : Option Word) : State × Except Trap (Option (Word × Access)) :=
  match counter with
  | none => (s, .ok none)
  | some va =>
    if va.toNat % 8 ≠ 0 then (s, .error { cause := .misaligned, val := va })
    else match s.resolve w.core .atomic va 8 with
      | (s, .error e) => (s, .error { cause := e, val := va })
      | (s, .ok a) => (s, .ok (some (va, a)))

def Role.isTask : Role → Bool | .task _ => true | _ => false

/-- The posted decrement of a counter (08 R181). -/
def exitRequest (w : Issuer) (va : Word) (a : Access) : AtomicReq :=
  { op := .add, sz := .d, addr := a.key, va := va, operand := BitVec.allOnes 64, compare := 0, more := [], who := w, dest := none
    members := [w], reply := a.lat, format := a.attr.format, beyond := a.beyond }

/-- `work.exit`, once no result is outstanding (08 R181): the checks of the counter's address, the posted decrement (held in
an ordered task), and the end of the context. -/
def State.doExit (s : State) (w : CtxId) (counter : Option Word) : State :=
  match s.exitCheck w counter with
  | (s, .error t) => s.raise w t
  | (s, .ok none) => (s.returnCredits w).endCtx w false
  | (t, .ok (some (va, a))) =>
    let s := (if (s.ctx w).role.isTask then s else t).returnCredits w
    match (s.ctx w).role with
    | .task slot => (s.modDie (dieOf w.core) (fun d => d.modTask slot (fun o => { o with exitDec := some (a.key, va) }))).endCtx w false
    | _ =>
      let s := s.modCtx w (fun c => { c with unacked := c.unacked + 1 })
      (((s.countBeyond w.core a.beyond).post s.cycle (.amoHomeApply (exitRequest (s.issuer w) va a))).drew).endCtx w false

/-- A parked `work.exit` whose results are home: its decrement waits for Wn and its port as the access of any other word does (14 R284, R301). -/
def State.tryExit (s : State) (w : CtxId) (counter : Option Word) : State :=
  match (s.exitCheck w counter).2 with
  | .ok (some (_, a)) =>
    if (s.ctx w).role.isTask then s.doExit w counter
    else if (s.core w.core).windowFull a then s
    else if s.portServes w.core a then (s.servePort w.core a).doExit w counter
    else s.askPort w a
  | _ => s.doExit w counter

/-- What a context waits for once its last outstanding result is written (01 R20, 10 R237, 08 R181). -/
def State.resultsHome (s : State) (w : CtxId) : State :=
  let c := s.ctx w
  if c.outstanding.isEmpty then
    match c.park with
    | .marker => s.modCtx w (fun c => { c with park := .none, readyAt := max c.readyAt s.cycle })
    | .trap t => s.enterTrap w t
    | .ret => s.trapReturn w
    | .exiting a => s.tryExit w a
    | _ => s
  else s

/-! ### Issue -/

/-- What the shared rules of issue need to know of a word. -/
structure Form where
  /-- The word, whose bits TRAPVAL takes (02 R41). -/
  i : Instr
  sw : Bool
  /-- It accepts `imm` and `imx`, or also `mod` and `reg` (04 R90). -/
  immHints : Bool
  modHints : Bool
  /-- Monitor-only (02 R41 row 7), and whether it may stand in an ordered task (08 R193, 09 R204). -/
  monitor : Bool
  inTask : Bool
  /-- Sources in field order (x sources pop bound ports in this order), and destinations. -/
  srcs : List Dest
  dests : List Dest
  /-- Its unit is busy: the word is not ready (01 R17). -/
  held : Bool
  /-- The trap that its hint data takes, ahead of the checks of its operands (04 R90). -/
  trap : Option Trap
  deriving DecidableEq, Repr

/-- A form with no hints, allowed everywhere. -/
def Form.of (i : Instr) (sw : Bool) (srcs dests : List Dest) : Form :=
  { i := i, sw := sw, immHints := false, modHints := false, monitor := false, inTask := true, srcs := srcs, dests := dests
    held := false, trap := none }

/-- How the body of a word ends. -/
inductive Body where
  /-- Complete; the PC moves on. -/
  | done (s : State)
  /-- Complete; control passes to a checked target (04 R92). -/
  | jump (s : State) (target : Word)
  /-- A trap, in the state before any effect. -/
  | trap (s : State) (t : Trap)
  /-- The context parks in the word. -/
  | park (s : State) (p : Park)
  /-- The word ends its context, or the PC has been set. -/
  | ended (s : State)
  /-- A hint word: complete, and the group stays pending. -/
  | hint (s : State)
  /-- The word is not ready (01 R17). -/
  | hold
  /-- The word is not ready, and a butterfly port has noted its request (14 R284). -/
  | holdWith (note : State → State)

/-- The word zero-extended, as TRAPVAL takes it. -/
def wordOf (i : Instr) : Word := ((encode i).getD 0).setWidth 64

/-- The bound ports among the x sources, in pop order. -/
def Form.pops (f : Form) (k : Core) : List (Fin 8) :=
  f.srcs.filterMap (fun d => match d with | .x r => if k.isPort r then portOf r else none | _ => none)

/-- The bound ports among the destinations. -/
def Form.pushes (f : Form) (k : Core) : List (Fin 8) :=
  f.dests.filterMap (fun d => match d with | .x r => if k.isPort r then portOf r else none | _ => none)

/-- A follower of the gang whose buffer is full holds its leader back (08 R200). -/
def State.gangFull (s : State) (w : CtxId) : Bool :=
  (s.core w.core).leads w && (s.gangMates w.core).any (fun c =>
    let h := (s.core c).gang
    h.attached && decide (16 ≤ h.queue.length + h.inFlight))

/-- Its unit is free, the entries a word pops and the push it makes are at hand, and no source is an outstanding patch result
(04 R86, 01 R21). -/
def Form.ready (f : Form) (k : Core) (c : Ctx) : Bool :=
  let pops := f.pops k
  !f.held && pops.all (fun p => decide ((pops.filter (· = p)).length ≤ (k.ports.get p).fifo.length))
    && (f.pushes k).all (fun p => decide (0 < (k.ports.get p).credits))
    && f.srcs.all (fun d => !c.outstanding.any (fun o => decide (o.dest = d) && decide (o.by_ = .patch)))

/-- Rows 5 to 7 of 02 R41, the standing in ordered tasks (08 R193, 09 R204), and the word's hint data (04 R90). -/
def Form.checks (f : Form) (k : Core) (c : Ctx) : Option Trap :=
  let h := c.hints
  if (!f.immHints && (h.imm.isSome || h.imx.isSome)) || (!f.modHints && (h.mod.isSome || h.reg.isSome))
      || (h.imx.isSome && h.imm.isNone) then
    some { cause := .illegal, val := c.pc }
  else if f.monitor && decide (k.mode = .tenant) then some { cause := .privilege, val := wordOf f.i }
  else if !f.inTask && (match c.role with | .task _ => true | _ => false) then some { cause := .illegal, val := wordOf f.i }
  else f.trap

/-- The first window hazard of a word (01 R21): a source or destination that is outstanding in its window. -/
def Form.hazard (f : Form) (k : Core) (c : Ctx) : Option Dest :=
  (f.srcs ++ f.dests).find? (fun d =>
    !d.isNone && !(match d with | .x r => k.isPort r | _ => false) && c.outstanding.any (fun o => decide (o.dest = d) && !o.past))

/-- TRAPVAL of WINDOW_HAZARD (01 R21): the register number, and the file in bits 9:8. -/
def hazardVal : Dest → Word
  | .x r => BitVec.ofNat 64 r.val
  | .v r => BitVec.ofNat 64 (r.val + 2 ^ 8)
  | .m r => BitVec.ofNat 64 (r.val + 2 ^ 9)

/-- The value on its way to a destination, if it is known. -/
def State.coming (s : State) (w : CtxId) (d : Dest) : Option Result :=
  s.agenda.findSome? (fun e => match e.2 with
    | .resultWrite w' r => if w' = w && r.dest = d then some r else none
    | _ => none)

/-- Hazardous reads receive the old value or the new one (01 R21): a free choice per source. Answers the state that the
body sees, and the old values to put back. -/
def Form.peekNew (f : Form) (s : State) (w : CtxId) : State × List (Dest × Vec) :=
  f.srcs.foldl (fun (acc : State × List (Dest × Vec)) d =>
    let s := acc.1
    if (s.ctx w).outstanding.any (fun o => decide (o.dest = d)) then
      match s.coming w d with
      | some r =>
        let old := (s.ctx w).getD d
        if s.freeBool then
          ((s.drew).modCtx w (fun c => c.setD d ((r.value &&& ~~~r.keep) ||| (old &&& r.keep))), (d, old) :: acc.2)
        else (s.drew, acc.2)
      | none => acc
    else acc) (s, [])

/-- The entries of a destination that n earlier writes are on their way to, after a hazardous rewrite (01 R21): `b` says that the write
that comes last leaves the register alone. It is the word's own result, if that is on its way too, else the earlier ones. -/
def settleOut (d : Dest) (n : Nat) (b : Bool) (l : List Outstanding) : List Outstanding :=
  if n < (l.filter (fun o => decide (o.dest = d))).length then
    match l.reverse.findIdx? (fun o => decide (o.dest = d)) with
    | some m => l.modify (l.length - 1 - m) (fun o => { o with stale := b })
    | none => l
  else l.map (fun o => if o.dest = d then { o with stale := o.stale || b } else o)

/-- A hazardous rewrite leaves the value of either write (01 R21): a free choice per destination. -/
def Form.settle (f : Form) (s0 : State) (w : CtxId) (s : State) : State :=
  f.dests.foldl (fun s d =>
    let n := ((s0.ctx w).outstanding.filter (fun o => decide (o.dest = d))).length
    if n = 0 || d.isNone then s else s.drew.modCtx w (fun c => { c with outstanding := settleOut d n s.freeBool c.outstanding })) s

/-- A body followed by a change of the state, if its word issues and goes on. -/
def Body.next (b : Body) (g : State → State) : Body :=
  match b with
  | .done s => .done (g s)
  | .jump s t => .jump (g s) t
  | .park s p => .park (g s) p
  | .hint s => .hint (g s)
  | b => b

/-- Puts back the registers that a hazardous read saw early, except destinations. -/
def Form.restore (f : Form) (w : CtxId) (old : List (Dest × Vec)) (s : State) : State :=
  old.foldl (fun s p => if f.dests.contains p.1 then s else s.modCtx w (fun c => c.setD p.1 p.2)) s

/-- The operand values of the x sources, in field order: the oldest entries of bound ports, or the registers (04 R86). -/
def Form.operands (f : Form) (k : Core) (c : Ctx) : List Word :=
  let go : List Word × List (Fin 8) → Dest → List Word × List (Fin 8) := fun acc d =>
    match d with
    | .x r =>
      if k.isPort r then
        match portOf r with
        | some p => (acc.1 ++ [((k.ports.get p).fifo.drop (acc.2.filter (· = p)).length).headD 0], acc.2 ++ [p])
        | none => (acc.1 ++ [c.getX r], acc.2)
      else (acc.1 ++ [c.getX r], acc.2)
    | _ => acc
  (f.srcs.foldl go ([], [])).1

/-- The value of one x operand as it stands: the oldest entry of a bound port, or the register. -/
def State.atHand (s : State) (w : CtxId) (r : XReg) : Word :=
  let k := s.core w.core
  match (if k.isPort r then portOf r else none) with | some p => (k.ports.get p).fifo.headD 0 | none => (s.ctx w).getX r

/-- Where a context that has issued a word goes on: its PC, or the successor of the word it is parked in. -/
def Ctx.nextPc (c : Ctx) : Word := match c.park with | .none | .marker => c.pc | _ => seqNext c.pc

/-- `work.exit`, which a leader does not forward: its followers go on from its next word (08 R202). -/
def isExit (i : Instr) : Bool := match i with | .workExit .. => true | _ => false

/-- Forwards an issued word of a gang's leader to its attached followers, to arrive 2 core cycles later (08 R200); a leader
in a trap handler forwards nothing (08 R201). `g` is the gang, and `held` whether the leader was in a handler, before the word. -/
def State.forward (s : State) (w : CtxId) (g : Core) (held : Bool) (i : Instr) : State :=
  if g.leads w && !held && !isExit i then
    match encode i with
    | some word =>
      ((coresOfCluster (clusterOf w.core)).filter (fun c => decide (c ≠ w.core) && (s.core c).gang.active && (s.core c).gang.attached
          && decide ((s.core c).gang.leader = g.gang.leader) && bitGet g.gang.mask (Fin.ofNat 8 (posOf c)))).foldl
        (fun s c => (s.modCore c (fun k => { k with gang := { k.gang with inFlight := k.gang.inFlight + 1 } })).post (s.cycle + 2)
          (.forwardedWordArrival c word (s.ctx w).nextPc)) s
    | none => s
  else s

/-- The end of a word that issued: ports popped, the gang's followers told. -/
def Form.close (f : Form) (s0 : State) (w : CtxId) (pops : List (Fin 8)) (s : State) : State :=
  (pops.foldl (fun s p => s.popPort w.core p) s).forward w (s0.core w.core) (s0.ctx w).intrap f.i

/-- How a word's body becomes the outcome of the word. `s0` is the state before the word. -/
def Form.finish (f : Form) (s0 : State) (w : CtxId) (pops : List (Fin 8)) (old : List (Dest × Vec)) (b : Body) : State :=
  match b with
  | .done s => f.close s0 w pops ((f.restore w old s).retire w f.sw (seqNext (s.ctx w).pc))
  | .jump s target => f.close s0 w pops ((f.restore w old s).retire w f.sw target)
  | .hint s => f.close s0 w pops ((f.restore w old s).modCtx w (fun c => c.retire s.cycle f.sw (seqNext c.pc) true))
  | .park s p =>
    (pops.foldl (fun s q => s.takePop w q) ((f.restore w old s).modCtx w (fun c => { c with park := p, parkedAt := s.cycle }))).forward w (s0.core w.core) (s0.ctx w).intrap f.i
  | .ended s => f.close s0 w pops s
  | .trap s t => (f.restore w old s).raise w t
  | .hold => { s0 with stalled := true }
  | .holdWith note => { note s0 with stalled := true }

/-- The word is not ready (01 R17), so that nothing of it happens in this core cycle. -/
def Body.waits : Body → Bool
  | .hold | .holdWith _ => true
  | _ => false

/-- Runs a word's body on its operands after the checks. A word that is not ready meets no hazard yet (01 R17, R21). -/
def Form.run (f : Form) (body : List Word → State → Body) (s0 s : State) (w : CtxId) : State :=
  let k := s.core w.core
  let b := body (f.operands k (s.ctx w)) s
  match if b.waits then none else f.hazard k (s.ctx w) with
  | none => f.finish s0 w (f.pops k) [] b
  | some d =>
    let s := s.modCtx w (fun c => { c with winhaz := true })
    if (s.ctx w).whtrap then s.raise w { cause := .windowHazard, val := hazardVal d }
    else
      let (s, old) := f.peekNew s w
      f.finish s0 w (f.pops k) old ((body (f.operands k (s.ctx w)) s).next (f.settle s0 w))

/-- A word that is not ready is passed over (01 R17); the watchdog of its group sees the pushes that lack a credit (14 R298). -/
def State.notReady (s : State) (f : Form) : State :=
  let w := s.who
  let k := s.core w.core
  let l := (f.pushes k).filter (fun p => decide ((k.ports.get p).credits = 0))
  let s := if l.isEmpty then s else s.modGroup (groupOf w.core) (fun g => { g with blocked := g.blocked ++ l.map (fun p => (w.core, p)) })
  { s with stalled := true }

/-- The issue of a word of the context `s.who` (01 R17 to R27, 02 R41, 04 R86): a word that is not ready changes no state that
a program or a host reads. -/
def issue (f : Form) (body : List Word → State → Body) (s : State) : Host.Outcome State Fault Refusal :=
  let w := s.who
  let k := s.core w.core
  if !f.ready k (s.ctx w) || s.gangFull w then .next (s.notReady f)
  else match f.checks k (s.ctx w) with
    | some t => .next (s.raise w t)
    | none => .next (f.run body s s w)

end Sys2Proof.Machine
end

