-- ==== Sys2Proof/Machine/Flags.lean ====
section
/-! DEFINITION. The flags of CTXSTAT: the register as its map lays it out (10 R235, 01 R22), its write access (10 R234), and the
sticky accumulation of floating-point flags (03 R55, 05 R98). -/

namespace Sys2Proof.Machine

def bitIf (b : Bool) (n : Nat) : Nat := if b then 2 ^ n else 0

/-- PARK is 1 while the context is parked (01 R22). -/
def Ctx.parked (c : Ctx) : Bool := decide (c.park ≠ .none)

/-- CTXSTAT as it reads (10 R235). A tenant context reads MON as 0. -/
def ctxstat (w : CtxId) (mon : Bool) (c : Ctx) : Word :=
  BitVec.ofNat 64 (w.core * 2 ^ 46 + w.ctx.val * 2 ^ 42 + bitIf mon 41 + c.src.toNat * 2 ^ 36
    + bitIf c.flags.nv 12 + bitIf c.flags.dz 11 + bitIf c.flags.ofl 10 + bitIf c.flags.ufl 9 + bitIf c.flags.nx 8
    + bitIf c.intrap 3 + bitIf c.parked 2 + bitIf c.whtrap 1 + bitIf c.winhaz 0)

/-- A write of CTXSTAT: INTRAP and WHTRAP take the new bits, the sticky bits are cleared where the new bit is 1 (10 R234, R235). -/
def Ctx.writeStat (c : Ctx) (v : Word) : Ctx :=
  { c with
    intrap := v.getLsbD 3, whtrap := v.getLsbD 1, winhaz := c.winhaz && !v.getLsbD 0
    flags := { nv := c.flags.nv && !v.getLsbD 12, dz := c.flags.dz && !v.getLsbD 11, ofl := c.flags.ofl && !v.getLsbD 10
               ufl := c.flags.ufl && !v.getLsbD 9, nx := c.flags.nx && !v.getLsbD 8 } }

/-- Sticky accumulation (03 R55): an operation sets flags and clears none. -/
def Ctx.raiseFlags (c : Ctx) (f : FFlags) : Ctx := { c with flags := c.flags.union f }

/-- The oldest entry of a destination leaves its register alone (01 R21). -/
def Ctx.staleAt (c : Ctx) (d : Dest) : Bool := match c.outstanding.find? (fun o => decide (o.dest = d)) with | some o => o.stale | none => false

/-- The write of a variable-latency result (01 R18, R20; 05 R97, R98): lanes kept, flags raised, the destination no longer
outstanding. A stale one writes nothing to its register (01 R21). -/
def Ctx.land (c : Ctx) (r : Result) : Ctx :=
  { (if c.staleAt r.dest then c else c.setD r.dest ((r.value &&& ~~~r.keep) ||| (c.getD r.dest &&& r.keep))).raiseFlags r.flags with
    outstanding := dropOut r.dest c.outstanding }

end Sys2Proof.Machine
end

