-- ==== Sys2Proof/Machine/Operands.lean ====
section
/-! DEFINITION. Operand forms: immediates with the widening of hint groups (02 R38, 04 R89), effective addresses (06 R118,
R125; 05 R107), conditions (04 R82), and the register operands of a word. -/

namespace Sys2Proof.Machine

/-- The immediate field f of width w as a hint group widens it: the field F and its width (04 R89). -/
def widen (h : Hints) (f w : Nat) : Nat × Nat :=
  match h.imm, h.imx with
  | some i, some j => (j.toNat * 2 ^ (w + 23) + i.toNat * 2 ^ w + f, w + 46)
  | some i, none => (i.toNat * 2 ^ w + f, w + 23)
  | none, _ => (f, w)

/-- A sign-extended immediate (02 R38), times a scale. -/
def immS (h : Hints) (f w : Nat) (scale : Int) : Word :=
  let F := widen h f w
  BitVec.ofInt 64 (sintN F.2 F.1 * scale)

/-- A zero-extended immediate (02 R38). -/
def immZ (h : Hints) (f w : Nat) : Word := BitVec.ofNat 64 (widen h f w).1

/-- A form that accepts `imm` and `imx` (04 R90). -/
def Form.imm (i : Instr) (sw : Bool) (srcs dests : List Dest) : Form := { Form.of i sw srcs dests with immHints := true }

/-- The conditions of 04 R82, on a left operand and a comparand. -/
def condHolds (c : Cond) (l y : Word) : Bool :=
  match c with
  | .eq => decide (l = y)
  | .ne => decide (l ≠ y)
  | .lt => l.slt y
  | .ge => !l.slt y
  | .gt => y.slt l
  | .le => !y.slt l
  | .ltu => l.ult y
  | .geu => !l.ult y
  | .gtu => y.ult l
  | .leu => !y.ult l
  | .any => decide (l &&& y ≠ 0)
  | .none => decide (l &&& y = 0)

/-- The condition of `br`: against 0, with `odd` and `even` of bit 0 in the places of `any` and `none` (04 R82). -/
def brHolds (c : Cond) (l : Word) : Bool :=
  match c with
  | .any => l.getLsbD 0
  | .none => !l.getLsbD 0
  | c => condHolds c l 0

/-- 1 if a condition holds, else 0. -/
def flagWord (b : Bool) : Word := if b then 1 else 0

/-- Ad of `ld` and `st` (06 R118): x[a] + SExt(off10) × 2^sz. -/
def addrM (h : Hints) (base : Word) (off : BitVec 10) (sz : Size) : Word := base + immS h off.toNat 10 sz.bytes

/-- Ad of `idx` (06 R125): x[a] + x[b] × 2^sz. -/
def addrIdx (base index : Word) (sz : Size) : Word := base + index * BitVec.ofNat 64 sz.bytes

/-- Ad of `vmem` (05 R107): x[a] + SExt(off10) × 64. -/
def addrVM (h : Hints) (base : Word) (off : BitVec 10) : Word := base + immS h off.toNat 10 64

/-- The first and second x operand of a word. -/
def op0 (l : List Word) : Word := l.headD 0
def op1 (l : List Word) : Word := l.tail.headD 0
def op2 (l : List Word) : Word := l.tail.tail.headD 0

/-- A loaded value: SExt or ZExt to 64 bits (06 R119). -/
def extend (sext : Bool) (sz : Size) (v : Nat) : Word :=
  if sext then BitVec.ofInt 64 (sintN (8 * sz.bytes) v) else BitVec.ofNat 64 v

end Sys2Proof.Machine
end

