-- ==== Sys2Proof/Machine/Memory.lean ====
section
/-! DEFINITION. Loads and stores: ld, st and idx (06 R115 to R125) with their wait form, the control block (14 R286 to R291,
R295, R296), the butterfly ports (14 R284), and the loads and stores of ordered tasks (08 R193, 13 R276). -/

namespace Sys2Proof.Machine

/-! ### The control block (14 R286) -/

/-- A tag doubleword (14 R288). -/
def TileTag.word (g : TileTag) : Word :=
  BitVec.ofNat 64 (bitIf g.track 3 + bitIf g.poison 2 + bitIf g.consumed 1 + bitIf g.valid 0)

/-- A doubleword of a ring's control (14 R296). -/
def Ring.word (r : Ring) (dw : Nat) : Word :=
  if r.size = 0 then 0
  else match dw with
    | 0 => BitVec.ofNat 64 (r.size * 2 ^ 47 + r.base)
    | 1 => BitVec.ofNat 64 (r.used * 2 ^ 32 + r.tail * 2 ^ 16 + r.head)
    | _ => 0

/-- The entry number of an offset in an area of the control block. -/
def ctrlIndex (n : Nat) [NeZero n] (off base : Nat) : Fin n := Fin.ofNat n ((off - base) / 32)

/-- The doubleword at an offset from 0x0001_8000; none where any access traps PROTECTION (14 R286). -/
def Core.controlRead (k : Core) (off : Nat) : Option Word :=
  if off < 0x600 then some (k.tag (off / 8)).word
  else if 0x800 ≤ off && off < 0xA00 then
    let e := k.tileReady.get (ctrlIndex 16 off 0x800)
    some (match off % 32 / 8 with | 0 => e.dw0 | 1 => e.dw1 | 2 => e.dw2 | _ => 0)
  else if 0xA00 ≤ off && off < 0xB00 then some ((k.rings.get (ctrlIndex 8 off 0xA00)).word (off % 32 / 8))
  else none

/-- The check of an arming store (14 R291): N, tile numbers, the carve-out. -/
def Core.armOk (k : Core) (dw2 : Word) : Bool :=
  let n := bits dw2.toNat 34 32
  decide (1 ≤ n) && decide (n ≤ 4) && (List.range n).all (fun j =>
    let t := bits dw2.toNat (8 * j + 7) (8 * j)
    decide (t < 192) && decide (512 * t + 512 ≤ k.spillBase))

/-- When a change of the control block is performed: the core cycle at whose end it stands, and when a load that waits for it completes. A store
issued in this cycle stands at the end of the next one, a write of an engine at the end of the last (17 R339). -/
structure Moment where
  at_ : Nat
  ready : Nat
  deriving DecidableEq, Repr

def State.ofStore (s : State) : Moment := { at_ := s.cycle + 1, ready := s.cycle + 3 }
def State.ofEngine (s : State) : Moment := { at_ := s.cycle - 1, ready := s.cycle + 1 }

/-- Watches of a doubleword of the control block see its change (06 R122). -/
def State.touchControl (s : State) (core off : Nat) (t : Moment) : State :=
  let key := spadCell core (0x18000 + off)
  if s.watched key then s.post (t.ready - 1) (.watchReevaluate { addr := key, ready := t.ready }) else s

/-- An armed entry fires in the first core cycle in which all its tiles are valid (14 R291). -/
def Core.fires (k : Core) (e : TileReady) : Bool :=
  bitAt e.dw0.toNat 63 && (List.range (bits e.dw2.toNat 34 32)).all (fun j => (k.tag (bits e.dw2.toNat (8 * j + 7) (8 * j))).valid)

/-- A firing (14 R291), if the entry fires: ARMED is cleared and the task joins the tile-ready table, of the age at which its last input or its
arming stood. -/
def State.fireEntry (s : State) (core : Nat) (i : Fin 16) (t : Moment) : State :=
  let k := s.core core
  let e := k.tileReady.get i
  if k.fires e then
    let e := { e with dw0 := e.dw0 &&& 0xFFFFFFFFFFFF#64, fired := e.fired ++ [(t.at_, e.dw0 &&& 0xFFFFFFFFFFFF#64, e.dw1)] }
    (s.setCore core { k with tileReady := k.tileReady.set i.val e i.isLt }).touchControl core (0x800 + 32 * i.val) t
  else s

def execTileReadyFire (core entry : Nat) (s : State) : Host.Outcome State Fault Refusal := .next (s.fireEntry core (Fin.ofNat 16 entry) s.ofEngine)

/-- Sets the tags of a tile; entries that this makes ready fire in the same core cycle (14 R289, R291). -/
def State.setTagAt (s : State) (core tile : Nat) (g : TileTag) (t : Moment) : State :=
  let s := (s.modCore core (fun k => k.setTag tile g)).touchControl core (8 * tile) t
  if g.valid then (List.finRange 16).foldl (fun s e => s.fireEntry core e t) s else s

/-- A store to a tag doubleword (14 R288, R289): TRACK, CONSUMED and VALID take the stored bits. -/
def State.tagStore (s : State) (core tile : Nat) (v : Word) : State :=
  s.setTagAt core tile { (s.core core).tag tile with track := v.getLsbD 3, consumed := v.getLsbD 1, valid := v.getLsbD 0 } s.ofStore

/-- A store with a reserved bit set has trapped, and changes nothing (14 R288). -/
def execTileTagStore (core tile : Nat) (v : Word) (s : State) : Host.Outcome State Fault Refusal :=
  .next (if v.toNat / 16 ≠ 0 then s else s.tagStore core tile v)

/-- A store to a tile-ready entry (14 R290, R291); an entry whose tiles are all valid when it is armed fires at once. -/
def State.entryStore (s : State) (core : Nat) (i : Fin 16) (dw : Nat) (v : Word) : State :=
  let k := s.core core
  let e := k.tileReady.get i
  let e : TileReady := match dw with
    | 0 => { e with dw0 := v &&& 0x8000FFFFFFFFFFFF#64, armedAt := s.cycle }
    | 1 => { e with dw1 := v }
    | 2 => { e with dw2 := v &&& 0x7FFFFFFFF#64 }
    | _ => e
  ((s.setCore core { k with tileReady := k.tileReady.set i.val e i.isLt }).touchControl core (0x800 + 32 * i.val) s.ofStore).fireEntry core i s.ofStore

/-- A store that fails the check of arming has trapped, and changes nothing (14 R291). -/
def execTileReadyEntryStore (core entry dw : Nat) (v : Word) (s : State) : Host.Outcome State Fault Refusal :=
  let i : Fin 16 := Fin.ofNat 16 entry
  .next (if decide (dw = 0) && bitAt v.toNat 63 && !(s.core core).armOk ((s.core core).tileReady.get i).dw2 then s
    else s.entryStore core i dw v)

/-! ### Consuming from a message ring (14 R295) -/

/-- The size of the entry at the ring's read offset, and whether it is a pad marker (14 R293). -/
def State.ringEntry (s : State) (core : Nat) (r : Ring) : Nat × Bool :=
  let h := s.peek (spadCell core (r.base + r.tail)) 8
  (8 + h % 2 ^ 11, bitAt h 63)

def Ring.advance (r : Ring) (n : Nat) : Ring :=
  let used := r.used - n
  if used = 0 then { r with head := 0, tail := 0, used := 0 }
  else { r with tail := (r.tail + n) % r.size, used := used }

/-- Releases pad markers that stand at the oldest end. -/
def State.skipPads (s : State) (core : Nat) (r : Ring) : Nat → Ring
  | 0 => r
  | fuel + 1 =>
    if r.used = 0 then r
    else
      let (n, pad) := s.ringEntry core r
      if pad then s.skipPads core (r.advance n) fuel else r

/-- Releases the oldest n messages and the pads around them. -/
def State.releaseRing (s : State) (core : Nat) (r : Ring) : Nat → Ring
  | 0 => r
  | n + 1 =>
    if r.used = 0 then r
    else s.releaseRing core (s.skipPads core (r.advance (s.ringEntry core r).1) 2) n

/-- A store of n to the CONSUME doubleword (14 R295). A ring holds at most 4,096 messages. -/
def State.consume (s : State) (core : Nat) (i : Fin 8) (n : Word) : State :=
  let k := s.core core
  let r := k.rings.get i
  if r.size = 0 || n = 0 then s
  else
    let r := s.releaseRing core (s.skipPads core r 2) (min n.toNat 4096)
    (s.setCore core (k.setRing i { r with readyAge := if r.used = 0 then none else r.readyAge })).touchControl core (0xA00 + 32 * i.val) s.ofStore

def execConsume (core ring : Nat) (n : Word) (s : State) : Host.Outcome State Fault Refusal := .next (s.consume core (Fin.ofNat 8 ring) n)

/-- The core cycles in which the loads of a context that are still outstanding return their values. -/
def State.loadsDue (s : State) (w : CtxId) : List Nat :=
  s.agenda.filterMap (fun e => match e.2 with
    | .resultWrite v r => if v = w && (s.ctx w).outstanding.any (fun o => decide (o.dest = r.dest) && decide (o.by_ = .load)) then some e.1 else none
    | _ => none)

/-- A context's store to CONSUME is performed once its earlier loads have returned their values (14 R295). -/
def State.consumeBehind (s : State) (core : Nat) (i : Fin 8) (n : Word) : State :=
  match s.loadsDue s.who with
  | [] => s.consume core i n
  | l => s.post (l.foldl max 0) (.consume core i.val n)

/-- A store to the control block: its effect, or the cause of its trap (14 R286 to R296). A read-only doubleword ignores it. -/
def State.controlStore (s : State) (core off : Nat) (v : Word) : Except Cause State :=
  let k := s.core core
  if off < 0x600 then
    if v.toNat / 16 ≠ 0 then .error .protection else .ok (s.tagStore core (off / 8) v)
  else if 0x800 ≤ off && off < 0xA00 then
    let i := ctrlIndex 16 off 0x800
    let dw := off % 32 / 8
    if dw = 3 then .error .protection
    else if dw = 0 && bitAt v.toNat 63 && !k.armOk (k.tileReady.get i).dw2 then .error .protection
    else .ok (s.entryStore core i dw v)
  else if 0xA00 ≤ off && off < 0xB00 then
    let i := ctrlIndex 8 off 0xA00
    match off % 32 / 8 with
    | 3 => .error .protection
    | 2 => if (k.rings.get i).size = 0 then .error .protection else .ok (s.consumeBehind core i v)
    | _ => .ok s
  else .error .protection

/-! ### Wn and the butterfly ports (14 R284, R301) -/

/-- An access that issues now: held back by its port or by Wn (14 R284, R301), or run on the state in which it has been served. -/
def withPort (core : Nat) (a : Access) (s : State) (go : State → Body) : Body :=
  if (s.core core).windowFull a then .hold
  else if s.portServes core a then go ((s.servePort core a).countBeyond core a.beyond)
  else .holdWith (State.notePort core a)

/-! ### Ordered tasks (08 R193, 13 R276) -/

/-- The ordered task that a context runs. -/
def State.taskOf (s : State) (w : CtxId) : Option (Nat × OTask) :=
  match (s.ctx w).role with
  | .task slot => (kget slot (s.die (dieOf w.core)).tasks).map (fun t => (slot, t))
  | _ => none

def FootRange.holds (r : FootRange) (va : Nat) : Bool := decide (r.base ≤ va) && decide (va < r.base + r.len)
def OTask.mayRead (t : OTask) (va : Nat) : Bool := t.foot.any (fun r => r.r && r.holds va)
def OTask.mayWrite (t : OTask) (va : Nat) : Bool := t.foot.any (fun r => r.w && r.holds va)

/-- The latest buffered write to a byte by an earlier uncommitted task, with that task's core (08 R193). -/
def Die.forwards (d : Die) (t : OTask) (key : Nat) : Option (Byte × Nat) :=
  (d.tasks.foldl (fun (best : Option (OTask × Byte)) e =>
    match kget key e.2.buffer with
    | some b =>
      if decide (e.2.lid = t.lid) && e.2.open_ && tsLess e.2.order t.order && (match best with | some (u, _) => tsLess u.order e.2.order | none => true) then
        some (e.2, b)
      else best
    | none => best) none).map (fun p => (p.2, p.1.home))

/-- One byte that a load takes: its value, whether memory gave it, and the core it was forwarded from. -/
def State.loadByte (s : State) (w : CtxId) (va key : Nat) : Byte × Bool × Option Nat :=
  match s.taskOf w with
  | none => (Memory.read s.mem key, true, none)
  | some (_, t) =>
    if t.mayRead va then
      match kget key t.buffer with
      | some b => (b, false, none)
      | none => match (s.die (dieOf w.core)).forwards t key with
        | some (b, c) => (b, false, some c)
        | none => (Memory.read s.mem key, true, none)
    else (Memory.read s.mem key, true, none)

/-- The bytes a load of a context takes. -/
def State.loadBytes (s : State) (w : CtxId) (va key n : Nat) : List Byte :=
  match (s.ctx w).role with
  | .task _ => (List.range n).map (fun i => (s.loadByte w (va + i) (key + i)).1)
  | _ => Memory.readBytes s.mem key n

/-- The delay that forwarding adds: the network's from the earlier task's core (13 R276). -/
def State.loadDelay (s : State) (w : CtxId) (va key n : Nat) : Nat :=
  match (s.ctx w).role with
  | .task _ => (List.range n).foldl (fun d i =>
      match (s.loadByte w (va + i) (key + i)).2.2 with | some c => max d (s.linkDelay c w.core) | none => d) 0
  | _ => 0

/-- Rows 4 and 5 of 06 R115 on the bytes that memory gives. -/
def State.loadCheck (s : State) (w : CtxId) (a : Access) (va n : Nat) : Option Cause :=
  match (s.ctx w).role with
  | .task _ => if (List.range n).any (fun i => (s.loadByte w (va + i) (a.key + i)).2.1) then s.loadPoison a n else none
  | _ => s.loadPoison a n

/-- Lines free in the spill carve-out, and in the SPILLOVF area (14 R292). -/
def Core.nearRoom (k : Core) : Nat := (0x18000 - k.spillBase - k.spillUsed) / 64
def Core.farRoom (k : Core) : Nat := bits k.spillOvf.toNat 63 48 * 64 - k.ovfUsed.length

/-- The bytes of spill space left. -/
def Core.spillRoom (k : Core) : Nat := 64 * (k.nearRoom + k.farRoom)

/-- The space that a request for n lines is given: the carve-out first, then the lowest free lines of the overflow area (14 R292). -/
def Core.spillFor (k : Core) (n : Nat) : Spill :=
  let near := min n k.nearRoom
  { near := near, far := (((List.range (k.ovfUsed.length + n)).filter (fun l => !k.ovfUsed.contains l)).take (n - near)) }

/-- Takes n bytes of spill space (14 R292); none where the overflow area's addresses do not translate. -/
def State.takeSpill (s : State) (core n : Nat) : State × Option Spill :=
  let sp := (s.core core).spillFor (n / 64)
  match s.spillAccess core .write sp.far with
  | (s, false) => (s, none)
  | (s, true) => (s.modCore core (fun k => { k with spillUsed := k.spillUsed + 64 * sp.near, ovfUsed := k.ovfUsed ++ sp.far }), some sp)

/-- Lines of the overflow area are written, behind the part that lies in the carve-out (13 R272). -/
def State.fillSpill (s : State) (core : Nat) (sp : Spill) (bytes : List Byte) : State :=
  sp.far.zipIdx.foldl (fun s l =>
    match (s.resolve core .write (BitVec.ofNat 64 (bits (s.core core).spillOvf.toNat 47 12 * 4096 + 64 * l.1)) 64).2 with
    | .ok a => s.writePage a.attr a.key ((bytes.drop (64 * (sp.near + l.2))).take 64)
    | .error _ => s) s

/-- Returns spill space. -/
def Core.freeSpill (k : Core) (sp : Spill) : Core :=
  { k with spillUsed := k.spillUsed - 64 * sp.near, ovfUsed := k.ovfUsed.filter (fun l => !sp.far.contains l) }

/-- Pieces of a store: virtual address, cell, bytes. -/
abbrev Pieces := List (Nat × Nat × List Byte)

/-- Writes bytes into a task's buffer. -/
def bufferBytes (m : KMap Byte) (key : Nat) (bs : List Byte) : KMap Byte := (bs.zipIdx).foldl (fun m e => kset (key + e.2) e.1 m) m

/-- The lines of a store that the buffer does not hold yet. -/
def OTask.newLines (t : OTask) (ps : Pieces) : List (Word × Nat) :=
  ps.foldl (fun acc p =>
    let line := (BitVec.ofNat 64 (p.1 / 64 * 64), p.2.1 / 64 * 64)
    if t.buffered.any (fun b => decide (b.va = line.1)) || acc.contains line then acc else acc ++ [line]) []

/-- The buffer with new lines, in ascending order of address, as the commit performs them (15 R311). -/
def OTask.addLines (t : OTask) (lines : List (Word × Nat)) (sp : Spill) : List BufLine :=
  let place (n : Nat) : Spill := if n < sp.near then { near := 1, far := [] } else { near := 0, far := (sp.far.drop (n - sp.near)).take 1 }
  let new : List BufLine := lines.zipIdx.map (fun l => { va := l.1.1, cell := l.1.2, spill := place l.2 })
  (t.buffered ++ new).insertionSort (fun a b => a.va.toNat ≤ b.va.toNat)

/-- A task stores directly into memory from now on; what it stores there replaces what it holds back (13 R276). -/
def OTask.storesDirect (t : OTask) (ps : Pieces) : OTask :=
  { t with direct := true, buffer := t.buffer.filter (fun b => !ps.any (fun p => decide (p.2.1 ≤ b.1) && decide (b.1 < p.2.1 + p.2.2.length))) }

/-- A performed store of a context: unacknowledged until its home reports it (06 R120), at the latency of the access. -/
def State.storeNow (s : State) (w : CtxId) (a : Access) (ps : Pieces) : State :=
  let s := ps.foldl (fun s p => s.storeIssued { a with key := p.2.1 } p.2.2) s
  let s := s.modCtx w (fun c => { c with unacked := c.unacked + 1 })
  if a.beyond then (s.postEnd a.lat (.storeAcknowledge (s.issuer w) true s.mark)).drew
  else s.postEnd a.lat (.storeAcknowledge (s.issuer w) false false)

/-- The hardware reads or writes the lines of the overflow area in which the task that a context runs holds back some of n bytes: whether they
translate (14 R292). -/
def State.heldLines (s : State) (w : CtxId) (kind : AccessKind) (va n : Nat) : State × Bool :=
  match s.taskOf w with
  | none => (s, true)
  | some (_, t) =>
    s.spillAccess w.core kind ((t.buffered.filter (fun b => decide (b.va.toNat < va + n) && decide (va < b.va.toNat + 64))).flatMap (·.spill.far))

/-- A load goes on, unless a line that its task holds back does not translate: then its context is killed (14 R292). -/
def withLines (s : State) (w : CtxId) (va n : Nat) (go : State → Body) : Body :=
  match s.heldLines w .read va n with
  | (s, true) => go s
  | (s, false) => .ended (s.endCtx w true)

/-- The translation of a store. One that an ordered task holds back is no access of its page yet, and sets neither A nor D (21 R376). -/
def State.resolveStore (s : State) (w : CtxId) (va : Word) (n : Nat) : State × Except Cause Access :=
  match s.resolve w.core .write va n with
  | (t, .ok a) => (if (s.taskOf w).isSome then s else t, .ok a)
  | r => r

/-- A store of a context, after rows 1 to 3 of 06 R115: performed, or buffered in an ordered task (08 R193); one for which there is no spill
space waits for the commit point, and from then on the task's stores are performed (13 R276). -/
def storeBody (s : State) (w : CtxId) (va : Word) (a : Access) (ps : Pieces) : Body :=
  match s.taskOf w with
  | none => withPort w.core a s (fun s => .done (s.storeNow w a ps))
  | some (slot, t) =>
    if !ps.all (fun p => (List.range p.2.2.length).all (fun i => t.mayWrite (p.1 + i))) then .trap s { cause := .protection, val := va }
    else
      let lines := t.newLines ps
      if t.direct || decide ((s.core w.core).spillRoom < 64 * max 1 lines.length) then
        if s.isCommitPoint (dieOf w.core) slot then
          withPort w.core a s (fun s =>
            let s := ps.foldl (fun s p => (s.resolve w.core .write (BitVec.ofNat 64 p.1) p.2.2.length).1) s
            .done ((s.modDie (dieOf w.core) (fun d => d.modTask slot (fun t => t.storesDirect ps))).storeNow w a ps))
        else .park s .storeFull
      else
        let (s, held) := ps.foldl (fun (acc : State × Bool) p =>
          if acc.2 then acc.1.heldLines w .write p.1 p.2.2.length else acc) (s, true)
        match if held then s.takeSpill w.core (64 * lines.length) else (s, none) with
        | (s, none) => .ended (s.endCtx w true)
        | (s, some sp) =>
          .done (s.modDie (dieOf w.core) (fun d => d.modTask slot (fun t => { t with
            buffer := ps.foldl (fun m p => bufferBytes m p.2.1 p.2.2) t.buffer
            buffered := t.addLines lines sp
            firstStore := t.firstStore.or (some s.cycle) })))

/-! ### Scalar loads (06 R119, R121, R122) -/

/-- A read of a scalar: rows 1 to 5 of 06 R115, the access, the extended value, and the latency. -/
def State.readScalar (s : State) (w : CtxId) (va : Word) (sz : Size) (sext : Bool) : State × Except Cause (Access × Word × Nat) :=
  let n := sz.bytes
  if va.toNat % n ≠ 0 then (s, .error .misaligned)
  else if 0x18000 ≤ va.toNat && va.toNat < 0x19000 then
    match (s.core w.core).controlRead (va.toNat - 0x18000) with
    | some v =>
      if sz = .d && (s.taskOf w).isNone then
        (s, .ok ({ key := spadCell w.core va.toNat, attr := .raw, lat := 1, spad := none, beyond := false }, v, 1))
      else (s, .error .protection)
    | none => (s, .error .protection)
  else match s.resolve w.core .read va n with
    | (s, .error e) => (s, .error e)
    | (s, .ok a) =>
      match s.loadCheck w a va.toNat n with
      | some e => (s, .error e)
      | none => (s, .ok (a, extend sext sz (leValue (s.loadBytes w va.toNat a.key n)), max a.lat (s.loadDelay w va.toNat a.key n)))

/-- The reply of an access beyond the group, marked or not (14 R300): a free choice. -/
def State.replyOf (s : State) (a : Access) (r : Result) : State × Result :=
  if a.beyond then (s.drew, { r with beyond := true, mark := s.mark }) else (s, r)

/-- An ordinary load (06 R119). -/
def loadBody (d : XReg) (sz : Size) (sext : Bool) (va : Word) (s : State) : Body :=
  let w := s.who
  match s.readScalar w va sz sext with
  | (s, .error e) => .trap s { cause := e, val := va }
  | (s, .ok (a, v, lat)) =>
    withLines s w va.toNat sz.bytes (fun s =>
      withPort w.core a s (fun s =>
        let (s, r) := s.replyOf a (Result.plain (.x d) (v.setWidth 512))
        .done (s.later w lat .load r)))

/-- Keeps a credit for a destination that a parked word writes later, or gives it back. -/
def State.reserveX (s : State) (w : CtxId) (d : XReg) : State :=
  if (s.core w.core).isPort d then (match portOf d with | some p => s.takeCredit w.core p | none => s) else s
def State.unreserveX (s : State) (w : CtxId) (d : XReg) : State :=
  if (s.core w.core).isPort d then
    match portOf d with
    | some p => s.modCore w.core (fun k => let q := k.ports.get p; k.setPort p { q with credits := q.credits + 1 })
    | none => s
  else s

/-- A trap of a word in which the context is parked with destination d. -/
def State.raiseParked (s : State) (w : CtxId) (d : XReg) (t : Trap) : State := (s.unreserveX w d).raise w t

/-- A parked word completes with the value of its x destination. -/
def State.completeX (s : State) (w : CtxId) (d : XReg) (v : Word) (sw : Bool) (from_ : Nat) : State :=
  (s.answerX w d (from_ - 1) v).finishPark w sw from_

/-- The conditions of 04 R82 by number (06 R121). -/
def condOf : Nat → Option Cond
  | 0 => some .eq | 1 => some .ne | 2 => some .lt | 3 => some .ge | 4 => some .gt | 5 => some .le | 6 => some .ltu | 7 => some .geu
  | 8 => some .gtu | 9 => some .leu | 10 => some .any | 11 => some .none | _ => none

/-- A hint word zero-extended, for TRAPVAL (04 R90): kind 2 is `mod`, 3 is `reg`. -/
def hintWord (sw : Bool) (kind : Nat) (data : BitVec 23) : Word :=
  BitVec.ofNat 64 ((if sw then 2 ^ 31 else 0) + 0x7E000000 + kind * 2 ^ 23 + data.toNat)

/-- The data of the pending `mod` and `reg` words; 0 when absent. -/
def Hints.modData (h : Hints) : Nat := match h.mod with | some b => b.toNat | .none => 0
def Hints.regData (h : Hints) : Nat := match h.reg with | some b => b.toNat | .none => 0

/-- A `mod` or `reg` word with an unassigned bit set traps RESERVED_FIELD (04 R90). -/
def Hints.reserved (h : Hints) (modMask regMask : Nat) : Option Trap :=
  if h.modData &&& modMask ≠ h.modData then some { cause := .reservedField, val := hintWord h.modSw 2 (h.mod.getD 0) }
  else if h.regData &&& regMask ≠ h.regData then some { cause := .reservedField, val := hintWord h.regSw 3 (h.reg.getD 0) }
  else .none

/-- The x register that a `reg` word names (06 R121, 05 R109). -/
def Hints.regX (h : Hints) : Option XReg := h.reg.map (fun r => Fin.ofNat 32 (r.toNat % 32))

/-- The hint checks of a load (06 R121). -/
def loadHints (h : Hints) (pc : Word) : Option Trap :=
  let wait := bitAt h.modData 22
  match h.reserved (if wait then 0x40000F else 0x400000) 0x1F with
  | some t => some t
  | none =>
    if (wait && (condOf (h.modData % 16)).isNone) || (!wait && h.reg.isSome) then some { cause := .illegal, val := pc } else none

/-- A wait load at its first read (06 R122). One that fails may be swapped out once the read has completed (17 R339). -/
def waitBody (d : XReg) (sz : Size) (sext : Bool) (sw : Bool) (cond : Cond) (y va : Word) (s : State) : Body :=
  let w := s.who
  match s.readScalar w va sz sext with
  | (s, .error e) => .trap s { cause := e, val := va }
  | (s, .ok (a, v, lat)) =>
    withLines s w va.toNat sz.bytes (fun s => withPort w.core a s (fun s =>
      if condHolds cond v y then
        let (s, r) := s.replyOf a (Result.plain (.x d) (v.setWidth 512))
        .done (s.later w lat .load r)
      else
        .park ((s.reserveX w d).modCtx w (fun c => { c with readyAt := s.cycle + lat + 1 })) (.watch va a.key sz sext cond y d sw)))

/-- The form of `ld`: the comparand's register is a source of a wait load (06 R121); its hint data comes before its operands (04 R90). -/
def ldForm (i : Instr) (sw : Bool) (d a : XReg) (h : Hints) (pc : Word) : Form :=
  { Form.of i sw ([.x a] ++ (if bitAt h.modData 22 then (h.regX.map Dest.x).toList else [])) [.x d] with
    immHints := true, modHints := true, trap := loadHints h pc }

def execLd (sw : Bool) (sz : Size) (sext : Bool) (ord : MemOrd) (d a : XReg) (off : BitVec 10) (s : State) :
    Host.Outcome State Fault Refusal :=
  issue (ldForm (.ld sw sz sext ord d a off) sw d a (s.ctx s.who).hints (s.ctx s.who).pc) (fun l s =>
    let c := s.ctx s.who
    let va := addrM c.hints (op0 l) off sz
    if bitAt c.hints.modData 22 then
      waitBody d sz sext sw ((condOf (c.hints.modData % 16)).getD .eq) (if c.hints.reg.isSome then op1 l else 0) va s
    else loadBody d sz sext va s) s

def execIdxLd (sw : Bool) (sz : Size) (sext : Bool) (ord : MemOrd) (d a b : XReg) (s : State) : Host.Outcome State Fault Refusal :=
  issue (Form.of (.idxLd sw sz sext ord d a b) sw [.x a, .x b] [.x d]) (fun l s =>
    loadBody d sz sext (addrIdx (op0 l) (op1 l) sz) s) s

/-! ### Scalar stores (06 R120) -/

/-- A store of the low bytes of a value (06 R120, 14 R286). -/
def scalarStore (sz : Size) (v va : Word) (s : State) : Body :=
  let w := s.who
  let n := sz.bytes
  if va.toNat % n ≠ 0 then .trap s { cause := .misaligned, val := va }
  else if 0x18000 ≤ va.toNat && va.toNat < 0x19000 then
    if sz = .d && (s.taskOf w).isNone then
      match s.controlStore w.core (va.toNat - 0x18000) v with
      | .error e => .trap s { cause := e, val := va }
      | .ok s => .done ((s.modCtx w (fun c => { c with unacked := c.unacked + 1 })).postEnd 1 (.storeAcknowledge (s.issuer w) false false))
    else .trap s { cause := .protection, val := va }
  else match s.resolveStore w va n with
    | (s, .error e) => .trap s { cause := e, val := va }
    | (s, .ok a) => storeBody s w va a [(va.toNat, a.key, leBytes n v.toNat)]

def execSt (sw : Bool) (sz : Size) (ord : MemOrd) (d a : XReg) (off : BitVec 10) (s : State) : Host.Outcome State Fault Refusal :=
  issue (Form.imm (.st sw sz ord d a off) sw [.x d, .x a] []) (fun l s =>
    scalarStore sz (op0 l) (addrM (s.ctx s.who).hints (op1 l) off sz) s) s

def execIdxSt (sw : Bool) (sz : Size) (ord : MemOrd) (d a b : XReg) (s : State) : Host.Outcome State Fault Refusal :=
  issue (Form.of (.idxSt sw sz ord d a b) sw [.x d, .x a, .x b] []) (fun l s =>
    scalarStore sz (op0 l) (addrIdx (op1 l) (op2 l) sz) s) s

/-! ### Events of loads and stores -/

/-- The port that a result is pushed to as it lands (06 R137). -/
def Result.pushed (r : Result) : Option (Fin 8) :=
  match r.dest with
  | .x d => if r.keep = BitVec.allOnes 512 then portOf d else none
  | _ => none

/-- The write of a variable-latency result at the end of its cycle (01 R18, R20), or its push to a port (14 R297), the reply of an access
beyond the group (14 R301), and what waited for it. -/
def execResultWrite (w : CtxId) (r : Result) (s : State) : Host.Outcome State Fault Refusal :=
  let s := if r.beyond then s.modCore w.core (fun k => k.reply r.mark) else s
  let s := match Result.pushed r with | some p => s.sendPort w.core p (s.cycle - 1) (r.value.setWidth 64) | none => s
  if (s.ctx w).live then .next ((s.modCtx w (fun c => c.land r)).resultsHome w) else .next s

/-- An access of a context is acknowledged, one that it issued after so many arrivals. -/
def Ctx.acked (c : Ctx) (epoch : Nat) : Ctx :=
  { c with unacked := c.unacked - 1, arriveDebt := if epoch < c.epoch then c.arriveDebt - 1 else c.arriveDebt }

def Orphan.acked (o : Orphan) (epoch : Nat) : Orphan :=
  { o with unacked := o.unacked - 1, debt := if epoch < o.epoch then o.debt - 1 else o.debt }

/-- The same for a context that is not live in a slot: swapped out, or ended. -/
def State.ackElsewhere (s : State) (i : Issuer) : State :=
  s.modCore i.slot.core (fun k => { k with
    swapped := k.swapped.map (fun x => if x.ctx.serial = i.serial then { x with ctx := x.ctx.acked i.epoch } else x)
    orphans := (k.orphans.map (fun o => if o.serial = i.serial then o.acked i.epoch else o)).filter (fun o => decide (o.unacked ≠ 0)) })

/-- An acknowledged access (06 R120): the count of its context falls, and what its core's arrivals waited for may be performed (15 R313). -/
def State.acknowledge (s : State) (i : Issuer) : State :=
  let t := match s.issuing i with
    | some w => s.modCtx w (fun c => c.acked i.epoch)
    | none => s.ackElsewhere i
  if !s.arrivalsClear i.slot.core && t.arrivalsClear i.slot.core then t.sendArrivals i.slot.core else t

def execStoreAcknowledge (i : Issuer) (beyond mark : Bool) (s : State) : Host.Outcome State Fault Refusal :=
  .next ((if beyond then s.modCore i.slot.core (fun k => k.reply mark) else s).acknowledge i)

/-! ### Watches (06 R122, 08 R180) -/

/-- What a watch waits for: address, cell, width, extension, condition, comparand. -/
def Park.watching (p : Park) : Option (Word × Nat × Size × Bool × Cond × Word) :=
  match p with
  | .watch va key sz sext cond y _ _ => some (va, key, sz, sext, cond, y)
  | .joining va key _ => some (va, key, .d, false, .eq, 0)
  | _ => .none

/-- The core cycle from which the context of a load that a re-read satisfies may issue: the value comes back over the load's window (17 R339,
18 R345). -/
def Access.backAt (a : Access) (ready : Nat) : Nat := ready + (if a.beyond then a.lat / 2 else a.lat) - 1

/-- A wait load that lies beyond the group: it is counted until it is answered (14 R301). -/
def Park.far (p : Park) : Bool := match p with | .watch va .. => decide (0x2000000 ≤ va.toNat) | _ => false

/-- Its answer is a reply. -/
def State.answeredFar (s : State) (core : Nat) (p : Park) : State :=
  if p.far then (s.modCore core (fun k => k.reply s.mark)).drew else s

/-- The home reads again for one watch of a context in its slot (06 R122). -/
def State.reread (s : State) (key ready : Nat) (w : CtxId) : State :=
  match (s.ctx w).park.watching with
  | none => s
  | some (va, k, sz, sext, cond, y) =>
    if k / 64 ≠ key / 64 then s
    else match s.readScalar w va sz sext with
      | (s, .error e) =>
        let s := s.answeredFar w.core (s.ctx w).park
        match (s.ctx w).park with
        | .watch _ _ _ _ _ _ d _ => s.raiseParked w d { cause := e, val := va }
        | _ => s.raise w { cause := e, val := va }
      | (s, .ok (a, v, _)) =>
        if condHolds cond v y then
          let s := s.answeredFar w.core (s.ctx w).park
          match (s.ctx w).park with
          | .watch _ _ _ _ _ _ d sw => s.completeX w d v sw (a.backAt ready)
          | .joining _ _ sw => s.finishPark w sw (a.backAt ready)
          | _ => s
        else s

/-- The read of a swapped-out context: one of its core, in its role. -/
def State.readSwapped (s : State) (core : Nat) (x : Swapped) (va : Word) (sz : Size) (sext : Bool) : State × Except Cause (Access × Word × Nat) :=
  let w : CtxId := { core := core, ctx := x.slot }
  let was := s.ctx w
  let (t, r) := (s.setCtx w x.ctx).readScalar w va sz sext
  (t.setCtx w was, r)

/-- The home reads again for a swapped-out context (13 R273): the record's copy of x[d] takes the value, and the context
becomes a resume. -/
def State.rereadSwapped (s : State) (key ready core : Nat) (x : Swapped) : State × Swapped :=
  match x.ctx.park.watching with
  | none => (s, x)
  | some (va, k, sz, sext, cond, y) =>
    if k / 64 ≠ key / 64 || x.resume.isSome then (s, x)
    else match s.readSwapped core x va sz sext with
      | (s, .error e) => (s.answeredFar core x.ctx.park, { x with resume := some (ready - 1), ctx := { x.ctx with park := .trap { cause := e, val := va } } })
      | (s, .ok (a, v, _)) =>
        if condHolds cond v y then
          let d := match x.ctx.park with | .watch _ _ _ _ _ _ d _ => d | _ => 0
          let sw := match x.ctx.park with | .watch _ _ _ _ _ _ _ sw | .joining _ _ sw => sw | _ => false
          let c := x.ctx.retire s.cycle sw (seqNext x.ctx.pc) false
          let age := a.backAt ready - 1
          let s := s.answeredFar core x.ctx.park
          if (s.core core).isPort d then
            (match portOf d with | some p => s.sendPort core p age v | none => s, { x with resume := some age, ctx := c })
          else (s, { x with resume := some age, ctx := c.setX d v })
        else (s, x)

def State.rereadCore (s : State) (key ready core : Nat) : State :=
  let s := (List.finRange 11).foldl (fun s c =>
    if (s.ctx { core := core, ctx := c }).live then s.reread key ready { core := core, ctx := c } else s) s
  let (s, l) := (s.core core).swapped.foldl (fun (acc : State × List Swapped) x =>
    let (s, x) := acc.1.rereadSwapped key ready core x
    (s, acc.2 ++ [x])) (s, [])
  if l.isEmpty then s else s.modCore core (fun k => { k with swapped := l })

/-- A write on a watched line: every watch of the line reads again (06 R122), in ascending core and slot order. -/
def execWatchReevaluate (l : WatchLook) (s : State) : Host.Outcome State Fault Refusal :=
  .next ((s.cores.map (·.1)).foldl (fun s c => s.rereadCore l.addr l.ready c) s)

/-- Trap entry as an event (10 R237). -/
def execTrapEntry (w : CtxId) (t : Trap) (s : State) : Host.Outcome State Fault Refusal :=
  if (s.ctx w).live then .next (s.enterTrap w t) else .next s

end Sys2Proof.Machine
end

