-- ==== Sys2Proof/Machine/Atomics.lean ====
section
/-! DEFINITION. Atomic operations (06 R126 to R129, 14 R302) and reader-writer locks (06 R130 to R133). -/

namespace Sys2Proof

/-- Requests that routers may merge (06 R126, R128). -/
def AtomicReq.mergeable (r : AtomicReq) : Bool := r.dest.isNone && decide (r.op ≠ .swap) && decide (r.op ≠ .cas)

/-- Requests of equal address, op and sz (06 R128). -/
def AtomicReq.alike (a b : AtomicReq) : Bool :=
  a.mergeable && b.mergeable && decide (a.addr = b.addr) && decide (a.op = b.op) && decide (a.sz = b.sz)

/-- The request joins a bundle on its way (14 R302). -/
def AtomicReq.join (a b : AtomicReq) : AtomicReq := { a with more := a.more ++ b.operand :: b.more, members := a.members ++ b.members }

/-- The die whose router holds a lock word. -/
def LockReq.home (r : LockReq) : Nat :=
  match Machine.spadOf r.addr with | some (c, _) => Machine.dieOf c | none => r.owner.getD (Machine.homeDie r.va.toNat)
/-- Two requests wait at one home router (06 R133): that of a scratchpad's core, or that beside the die's DRAM. -/
def LockReq.sameRouter (a b : LockReq) : Bool :=
  match Machine.spadOf a.addr, Machine.spadOf b.addr with
  | some (c, _), some (d, _) => decide (c = d)
  | none, none => decide (a.home = b.home)
  | _, _ => false

end Sys2Proof

namespace Sys2Proof.Machine

/-! ### amo -/

/-- The exact sum of FP32 contributions, with the infinity and NaN rules of 03 R75. -/
def faddSum (bs : List Nat) : FVal :=
  let parts := bs.map accOf
  let nan := parts.any (fun p => p.2.1)
  let pinf := parts.any (fun p => p.2.2.1)
  let ninf := parts.any (fun p => p.2.2.2)
  if nan || (pinf && ninf) then .nan
  else if pinf then .inf false
  else if ninf then .inf true
  else
    let v := parts.foldl (fun a p => a + p.1) (0 : Int)
    .fin (decide (v < 0)) v.natAbs (-149)

/-- The new value of an integer operation on n-bit values (06 R126). -/
def amoInt (op : AmoOp) (n old b c : Nat) : Nat :=
  match op with
  | .add => (old + b) % 2 ^ n
  | .and => old &&& b
  | .or => old ||| b
  | .xor => old ^^^ b
  | .min => if sintN n b < sintN n old then b else old
  | .max => if sintN n old < sintN n b then b else old
  | .minu => min old b
  | .maxu => max old b
  | .swap => b
  | .cas => if old = c then b else old
  | .fadd => old

/-- The new value at Ad for a request, or for a bundle of operands (06 R126, R128). -/
def amoNew (op : AmoOp) (sz : Size) (old : Nat) (bs : List Nat) (c : Nat) : Nat :=
  match op with
  | .fadd =>
    let s := match bs with | [b] => fp32.decode b | _ => faddSum bs
    let o := fp32.decode old
    (fp32.deliver .rne (o.isNan || s.isNan) (o.add s)).bits
  | op => bs.foldl (fun o b => amoInt op (8 * sz.bytes) o b c) old

/-- Requests to a doubleword on their way. -/
def AtomicReq.meets (b : AtomicReq) (e : Nat × Instr) : Bool :=
  match e.2 with | .amoHomeApply a => decide (a.addr / 8 = b.addr / 8) | _ => false

/-- Joins an alike request on its way, in its place, if there is one that reaches its home from the core cycle given on and has no other request to its
doubleword behind it (15 R315). -/
def joinFlight (b : AtomicReq) (from_ : Nat) : List (Nat × Instr) → Option (AtomicReq × List (Nat × Instr))
  | [] => none
  | (d, i) :: rest =>
    match i with
    | .amoHomeApply a =>
      if a.alike b && decide (from_ ≤ d) && !rest.any (fun e => AtomicReq.meets b e) then some (a.join b, (d, .amoHomeApply (a.join b)) :: rest)
      else (joinFlight b from_ rest).map (fun p => (p.1, (d, i) :: p.2))
    | _ => (joinFlight b from_ rest).map (fun p => (p.1, (d, i) :: p.2))

/-- A request of the context on its way to its home. -/
def inFlightOf (w : CtxId) (e : Nat × Instr) : Bool :=
  match e.2 with | .amoHomeApply r => r.members.any (fun m => decide (m.slot = w)) | _ => false

/-- The requests of a context on their way, with those to the same doublewords that stand before them (15 R315), and what else is due. -/
def hurried (w : CtxId) : List (Nat × Instr) → List (Nat × Instr) × List (Nat × Instr)
  | [] => ([], [])
  | e :: rest =>
    let (now, later) := hurried w rest
    let goes := inFlightOf w e || (match e.2 with | .amoHomeApply a => now.any (fun x => AtomicReq.meets a x) | _ => false)
    if goes then (e :: now, later) else (now, e :: later)

/-- Requests on their way are performed before a later word of their context that could see their absence (15 R307, R315). -/
def State.hurry (s : State) (w : CtxId) : State :=
  let (now, rest) := hurried w s.agenda
  { s with agenda := now.map (fun e => (s.cycle, e.2)) ++ rest }

/-- A posted request leaves for its home. A relaxed one beyond the group is on its way for the access's latency; every other is
performed at once. It may be merged with an alike one on its way (14 R302): a free choice. -/
def State.sendPosted (s : State) (r : AtomicReq) (ord : MemOrd) (a : Access) : State :=
  let slow := a.beyond && decide (ord = .rlx)
  let r := { r with reply := if slow then 1 else a.lat }
  let due := if slow then s.cycle + a.lat else s.cycle
  match (if a.beyond && s.freeBool then joinFlight r (s.cycle + 8) s.agenda else none) with
  | some (b, rest) =>
    -- A bundle counts once towards the window of each of its cores.
    let again := 1 < b.members.countP (fun m => decide (m.slot.core = r.who.slot.core))
    let s := if again then s.modCore r.who.slot.core (fun k => { k with beyond := k.beyond - 1 }) else s
    { s with agenda := rest }.drew
  | none =>
    (s.postOrdered due (.amoHomeApply r) (fun i => match i with
      | .amoHomeApply b => decide (b.addr / 8 = r.addr / 8)
      | _ => false)).drew

/-- An atomic word (06 R126 to R129): the checks of 06 R115, then the request. `C` is x[d] as read at issue. -/
def amoBody (op : AmoOp) (sz : Size) (ord : MemOrd) (d : XReg) (C va B : Word) (s : State) : Body :=
  let w := s.who
  let n := sz.bytes
  if va.toNat % n ≠ 0 then .trap s { cause := .misaligned, val := va }
  else match s.resolve w.core .atomic va n with
    | (s, .error e) => .trap s { cause := e, val := va }
    | (s, .ok a) =>
      let r : AtomicReq := { op := op, sz := sz, addr := a.key, va := va, operand := B, compare := C, more := [], who := s.issuer w
                             dest := if d = 0 then none else some d, members := [s.issuer w]
                             reply := if a.beyond then a.lat else a.lat + 1, format := a.attr.format, beyond := a.beyond }
      if d ≠ 0 && s.poisoned a.key n then .trap s { cause := .poison, val := va }
      else withPort w.core a s (fun s =>
        if d = 0 then .done ((s.modCtx w (fun c => { c with unacked := c.unacked + 1 })).sendPosted r ord a)
        else .done ((s.awaitX w .atomic d).post s.cycle (.amoHomeApply r)))

/-- An amo word with operands a and b. -/
def amoOp (i : Instr) (sw : Bool) (op : AmoOp) (sz : Size) (ord : MemOrd) (d a b : XReg) (s : State) : Host.Outcome State Fault Refusal :=
  issue { Form.of i sw [.x a, .x b] [.x d] with inTask := false } (fun l s => amoBody op sz ord d 0 (op0 l) (op1 l) s) s

def execAmoAdd (sw : Bool) (sz : Size) (ord : MemOrd) (d a b : XReg) (s : State) := amoOp (.amoAdd sw sz ord d a b) sw .add sz ord d a b s
def execAmoAnd (sw : Bool) (sz : Size) (ord : MemOrd) (d a b : XReg) (s : State) := amoOp (.amoAnd sw sz ord d a b) sw .and sz ord d a b s
def execAmoOr (sw : Bool) (sz : Size) (ord : MemOrd) (d a b : XReg) (s : State) := amoOp (.amoOr sw sz ord d a b) sw .or sz ord d a b s
def execAmoXor (sw : Bool) (sz : Size) (ord : MemOrd) (d a b : XReg) (s : State) := amoOp (.amoXor sw sz ord d a b) sw .xor sz ord d a b s
def execAmoMin (sw : Bool) (sz : Size) (ord : MemOrd) (d a b : XReg) (s : State) := amoOp (.amoMin sw sz ord d a b) sw .min sz ord d a b s
def execAmoMax (sw : Bool) (sz : Size) (ord : MemOrd) (d a b : XReg) (s : State) := amoOp (.amoMax sw sz ord d a b) sw .max sz ord d a b s
def execAmoMinu (sw : Bool) (sz : Size) (ord : MemOrd) (d a b : XReg) (s : State) := amoOp (.amoMinu sw sz ord d a b) sw .minu sz ord d a b s
def execAmoMaxu (sw : Bool) (sz : Size) (ord : MemOrd) (d a b : XReg) (s : State) := amoOp (.amoMaxu sw sz ord d a b) sw .maxu sz ord d a b s
def execAmoFadd (sw : Bool) (sz : Size) (ord : MemOrd) (d a b : XReg) (s : State) := amoOp (.amoFadd sw sz ord d a b) sw .fadd sz ord d a b s
def execAmoSwap (sw : Bool) (sz : Size) (ord : MemOrd) (d a b : XReg) (s : State) := amoOp (.amoSwap sw sz ord d a b) sw .swap sz ord d a b s
/-- `cas` also reads x[d] (06 R126), in field order before a and b. -/
def execAmoCas (sw : Bool) (sz : Size) (ord : MemOrd) (d a b : XReg) (s : State) : Host.Outcome State Fault Refusal :=
  issue { Form.of (.amoCas sw sz ord d a b) sw [.x d, .x a, .x b] [.x d] with inTask := false } (fun l s =>
    amoBody .cas sz ord d (op0 l) (op1 l) (op2 l) s) s

/-! ### rwl (06 R130 to R133) -/

/-- The fields of a lock word (06 R130). -/
def lockWpref (x : Nat) : Bool := bitAt x 63
def lockWheld (x : Nat) : Bool := bitAt x 62
def lockWwait (x : Nat) : Nat := bits x 61 40
def lockReaders (x : Nat) : Nat := bits x 31 0

/-- The evaluation of a request on a lock word (06 R132): whether it is granted, the new word, the counted bit. -/
def lockEval (op : LockOp) (noWait counted : Bool) (x : Nat) : Bool × Nat × Bool :=
  match op with
  | .racq =>
    if !lockWheld x && !(lockWpref x && decide (0 < lockWwait x)) then (true, x + 1, counted) else (false, x, counted)
  | .wacq =>
    if !lockWheld x && decide (lockReaders x = 0) then (true, x + 2 ^ 62 - (if counted then 2 ^ 40 else 0), counted)
    else if !noWait && !counted then (false, x + 2 ^ 40, true)
    else (false, x, counted)
  | .rrel => if 0 < lockReaders x then (true, x - 1, counted) else (false, x, counted)
  | .wrel => if lockWheld x then (true, x - 2 ^ 62, counted) else (false, x, counted)

/-- A granted blocking request: its context goes on once the reply has arrived. -/
def State.grant (s : State) (r : LockReq) : State :=
  s.modCtx r.who (fun c => match c.park with
    | .lock d _ b sw => { c with park := .lock d (some (s.cycle + r.reply + 1)) b sw }
    | _ => c)

/-- Writes the lock word of a request. -/
def State.writeLock (s : State) (r : LockReq) (y : Nat) : State :=
  s.writePage { Attr.raw with format := r.format } r.addr (leBytes 8 y)

/-- Performs the evaluation of a request: the new word is written only if it differs. -/
def State.evalLock (s : State) (r : LockReq) : State × Bool × Bool :=
  let x := s.peek r.addr 8
  let (ok, y, counted) := lockEval r.op r.noWait r.counted x
  (if x = y then s else s.writeLock r y, ok, counted)

/-- A request whose lock word is poisoned when its home evaluates it traps in its parked context (23 R407). -/
def State.lockPoisoned (s : State) (r : LockReq) : State :=
  match (s.ctx r.who).park with
  | .lock d _ _ _ => s.raiseParked r.who d { cause := .poison, val := r.va }
  | _ => s

/-- A blocking request at its home: granted, waiting, or sent back from a full list of 16 (06 R132, R133). -/
def State.lockArrives (s : State) (r : LockReq) : State :=
  let (s, ok, counted) := s.evalLock r
  let r := { r with counted := counted }
  if ok then s.grant r
  else
    let d := s.die r.home
    if 16 ≤ (d.locks.filter (fun q => q.sameRouter r)).length then s.post (s.cycle + r.reply + 64) (.lockResend r)
    else s.setDie r.home { d with locks := d.locks ++ [r] }

def execLockResend (r : LockReq) (s : State) : Host.Outcome State Fault Refusal :=
  .next (if s.poisoned r.addr 8 then s.lockPoisoned r else s.lockArrives r)

/-- The home evaluates the requests that wait on a lock word again, in order of arrival (06 R133). -/
def execLockReevaluate (addr : Nat) (s : State) : Host.Outcome State Fault Refusal :=
  .next ((s.dies.flatMap (fun d => d.2.locks.filter (fun r => decide (r.addr / 8 = addr / 8)))).foldl (fun s r =>
    let leaves (s : State) : State := s.modDie r.home (fun d => { d with locks := d.locks.filter (fun q => decide (q.who ≠ r.who)) })
    if s.poisoned r.addr 8 then (leaves s).lockPoisoned r
    else
      let (s, ok, _) := s.evalLock r
      if ok then (leaves s).grant r else s) s)

/-- Cancels the waiting request of a context; the home reverses its WWAIT count first (06 R133). -/
def State.cancelLock (s : State) (w : CtxId) : State :=
  match s.dies.findSome? (fun d => (d.2.locks.find? (fun r => decide (r.who = w))).map (fun r => (d.1, r))) with
  | some (d, r) =>
    let s := s.modDie d (fun k => { k with locks := k.locks.filter (fun q => decide (q.who ≠ w)) })
    if r.counted then s.writeLock r (s.peek r.addr 8 - 2 ^ 40) else s
  | none =>
    match s.agenda.findSome? (fun e => match e.2 with | .lockResend r => if r.who = w then some r else none | _ => none) with
    | some r =>
      let s := { s with agenda := s.agenda.filter (fun e => match e.2 with | .lockResend q => decide (q.who ≠ w) | _ => true) }
      if r.counted then s.writeLock r (s.peek r.addr 8 - 2 ^ 40) else s
    | none => s

/-- The x destination that a parked word keeps a credit for. -/
def Park.dest (p : Park) : Option XReg :=
  match p with
  | .watch _ _ _ _ _ _ d _ | .lock d _ _ _ | .gangLead _ d _ | .gangFollow _ d _ | .mxRead _ _ _ d _ | .mxGang d _ _ | .jobSub _ _ _ d _
  | .jobWait _ d _ | .launching _ _ _ d _ | .migrating _ d _ | .otaskSub _ _ _ d _ | .cxDef _ _ _ d _ | .cxSample _ _ d _ _ | .srDrain _ d _
  | .frBoard _ _ _ d _ | .pier d _ | .redTree _ _ _ d _ | .redPut _ _ d _ | .redWait _ _ d _ | .gate _ _ d _ => some d
  | _ => Option.none

/-- Requests on their way to a pier for a context are withdrawn. -/
def dropPier (w : CtxId) (l : List (Nat × Instr)) : List (Nat × Instr) :=
  l.filter (fun e => match e.2 with
    | .boardingRequest r => decide (r.who ≠ w)
    | .cancelRequest v _ _ => decide (v ≠ w)
    | _ => true)

/-- The word in which a context is parked ends with no effect; the context stands at it again (20 R360), or at the first word of its hint
group, which it issues again (06 R123). -/
def State.cancelPark (s : State) (w : CtxId) : State :=
  let p := (s.ctx w).park
  let s := s.unpop w
  let s := match p.dest with | some d => s.unreserveX w d | none => s
  let s := match p with
    | .patCfg .. => s.modCore w.core (fun k => { k with patchLoading := false })
    | .lock .. => s.cancelLock w
    | .watch .. => if p.far then s.modCore w.core (fun k => { k with beyond := k.beyond - 1 }) else s
    | .pier .. => { s with agenda := dropPier w s.agenda }
    | .mxGang _ false _ => s.withdrawGang w.core
    | _ => s
  s.modCtx w (fun c => { c with park := .none, pc := c.wordPc, hints := .none })

/-- A lock word (06 R131, R132): blocking acquires park until they are granted. -/
def rwlOp (i : Instr) (sw : Bool) (op : LockOp) (noWait : Bool) (d a : XReg) (s : State) : Host.Outcome State Fault Refusal :=
  issue { Form.of i sw [.x a] [.x d] with inTask := false } (fun l s =>
    let w := s.who
    let va := op0 l
    if va.toNat % 8 ≠ 0 then .trap s { cause := .misaligned, val := va }
    else match s.resolve w.core .lock va 8 with
      | (s, .error e) => .trap s { cause := e, val := va }
      | (s, .ok a) =>
        if s.poisoned a.key 8 then .trap s { cause := .poison, val := va }
        else withPort w.core a s (fun s =>
          let reply := if a.beyond then a.lat else a.lat + 1
          let r : LockReq := { op := op, noWait := noWait, addr := a.key, va := va, who := w, dest := d, counted := false, reply := reply
                               beyond := a.beyond, format := a.attr.format, owner := a.owner }
          let answer (s : State) : Body :=
            let (s, ok, _) := s.evalLock r
            let (s, res) := s.replyOf a (Result.plain (.x d) ((flagWord ok).setWidth 512))
            .done (s.later w reply .atomic res)
          match op with
          | .rrel | .wrel => answer s
          | .racq | .wacq =>
            if noWait then answer s
            else
              let s := (s.reserveX w d).modCtx w (fun c => { c with park := .lock d none a.beyond sw })
              let s := s.lockArrives r
              .park s (s.ctx w).park)) s

def execRwlRacq (sw noWait : Bool) (d a : XReg) (s : State) := rwlOp (.rwlRacq sw noWait d a) sw .racq noWait d a s
def execRwlRrel (sw : Bool) (d a : XReg) (s : State) := rwlOp (.rwlRrel sw d a) sw .rrel false d a s
def execRwlWacq (sw noWait : Bool) (d a : XReg) (s : State) := rwlOp (.rwlWacq sw noWait d a) sw .wacq noWait d a s
def execRwlWrel (sw : Bool) (d a : XReg) (s : State) := rwlOp (.rwlWrel sw d a) sw .wrel false d a s

/-! ### Answers (06 R127, R129; 08 R187) -/

/-- Where the context that issued an access is: in a slot, swapped out (13 R272), or in a register-context message (08 R187). -/
inductive Place where
  | slot (w : CtxId)
  | record (core n : Nat)
  | message (core n : Nat)
  deriving DecidableEq, Repr

def State.placeOf (s : State) (i : Issuer) : Option Place :=
  match s.issuing i with
  | some w => some (.slot w)
  | none => s.cores.findSome? (fun c =>
    match (List.finRange 11).find? (fun n => (c.2.ctxs.get n).live && decide ((c.2.ctxs.get n).serial = i.serial)) with
    | some n => some (.slot { core := c.1, ctx := n })
    | none =>
      match c.2.swapped.findIdx? (fun x => decide (x.ctx.serial = i.serial)) with
      | some n => some (.record c.1 n)
      | none => (c.2.arrivals.findIdx? (fun m => decide (m.ctx.serial = i.serial))).map (fun n => .message c.1 n))

/-- Changes a context that stands in no slot. -/
def State.modAway (s : State) (p : Place) (f : Ctx → Ctx) : State :=
  match p with
  | .slot w => s.modCtx w f
  | .record c n => s.modCore c (fun k => { k with swapped := k.swapped.modify n (fun x => { x with ctx := f x.ctx }) })
  | .message c n => s.modCore c (fun k => { k with arrivals := k.arrivals.modify n (fun m => { m with ctx := f m.ctx }) })

/-- The context stands at the word of an outstanding destination again, whose access traps (10 R238). -/
def Ctx.faulted (c : Ctx) (d : Dest) : Ctx :=
  match c.outstanding.find? (fun o => decide (o.dest = d)) with
  | some o => { c with outstanding := dropOut d c.outstanding, pc := o.pc, hints := o.hints }
  | none => c

/-- The trap of an access whose result is outstanding (06 R129; 23 R409): the word that the context is parked in ends with no effect. -/
def State.faultResult (s : State) (w : CtxId) (d : Dest) (t : Trap) : State := ((s.cancelPark w).modCtx w (fun c => c.faulted d)).raise w t

/-- The reply of an atomic to its destination (06 R127). -/
def State.atomicReply (s : State) (r : AtomicReq) (w : CtxId) (d : XReg) (old : Nat) : State :=
  let v : Word := BitVec.ofNat 64 old
  let res : Result := { Result.plain (.x d) (v.setWidth 512) with beyond := r.beyond, mark := r.beyond && s.mark }
  let s := if r.beyond then s.drew else s
  s.postEnd r.reply (.resultWrite w (if (s.core w.core).isPort d then Result.sent res else res))

/-- The reply to a context that has left its slot is kept for it; its core's window counter takes it now (14 R301). -/
def State.keepReply (s : State) (r : AtomicReq) (p : Place) (d : XReg) (old : Nat) : State :=
  let res := Result.plain (.x d) (BitVec.ofNat 512 old)
  let s := if r.beyond then (s.modCore r.who.slot.core (fun k => k.reply s.mark)).drew else s
  match p with
  | .message c n =>
    (s.modCore c (fun k => { k with arrivals := k.arrivals.modify n (fun m =>
      { m with pending := m.pending ++ [(s.cycle + r.reply + 1 + s.linkDelay r.who.slot.core c, res)] }) })).drew
  | p => s.modAway p (fun x => x.land res)

/-- The outcome of a send is written (06 R139), wherever the sender is. -/
def execSendOutcome (i : Issuer) (d : XReg) (outcome : Nat) (s : State) : Host.Outcome State Fault Refusal :=
  let r := Result.plain (.x d) (BitVec.ofNat 512 outcome)
  match s.placeOf i with
  | some (.slot w) =>
    let port := (s.core w.core).isPort d
    let s := if port then s.answerX w d (s.cycle - 1) (BitVec.ofNat 64 outcome) else s
    .next ((s.modCtx w (fun c => c.land (if port then Result.sent r else r))).resultsHome w)
  | some p => .next (s.modAway p (fun c => c.land r))
  | none => .next s

/-- Acknowledges every member of a posted bundle (06 R120), which is one packet, with one MARK, and one reply to each of its cores (14 R302). -/
def State.ackMembers (s : State) (r : AtomicReq) : State :=
  (r.members.foldl (fun (acc : State × List Nat) m =>
    let first := r.beyond && !acc.2.contains m.slot.core
    (acc.1.postEnd r.reply (.storeAcknowledge m first (first && s.mark)), m.slot.core :: acc.2)) (s, [])).1.drew

/-- The home performs a request or a bundle as one read-modify-write (06 R127, R128); one that finds poison leaves memory
unchanged (06 R129). -/
def execAmoHomeApply (r : AtomicReq) (s : State) : Host.Outcome State Fault Refusal :=
  let n := r.sz.bytes
  if s.poisoned r.addr n then
    let t : Trap := { cause := .poison, val := r.va }
    match r.dest with
    | some d =>
      match s.placeOf r.who with
      | some (.slot w) => .next ((s.unreserveX w d).faultResult w (.x d) t)
      | some p => .next (s.modAway p (fun c => { c.faulted (.x d) with park := .trap t }))
      | none => .next s
    | none => .next (r.members.foldl (fun s m => s.postEnd r.reply (.postedPoisonTrap m r.va)) (s.ackMembers r))
  else
    let old := s.peek r.addr n
    let new := amoNew r.op r.sz old ((r.operand :: r.more).map (fun b => b.toNat % 2 ^ (8 * n))) (r.compare.toNat % 2 ^ (8 * n))
    let s := (s.writeMemAfter (r.reply + 1) r.addr (leBytes n new)).zeroMap { Attr.raw with format := r.format } r.addr n
    match r.dest with
    | some d =>
      match s.placeOf r.who with
      | some (.slot w) => .next (s.atomicReply r w d old)
      | some p => .next (s.keepReply r p d old)
      | none => .next s
    | none => .next (s.ackMembers r)

/-- Delivers a poisoned acknowledgement, if the context stands between words (06 R129). -/
def State.deliverPoison (s : State) (w : CtxId) : State :=
  let c := s.ctx w
  match c.poisonAcks with
  | [] => s
  | va :: rest =>
    if c.live && (decide (c.park = .none) || decide (c.park = .marker)) then
      (s.modCtx w (fun c => { c with poisonAcks := rest })).raise w { cause := .poison, val := va }
    else s

/-- A poisoned acknowledgement arrives (06 R129): the trap of the context that issued the request comes at its next instruction boundary;
a context that has ended takes none. -/
def execPostedPoisonTrap (i : Issuer) (va : Word) (s : State) : Host.Outcome State Fault Refusal :=
  let owe (c : Ctx) : Ctx := { c with poisonAcks := c.poisonAcks ++ [va] }
  match s.placeOf i with
  | some (.slot w) => .next ((s.modCtx w owe).deliverPoison w)
  | some p => .next (s.modAway p owe)
  | none => .next s

end Sys2Proof.Machine
end

