-- ==== Sys2Proof/Machine/Sync.lean ====
section
/-! DEFINITION. Fences (06 R134, R135), queue ports and messages (06 R136 to R141; 14 R293, R294, R297), barriers (06 R142 to
R148) and the vertical FIFO (06 R149 to R151). -/

namespace Sys2Proof.Machine

/-! ### fence -/

/-- The conditions of 06 R135 on a context. -/
def fenceMet (k : FenceKind) (c : Ctx) : Bool :=
  let rel := decide (c.unacked = 0) && c.outstanding.all (fun o => decide (o.by_ ≠ .atomic))
  let acq := c.outstanding.all (fun o => decide (o.by_ ≠ .atomic) && decide (o.by_ ≠ .load))
  match k with | .rel => rel | .acq => acq | .ar => rel && acq

def fenceOp (i : Instr) (sw : Bool) (k : FenceKind) (scope : Scope) (s : State) : Host.Outcome State Fault Refusal :=
  issue (Form.of i sw [] []) (fun _ s => if fenceMet k (s.ctx s.who) then .done s else .park s (.fence k scope sw)) s

def execFenceAcq (sw : Bool) (scope : Scope) (s : State) := fenceOp (.fenceAcq sw scope) sw .acq scope s
def execFenceRel (sw : Bool) (scope : Scope) (s : State) := fenceOp (.fenceRel sw scope) sw .rel scope s
def execFenceAr (sw : Bool) (scope : Scope) (s : State) := fenceOp (.fenceAr sw scope) sw .ar scope s

/-! ### Queue ports -/

/-- The port that the b field names (06 R136). -/
def portField (b : XReg) : Fin 8 := (portOf b).getD 0

/-- Drops what is on its way to a port. -/
def clearFlight (core : Nat) (p : Fin 8) (l : List (Nat × Instr)) : List (Nat × Instr) :=
  l.filter (fun e => match e.2 with
    | .queueEntryArrival c q _ => !(decide (c = core) && decide (q = p))
    | .creditReturn c q => !(decide (c = core) && decide (q = p))
    | _ => true)

/-- How many entries are on their way to a port. -/
def entriesInFlight (core : Nat) (p : Fin 8) (l : List (Nat × Instr)) : Nat :=
  (l.filter (fun e => match e.2 with | .queueEntryArrival c q _ => decide (c = core) && decide (q = p) | _ => false)).length

/-- A port of a new pair (06 R137). -/
def Port.paired_ (q : Port) : Port := { q with paired := true, fifo := [], credits := 8, capacity := 8, spill := .none }

def State.modPort (s : State) (core : Nat) (p : Fin 8) (f : Port → Port) : State :=
  s.modCore core (fun k => k.setPort p (f (k.ports.get p)))

/-- Returns the space that a port's FIFO has been enlarged by (14 R299). -/
def State.freePort (s : State) (core : Nat) (p : Fin 8) : State := s.modCore core (fun k => k.freeSpill (k.ports.get p).spill)

def execMsgBind (sw : Bool) (a b : XReg) (s : State) : Host.Outcome State Fault Refusal :=
  issue { Form.of (.msgBind sw a b) sw [.x a] [] with inTask := false } (fun l s =>
    let core := s.who.core
    let desc := op0 l
    let n := portField b
    let peer := bits desc.toNat 17 0
    let m : Fin 8 := Fin.ofNat 8 (bits desc.toNat 20 18)
    if bits desc.toNat 63 21 ≠ 0 then .trap s { cause := .illegal, val := desc }
    else if !s.inBerth core peer then .trap s { cause := .protection, val := desc }
    else if ((s.core core).ports.get n).bound then .trap s { cause := .illegal, val := desc }
    else
      let s := s.modPort core n (fun _ => { Port.reset with bound := true, peerCore := peer, peerPort := m })
      let q := (s.core peer).ports.get m
      if q.bound && decide (q.peerCore = core) && decide (q.peerPort = n) then
        let s := { s with agenda := clearFlight peer m (clearFlight core n s.agenda) }
        .done (((s.modPort core n Port.paired_).freePort peer m).modPort peer m Port.paired_)
      else .done s) s

def execMsgUnbind (sw : Bool) (d b : XReg) (s : State) : Host.Outcome State Fault Refusal :=
  issue { Form.of (.msgUnbind sw d b) sw [] [.x d] with inTask := false } (fun _ s =>
    let core := s.who.core
    let n := portField b
    let q := (s.core core).ports.get n
    if !q.bound then .trap s { cause := .queueUnbound, val := BitVec.ofNat 64 n.val }
    else
      let count := q.fifo.length + entriesInFlight core n s.agenda
      let s := { s with agenda := clearFlight core n s.agenda }
      let s := if q.paired && !(decide (q.peerCore = core) && decide (q.peerPort = n)) then
          s.modPort q.peerCore q.peerPort (fun r => { r with paired := false, credits := 0 })
        else s
      let s := (s.freePort core n).modPort core n (fun _ => Port.reset)
      .done (s.laterX s.who 1 .unit d (BitVec.ofNat 64 count))) s

/-- A count in a 4-bit field; one that the field cannot hold leaves it open. -/
def nibble (free : Nat) (n : Nat) : Nat := if n < 16 then n else (Config.freeWord free).toNat % 16

def execMsgQlen (sw : Bool) (d b : XReg) (s : State) : Host.Outcome State Fault Refusal :=
  issue (Form.of (.msgQlen sw d b) sw [] [.x d]) (fun _ s =>
    let n := portField b
    let q := (s.core s.who.core).ports.get n
    if !q.bound then .trap s { cause := .queueUnbound, val := BitVec.ofNat 64 n.val }
    else
      let v := nibble s.free q.fifo.length + nibble (s.free + 1) q.credits * 2 ^ 8
      let s := if q.fifo.length < 16 && q.credits < 16 then s else s.drew.drew
      .done (s.laterX s.who 1 .unit d (BitVec.ofNat 64 v))) s

/-- An entry reaches the FIFO (14 R297), and the line of the overflow area that is to hold it (14 R299); an unpaired port receives nothing (06 R137). -/
def execQueueEntryArrival (core : Nat) (p : Fin 8) (v : Word) (s : State) : Host.Outcome State Fault Refusal :=
  let q := (s.core core).ports.get p
  let s := if q.paired then (s.spillAccess core .write (q.farLine q.fifo.length)).1 else s
  .next (s.modPort core p (fun q => if q.paired then { q with fifo := q.fifo ++ [v] } else q))

def execCreditReturn (core : Nat) (p : Fin 8) (s : State) : Host.Outcome State Fault Refusal :=
  .next (s.modPort core p (fun q => if q.paired then { q with credits := q.credits + 1 } else q))

/-! ### Messages -/

/-- The rule of 06 R139 for a send descriptor. -/
def sendDescOk (desc : Nat) : Bool :=
  decide (bits desc 63 34 = 0) && decide (bits desc 15 14 = 0) && decide (bits desc 10 0 % 8 = 0) && decide (8 ≤ bits desc 10 0)
    && decide (bits desc 10 0 ≤ 1024)

/-- The first failed check of a read of n bytes of a scratchpad, in 8-byte units (06 R115); POISON names the granule (23 R407). Not a
core's load but an engine's read takes no MANIFEST (10 R238, 14 R289). -/
def State.readOwn (s : State) (w : CtxId) (va : Word) (n : Nat) (engine : Bool := false) : State × Option Trap :=
  match s.resolve w.core .read va n with
  | (s, .error e) => (s, some { cause := e, val := va })
  | (s, .ok a) =>
    let unit (i : Nat) : Access := { a with key := a.key + 8 * i, spad := if engine then none else a.spad.map (fun q => (q.1, q.2 + 8 * i)) }
    let fails (c : Cause) (i : Nat) : Bool := s.loadCheck w (unit i) (va.toNat + 8 * i) 8 == some c
    if (List.range ((n + 7) / 8)).any (fails .manifest) then (s, some { cause := .manifest, val := va })
    else match (List.range ((n + 7) / 8)).find? (fails .poison) with
      | some i => (s, some { cause := .poison, val := BitVec.ofNat 64 ((va.toNat + 8 * i) / 8 * 8) })
      | none => (s, none)

def execMsgSend (sw : Bool) (d a b : XReg) (s : State) : Host.Outcome State Fault Refusal :=
  issue { Form.of (.msgSend sw d a b) sw [.x a, .x b] [.x d] with inTask := false } (fun l s =>
    let w := s.who
    let va := op0 l
    let desc := (op1 l).toNat
    let len := bits desc 10 0
    let core := bits desc 33 16
    if !sendDescOk desc then .trap s { cause := .illegal, val := op1 l }
    else if va.toNat % 8 ≠ 0 then .trap s { cause := .misaligned, val := va }
    else if !inOwn va.toNat len then .trap s { cause := .protection, val := va }
    else match s.readOwn w va len with
      | (s, some e) => .trap s e
      | (s, none) =>
        let beyond := decide (groupOf w.core ≠ groupOf core)
        if beyond && decide ((s.core w.core).wn ≤ (s.core w.core).beyond) then .hold
        else
          let delay := s.linkDelay w.core core
          let m : Message := { src := w.core, core := core, ring := bits desc 13 11, bytes := [], who := s.issuer w, dest := d, delay := delay }
          let s := ((s.countBeyond w.core beyond).awaitX w .send d).modCtx w (fun c => { c with unacked := c.unacked + 1 })
          .park s.drew (.sending va len m sw)) s

/-- A message whose buffer has been read is on its way, behind those of the same two cores (14 R297). -/
def State.dispatch (s : State) (m : Message) : State :=
  s.postLink m.src m.core (s.cycle + m.delay + 1) false (.messageArrival m)

/-- A send that traps while it reads its buffer has not been issued: nothing of it is awaited (06 R115). -/
def State.unsend (s : State) (w : CtxId) (m : Message) : State :=
  let s := (s.unreserveX w m.dest).modCtx w (fun c => { c with
    outstanding := (dropOut (.x m.dest) c.outstanding.reverse).reverse, unacked := c.unacked - 1 })
  if groupOf m.src = groupOf m.core then s else s.modCore w.core (fun k => { k with beyond := k.beyond - 1 })

/-- The next 32 bytes of a message are checked and read; once all are, the context goes on from the next core cycle (06 R139). -/
def State.pollSending (s : State) (w : CtxId) : State :=
  match (s.ctx w).park with
  | .sending va len m sw =>
    let n := m.bytes.length
    let at_ := va.toNat + n
    match s.readOwn w (va + BitVec.ofNat 64 n) (min 32 (len - n)) with
    | (s, some t) => (s.unsend w m).raise w (if t.cause = .poison then t else { t with val := va })
    | (s, none) =>
      let m := { m with bytes := m.bytes ++ s.loadBytes w at_ (spadCell w.core at_) (min 32 (len - n)) }
      if n + 32 < len then s.modCtx w (fun c => { c with park := .sending va len m sw })
      else (s.dispatch m).finishPark w sw (s.cycle + 1)
  | _ => s

/-- Placement of an entry of s bytes (14 R294): pad at HEAD, if any, the entry's offset, and the ring after it; none when refused. -/
def Ring.place (r : Ring) (n : Nat) : Option (Option Nat × Nat × Ring) :=
  let free := r.size - r.used
  if r.head + n ≤ r.size then
    if n ≤ free then some (none, r.head, { r with head := (r.head + n) % r.size, used := r.used + n }) else none
  else
    let pad := r.size - r.head
    if pad + n ≤ free then some (some pad, 0, { r with head := n, used := r.used + pad + n }) else none

/-- The header doubleword of an entry (14 R293). -/
def ringHeader (pad : Bool) (src len : Nat) : Nat := bitIf pad 63 + src * 2 ^ 16 + len

/-- The outcome returns to the sender after the same delay, with the acknowledgement (06 R139, R120). -/
def State.sendBack (s : State) (m : Message) (outcome : Nat) : State :=
  let beyond := decide (groupOf m.src ≠ groupOf m.core)
  (((s.postEnd m.delay (.sendOutcome m.who m.dest outcome)).postEnd m.delay (.storeAcknowledge m.who beyond (beyond && s.mark)))).drew

/-- A message arrives at its ring (14 R294): written whole, or refused. -/
def execMessageArrival (m : Message) (s : State) : Host.Outcome State Fault Refusal :=
  let i : Fin 8 := Fin.ofNat 8 m.ring
  let k := s.core m.core
  let r := k.rings.get i
  if r.size = 0 || !s.inBerth m.src m.core then .next (s.sendBack m 2)
  else match r.place (8 + m.bytes.length) with
    | none =>
      .next ((s.setCore m.core (k.setRing i { r with overflow := if r.overflow < 2 ^ 32 - 1 then r.overflow + 1 else r.overflow })).sendBack m 1)
    | some (pad, off, r') =>
      let s := match pad with
        | some p => s.writeMem (spadCell m.core (r.base + r.head)) (leBytes 8 (ringHeader true 0 (p - 8)))
        | none => s
      let s := s.writeMem (spadCell m.core (r.base + off)) (leBytes 8 (ringHeader false m.src m.bytes.length) ++ m.bytes)
      let r' := { r' with readyAge := if r.running then r.readyAge else r.readyAge.or (some s.cycle) }
      let s := s.modCore m.core (fun k => { k.setRing i r' with messages := k.messages + 1 })
      .next ((s.touchControl m.core (0xA00 + 32 * i.val) s.ofEngine).sendBack m 0)

def execMsgOvf (sw : Bool) (d a : XReg) (s : State) : Host.Outcome State Fault Refusal :=
  issue (Form.of (.msgOvf sw d a) sw [.x a] [.x d]) (fun l s =>
    let r := (s.core s.who.core).rings.get (Fin.ofNat 8 ((op0 l).toNat % 8))
    .done (s.laterX s.who 1 .unit d (if r.size = 0 then 0 else BitVec.ofNat 64 r.overflow))) s

/-! ### Barriers -/

/-- One more registered context (06 R143). A barrier whose count was 0 has arrived in its current phase, so the registration counts from
the next one. -/
def Barriers.register (b : Barriers) : Barriers :=
  let new := (List.finRange 8).filter (fun t => bitGet b.member t)
  { b with
    reg := b.reg + 1
    tagReg := new.foldl (fun v t => natSet v t (natAt v t + 1)) b.tagReg
    tagSent := (new.filter (fun t => decide (natAt b.tagReg t = 0))).foldl (fun v t => bitSet v t true) b.tagSent }

def execBarReg (sw : Bool) (s : State) : Host.Outcome State Fault Refusal :=
  issue { Form.of (.barReg sw) sw [] [] with inTask := false } (fun _ s =>
    if (s.ctx s.who).registered then .done s
    else
      let s := s.modCtx s.who (fun c => { c with registered := true })
      .done (s.modBar s.who.core Barriers.register)) s

def execBarWd (sw : Bool) (s : State) : Host.Outcome State Fault Refusal :=
  issue (Form.of (.barWd sw) sw [] []) (fun _ s =>
    let b := (s.core s.who.core).bar
    if !(s.ctx s.who).registered then .done s
    else if !rectOk (rectOf b.rect) s.who.core then .trap s { cause := .illegal, val := b.rect.setWidth 64 }
    else .done (s.withdrawCtx s.who)) s

/-- The checks of an arrival at the mesh barrier (06 R143, R147). -/
def arriveCheck (i : Instr) (s : State) : Option Trap :=
  let b := (s.core s.who.core).bar
  if !(s.ctx s.who).registered then some { cause := .illegal, val := wordOf i }
  else if !rectOk (rectOf b.rect) s.who.core then some { cause := .illegal, val := b.rect.setWidth 64 }
  else none

/-- A context that has arrived in the current phase is not ready to arrive again (06 R143). -/
def arriveHeld (i : Instr) (s : State) : Bool := (s.ctx s.who).arrivedMesh && (arriveCheck i s).isNone

def execBarArrive (sw : Bool) (d : XReg) (s : State) : Host.Outcome State Fault Refusal :=
  issue { Form.of (.barArrive sw d) sw [] [.x d] with inTask := false, held := arriveHeld (.barArrive sw d) s } (fun _ s =>
    match arriveCheck (.barArrive sw d) s with
    | some t => .trap s t
    | none =>
      let phase := (s.core s.who.core).bar.phase
      .done ((s.arriveMesh s.who).laterX s.who 1 .unit d (phase.setWidth 64))) s

/-- Phase p is released (06 R144). -/
def phaseReleased (now p : BitVec 16) : Bool := decide (1 ≤ (now - p).toNat) && decide ((now - p).toNat ≤ 32767)

def execBarWait (sw : Bool) (a : XReg) (s : State) : Host.Outcome State Fault Refusal :=
  issue (Form.of (.barWait sw a) sw [.x a] []) (fun l s =>
    let p := (op0 l).setWidth 16
    if phaseReleased (s.core s.who.core).bar.phase p then .done s else .park s (.barrier p sw)) s

def execBarSync (sw : Bool) (s : State) : Host.Outcome State Fault Refusal :=
  issue { Form.of (.barSync sw) sw [] [] with inTask := false, held := arriveHeld (.barSync sw) s } (fun _ s =>
    match arriveCheck (.barSync sw) s with
    | some t => .trap s t
    | none =>
      let phase := (s.core s.who.core).bar.phase
      .park (s.arriveMesh s.who) (.barrier phase sw)) s

/-- The tag that `bar.wsync` names, and the checks of an arrival there (06 R143, R145). -/
def tagOf (x : Word) : Fin 8 := Fin.ofNat 8 (x.toNat % 8)
def wsyncCheck (i : Instr) (t : Fin 8) (s : State) : Option Trap :=
  if !(s.ctx s.who).registered then some { cause := .illegal, val := wordOf i }
  else if !bitGet (s.core s.who.core).bar.member t then some { cause := .illegal, val := BitVec.ofNat 64 t.val }
  else none

def execBarWsync (sw : Bool) (a : XReg) (s : State) : Host.Outcome State Fault Refusal :=
  let at_ := tagOf (s.atHand s.who a)
  issue { Form.of (.barWsync sw a) sw [.x a] [] with
      inTask := false, held := bitGet (s.ctx s.who).arrivedTags at_ && (wsyncCheck (.barWsync sw a) at_ s).isNone } (fun l s =>
    let t := tagOf (op0 l)
    match wsyncCheck (.barWsync sw a) t s with
    | some e => .trap s e
    | none => if bitGet (s.ctx s.who).arrivedTags t then .hold else .park (s.arriveTag s.who t) (.wired t sw)) s

/-- The contexts of a core that a release frees, from the core cycle after it. -/
def State.freeParked (s : State) (core : Nat) (freed : Park → Option Bool) : State :=
  (List.finRange 11).foldl (fun s c =>
    let w : CtxId := { core := core, ctx := c }
    match freed (s.ctx w).park with
    | some sw => s.finishPark w sw (s.cycle + 1)
    | none => s) s

/-- The mesh release at one core (06 R144, R146). A core with a count of 0 arrives at once in the next phase (06 R143, 13 R282). -/
def State.releaseMesh (s : State) (core : Nat) : State :=
  let s := s.modCore core (fun k => { k with
    bar := { k.bar with phase := k.bar.phase + 1, arr := 0, sent := false, reg := k.bar.reg - k.bar.falls, falls := 0 }
    ctxs := k.ctxs.map (fun c => { c with arrivedMesh := false })
    swapped := k.swapped.map (fun x => { x with ctx := { x.ctx with arrivedMesh := false } }) })
  let s := if (s.core core).bar.reg = 0 then s.sendMesh core else s
  let now := (s.core core).bar.phase
  s.freeParked core (fun p => match p with | .barrier q sw => if phaseReleased now q then some sw else none | _ => none)

/-- The release of a mesh phase (06 R144) in every core of the rectangle. -/
def execMeshPhaseRelease (die col row w h : Nat) (s : State) : Host.Outcome State Fault Refusal :=
  let r : Rect := { col := col, row := row, w := w, h := h }
  let cores := (r.cores die).filter (fun c => decide (rectOf (s.core c).bar.rect = r))
  .next (cores.foldl (fun s c => s.releaseMesh c) s)

/-- The release of a wired tag at one core (06 R145, R146). -/
def State.releaseTag (s : State) (core : Nat) (t : Fin 8) : State :=
  let s := s.modCore core (fun k => { k with
    bar := { k.bar with
      wph := k.bar.wph ^^^ (1#8 <<< t.val), tagArr := natSet k.bar.tagArr t 0, tagSent := bitSet k.bar.tagSent t false
      tagReg := natSet k.bar.tagReg t (natAt k.bar.tagReg t - natAt k.bar.tagFalls t), tagFalls := natSet k.bar.tagFalls t 0 }
    ctxs := k.ctxs.map (fun c => { c with arrivedTags := bitSet c.arrivedTags t false })
    swapped := k.swapped.map (fun x => { x with ctx := { x.ctx with arrivedTags := bitSet x.ctx.arrivedTags t false } }) })
  s.freeParked core (fun p => match p with | .wired u sw => if u = t then some sw else none | _ => none)

def execWiredTagRelease (die : Nat) (t : Fin 8) (s : State) : Host.Outcome State Fault Refusal :=
  let cores := s.tagMembers die t
  let s := cores.foldl (fun s c => s.releaseTag c t) s
  .next (s.tagComplete die t)

/-! ### The vertical FIFO -/

/-- The checks of `push` and `pop` (06 R149, R150). -/
def vfCheck (i : Instr) (upper : Bool) (kind : AccessKind) (va : Word) (s : State) : State × Option Trap :=
  let w := s.who
  if isUpper w.core ≠ upper then (s, some { cause := .illegal, val := wordOf i })
  else if va.toNat % 64 ≠ 0 then (s, some { cause := .misaligned, val := va })
  else if 2 ^ 48 ≤ va.toNat then (s, some { cause := .translation, val := va })
  else if !inOwn va.toNat 64 then (s, some { cause := .protection, val := va })
  else if kind.reads then
    s.readOwn w va 64
  else match s.resolve w.core kind va 64 with | (s, .error e) => (s, some { cause := e, val := va }) | (s, .ok _) => (s, none)

/-- The read and append of a push (06 R150). -/
def State.vfAppend (s : State) (w : CtxId) (va : Word) : State :=
  let v : Vec := BitVec.ofNat 512 (leValue (s.loadBytes w va.toNat (spadCell w.core va.toNat) 64))
  s.modCore w.core (fun k => { k with vfifo := k.vfifo ++ [(s.cycle + 2, v)] })

/-- Another context of the core parked earlier in a word of the same kind. -/
def Core.parkedBefore (k : Core) (c : Ctx) (same : Park → Bool) : Bool :=
  k.ctxs.toList.any (fun d => d.live && same d.park && decide (d.parkedAt < c.parkedAt))

def Park.isPush (p : Park) : Bool := match p with | .vfPush .. => true | _ => false
def Park.isPop (p : Park) : Bool := match p with | .vfPop .. => true | _ => false

def execVfPush (sw : Bool) (a : XReg) (s : State) : Host.Outcome State Fault Refusal :=
  issue { Form.of (.vfPush sw a) sw [.x a] [] with inTask := false } (fun l s =>
    let va := op0 l
    match vfCheck (.vfPush sw a) false .read va s with
    | (s, some t) => .trap s t
    | (s, none) =>
      let k := s.core s.who.core
      if 8 ≤ k.vfifo.length || k.ctxs.toList.any (fun d => d.live && d.park.isPush) then .park s (.vfPush va sw)
      else .done (s.vfAppend s.who va)) s

/-- The oldest entry, if it can be popped in this core cycle. -/
def State.vfHead (s : State) (core : Nat) : Option Vec :=
  match (s.core (lowerCore core)).vfifo with
  | (t, v) :: _ => if t ≤ s.cycle then some v else none
  | [] => none

def State.vfTake (s : State) (core : Nat) : State := s.modCore (lowerCore core) (fun k => { k with vfifo := k.vfifo.tail })

def execVfPop (sw : Bool) (a : XReg) (s : State) : Host.Outcome State Fault Refusal :=
  issue { Form.of (.vfPop sw a) sw [.x a] [] with inTask := false } (fun l s =>
    let va := op0 l
    match vfCheck (.vfPop sw a) true .write va s with
    | (s, some t) => .trap s t
    | (s, none) =>
      match s.vfHead s.who.core with
      | some v =>
        if (s.core s.who.core).ctxs.toList.any (fun d => d.live && d.park.isPop) then .park s (.vfPop va sw)
        else .park (s.vfTake s.who.core) (.vfPopWrite va v (s.cycle + 3) sw)
      | none => .park s (.vfPop va sw)) s

def execVfCount (sw : Bool) (d : XReg) (s : State) : Host.Outcome State Fault Refusal :=
  issue (Form.of (.vfCount sw d) sw [] [.x d]) (fun _ s =>
    let core := s.who.core
    let n := (s.core (lowerCore core)).vfifo.length
    .done (s.laterX s.who 1 .unit d (BitVec.ofNat 64 (if isUpper core then n else 8 - n)))) s

/-! ### Parked words of this chapter, at the start of a core cycle -/

def State.pollSync (s : State) (w : CtxId) : State :=
  let c := s.ctx w
  match c.park with
  | .fence k _ sw => if fenceMet k c then s.finishPark w sw s.cycle else s
  | .sending .. => s.pollSending w
  | .lock d (some t) beyond sw =>
    if t ≤ s.cycle then
      let s := if beyond then (s.modCore w.core (fun k => k.reply s.mark)).drew else s
      s.completeX w d 1 sw s.cycle
    else s
  | .vfPush va sw =>
    if (s.core w.core).vfifo.length < 8 && !(s.core w.core).parkedBefore c Park.isPush then
      match s.readOwn w va 64 with
      | (s, some e) => s.raise w e
      | (s, none) => (s.vfAppend w va).finishPark w sw (s.cycle + 1)
    else s
  | .vfPop va sw =>
    match s.vfHead w.core with
    | some v =>
      if (s.core w.core).parkedBefore c Park.isPop then s
      else (s.vfTake w.core).modCtx w (fun c => { c with park := .vfPopWrite va v (s.cycle + 3) sw })
    | none => s
  | .vfPopWrite va v t sw =>
    if t ≤ s.cycle then (s.writeMem (spadCell w.core va.toNat) (leBytes 64 v.toNat)).finishPark w sw s.cycle else s
  | _ => s

end Sys2Proof.Machine
end

