-- ==== Sys2Proof/Machine/Engines.lean ====
section
/-! DEFINITION. What the engines of a cluster share: accesses with tile tags (14 R289), footprints (07 R154, R159, R170), the job
queue and its identifiers (07 R152 to R154), status words (07 R169) and the reading of descriptors. -/

namespace Sys2Proof.Machine

/-! ### Engine accesses -/

/-- Splits n bytes at a virtual address at the boundaries of tiles. -/
def pieces512 (va n : Nat) : Nat → List (Nat × Nat)
  | 0 => []
  | fuel + 1 => if n = 0 then [] else
      let m := min n (512 - va % 512)
      (va, m) :: pieces512 (va + m) (n - m) fuel

/-- A failed engine access: cause and address (07 R166). -/
abbrev EngineFault := Cause × Word

/-- Reads n bytes for an engine of a core (07 R166): translation, protection, poison. -/
def State.engineRead (s : State) (core va n : Nat) : State × Except EngineFault (List Byte) :=
  (pieces512 va n (n / 512 + 2)).foldl (fun acc p =>
    match acc with
    | (s, .error e) => (s, .error e)
    | (s, .ok bs) =>
      match s.resolve core .read (BitVec.ofNat 64 p.1) p.2 with
      | (s, .error e) => (s, .error (e, BitVec.ofNat 64 p.1))
      | (s, .ok a) =>
        if s.poisoned a.key p.2 then (s, .error (.poison, BitVec.ofNat 64 p.1))
        else (s, .ok (bs ++ Memory.readBytes s.mem a.key p.2))) (s, .ok [])

/-- The tags after an engine write of bytes of a tile (14 R289): those of its last 8 bytes complete a delivery. -/
def State.engineTags (s : State) (a : Access) (n : Nat) : State :=
  match a.spad with
  | some (c, off) =>
    if (off + n - 1) % 512 = 511 then
      s.setTagAt c ((off + n - 1) / 512) { (s.core c).tag ((off + n - 1) / 512) with valid := true, consumed := false, poison := false } s.ofEngine
    else s
  | none => s

/-- An engine of a core moves data, as the watchdog sees it (14 R298). -/
def State.moves (s : State) (core : Nat) : State := s.modGroup (groupOf core) (fun g => { g with moved := some s.cycle })

/-- Writes bytes for an engine of a core. -/
def State.engineWrite (s : State) (core va : Nat) (bs : List Byte) : State × Option EngineFault :=
  let s := s.moves core
  (pieces512 va bs.length (bs.length / 512 + 2)).foldl (fun acc p =>
    match acc with
    | (s, some e) => (s, some e)
    | (s, none) =>
      match s.resolve core .write (BitVec.ofNat 64 p.1) p.2 with
      | (s, .error e) => (s, some (e, BitVec.ofNat 64 p.1))
      | (s, .ok a) => ((s.storeAt a ((bs.drop (p.1 - va)).take p.2)).engineTags a p.2, none)) (s, none)

/-- An engine's failing access has met a leaf that system software will supply: it stalls at the interface (21 R375, R379). -/
def State.pends (s : State) (core : Nat) (e : EngineFault) : Bool :=
  let va := e.2.toNat
  let home := homeDie va
  let tenant := s.tenantOf core
  decide (e.1 = .translation) && decide (0x2000000 ≤ va) && decide (va < 2 ^ 47) && s.tenantOk home tenant
    && (s.die home).requests.any (fun r => decide (r.tenant = tenant) && decide (r.page = va / 4096))
    && (match s.walk va (bits (s.tenantWord home tenant 0) 39 12 * 4096) 4 with
      | some l => leafOk home l && !bitAt l.raw 0 && bitAt l.raw 8
      | none => false)

/-- Notes a stalled access. -/
def State.waitPage (s : State) (cl : Nat) (e : EngineFault) (w : EngineWait) : State :=
  s.modCluster cl (fun k => { k with paged := k.paged ++ [(s.cycle, e.2.toNat / 4096, w)] })

/-- The copy unit's stalled access is no more; the matrix array's are no more. -/
def Cluster.dropCopyWait (k : Cluster) : Cluster := { k with paged := k.paged.filter (fun p => decide (p.2.2 ≠ .copy)) }
def Cluster.dropMatrixWaits (k : Cluster) : Cluster := { k with paged := k.paged.filter (fun p => decide (p.2.2 = .copy)) }

/-- The attributes of the page or region that holds an address (03 R68). -/
def State.attrAt (s : State) (core va : Nat) : State × Except EngineFault Attr :=
  match s.resolve core .read (BitVec.ofNat 64 va) 1 with
  | (s, .error e) => (s, .error (e, BitVec.ofNat 64 va))
  | (s, .ok a) => (s, .ok a.attr)

/-! ### Footprints -/

/-- A byte range of a footprint; local addresses stand for the scratchpad they name. -/
structure Span where
  lo : Nat
  hi : Nat
  deriving DecidableEq, Repr

/-- Where a core's scratchpad windows begin, with the core whose scratchpad each shows (14 R283). -/
def windowBases (core : Nat) : List (Nat × Nat) :=
  (0, core) :: (List.range 8).map (fun p => (0x100000 + p * 0x20000, coreOfCluster (clusterOf core) p))
    ++ (List.range 64).map (fun i => (0x1000000 + i / 8 * 0x100000 + i % 8 * 0x20000, coreOfGroup (groupOf core) (i / 8) (i % 8)))

/-- The n bytes from an address upwards, as a core names them: the part in each scratchpad it shows, and the translated part. -/
def spansOf (core va n : Nat) : List Span :=
  let part (lo hi at_ : Nat) : Option Span :=
    if max lo va < min hi (va + n) then some { lo := at_ + (max lo va - lo), hi := at_ + (min hi (va + n) - lo) } else none
  (windowBases core).filterMap (fun b => part b.1 (b.1 + 0x18000) (spadCell b.2 0))
    ++ (part 0x2000000 (2 ^ 49) (2 ^ 60 + 0x2000000)).toList

def Span.meets (a b : Span) : Bool := decide (a.lo < b.hi) && decide (b.lo < a.hi)
def spansMeet (a b : List Span) : Bool := a.any (fun x => b.any (fun y => x.meets y))

/-- The tiles that a span touches. -/
def Span.tiles (a : Span) : List (Nat × Nat) :=
  match spadOf a.lo with
  | some (c, off) => if a.hi ≤ a.lo || 2 ^ 60 ≤ a.lo then [] else
      (List.range ((off + (a.hi - a.lo) - 1) / 512 - off / 512 + 1)).map (fun i => (c, off / 512 + i))
  | none => []

/-- Tag-ready (14 R289): tracked tiles read are valid, tracked tiles written are consumed. -/
def State.tagReady (s : State) (rd wr : List Span) : Bool :=
  rd.all (fun a => a.tiles.all (fun t => let g := (s.core t.1).tag t.2; !g.track || g.valid))
    && wr.all (fun a => a.tiles.all (fun t => let g := (s.core t.1).tag t.2; !g.track || g.consumed))

/-! ### Descriptors and cards -/

/-- Reads n doublewords of a block at once, as relaxed loads of a context; a failing one traps with the block's address (02 R433, 09 R203). -/
def State.readDws (s : State) (w : CtxId) (va : Word) (n : Nat) : State × Except Trap (List Word) :=
  (List.range n).foldl (fun acc i =>
    match acc with
    | (s, .error e) => (s, .error e)
    | (s, .ok ds) =>
      match s.readScalar w (va + BitVec.ofNat 64 (8 * i)) .d false with
      | (s, .error e) => (s, .error { cause := e, val := va })
      | (s, .ok (_, v, _)) => (s, .ok (ds ++ [v]))) (s, .ok [])

/-- A core cycle of the reading of a block of n doublewords by a parked word of a context: one is read, from the core cycle given on one in each, and
is seen as it stands at the end of the last one. A failing read traps with the block's address (02 R433, 09 R203). The read of another core's
scratchpad asks for its butterfly port, and is made once the port serves it (14 R284). -/
def State.readCard (s : State) (w : CtxId) (va : Word) (n from_ : Nat) (got : List Word) : State × Except Trap (List Word) :=
  let at_ := va + BitVec.ofNat 64 (8 * got.length)
  if n ≤ got.length then (s, .ok got)
  else match (s.resolve w.core .read at_ 8).2 with
    | .ok a =>
      if (a.port w.core).isSome then (if s.cycle + 1 < from_ + got.length then s else s.askPort w a, .ok got)
      else if s.cycle < from_ + got.length then (s, .ok got)
      else match s.readScalar w at_ .d false with
        | (s, .error e) => (s, .error { cause := e, val := va })
        | (s, .ok (_, v, _)) => (s, .ok (got ++ [v]))
    | .error e => if s.cycle < from_ + got.length then (s, .ok got) else (s, .error { cause := e, val := va })

/-- The doubleword of a block that a butterfly port now serves, with those before it; none where it serves another core (14 R284). -/
def State.readServed (s : State) (w : CtxId) (va : Word) (got : List Word) : State × Option (Except Trap (List Word)) :=
  match s.readScalar w (va + BitVec.ofNat 64 (8 * got.length)) .d false with
  | (s, .error e) => (s, some (.error { cause := e, val := va }))
  | (s, .ok (a, v, _)) => if s.portServes w.core a then (s.servePort w.core a, some (.ok (got ++ [v]))) else (s, none)

/-- The first doubleword that a check refuses, with TRAPVAL its address. -/
def dwFault (va : Word) (check : Nat → Nat → Option Cause) (ds : List Word) : Option Trap :=
  ds.zipIdx.findSome? (fun p => (check p.2 p.1.toNat).map (fun c => { cause := c, val := va + BitVec.ofNat 64 (8 * p.2) }))

/-- Within a doubleword, ILLEGAL before RESERVED_FIELD (02 R433). -/
def refuse (reserved invalid : Bool) : Option Cause := if invalid then some .illegal else if reserved then some .reservedField else none

/-! ### The job queue (07 R152 to R154) -/

/-- The length of a matrix operand row (07 R159): bytes of one row of k elements in a page's format. -/
def rowBytes (attr : Attr) (k : Nat) : Nat :=
  if attr.format = 8 then
    let B := 32 * 2 ^ attr.blockg
    (k + B - 1) / B * ((attr.planesn + 1) * B / 8)
  else match attr.format with
    | 1 | 6 | 0xA => 4 * k | 4 => k | 7 => 8 * k | _ => 2 * k

def outWidth (outf : Nat) : Nat := if outf = 0 then 4 else 2

/-- The number of elements of a column that a sparse B keeps (07 R162). -/
def MatrixOp.kept (op : MatrixOp) : Nat := op.k / (if op.bpat = 0 then 1 else 2) / (if op.epat = 0 then 1 else 2)

/-- The part of an operation's footprints that the slice of a core names (07 R159), by the page attributes of the bases: an address in
the own window is each core's own (notes/assumptions/32). -/
def MatrixOp.spans (op : MatrixOp) (core : Nat) (fa fb : Attr) : List Span × List Span :=
  let a := spansOf core op.abase (63 * op.astride + rowBytes fa op.k)
  let b := spansOf core op.bbase (63 * op.bstride + (if op.bt then rowBytes fb op.kept else rowBytes fb 64))
  let c := spansOf core op.cbase (63 * op.cstride + 64 * outWidth op.outf)
  ((if op.acc then a ++ b ++ c else a ++ b), c)

/-- The footprints of a copy job (07 R170). -/
def CopyJob.spans (j : CopyJob) : List Span × List Span :=
  (spansOf j.core j.src j.len,
    if j.kind = 0 then spansOf j.core j.dst j.len
    else ((List.range 8).filter (fun p => bitGet j.mask (Fin.ofNat 8 p))).map (fun p =>
      let k := spadCell (coreOfCluster (clusterOf j.core) p) j.dst
      { lo := k, hi := k + j.len }))

/-- The attributes of a page as they stand, RAW where the address does not translate. -/
def State.attrNow (s : State) (core va : Nat) : Attr := match (s.attrAt core va).2 with | .ok a => a | .error _ => .raw

/-- The footprints of a job: a matrix operation's are what its eight slices name. -/
def State.jobSpans (s : State) (cl : Nat) : JobKind → List Span × List Span
  | .matrix op =>
    let parts := (coresOfCluster cl).map (fun c => op.spans c (s.attrNow c op.abase) (s.attrNow c op.bbase))
    ((parts.flatMap (·.1)).eraseDups, (parts.flatMap (·.2)).eraseDups)
  | .copy j => j.spans

def JobKind.isMatrix : JobKind → Bool | .matrix _ => true | .copy _ => false
def JobKind.arm : JobKind → Bool | .matrix op => op.arm | .copy j => j.arm
def JobKind.terms : JobKind → BitVec 16 | .matrix op => op.terms | .copy j => j.terms
/-- The tag line that its completion pulses. -/
def JobKind.pulse : JobKind → BitVec 16
  | .matrix op => if op.tagen then 1#16 <<< op.tag else 0
  | .copy j => if j.tagen then 1#16 <<< j.tag else 0

/-- Accepts a job into the lowest free slot (07 R153): the cluster and its identifier, 0 when no slot is free. -/
def Cluster.accept (k : Cluster) (cycle : Nat) (job : JobKind) : Cluster × BitVec 16 :=
  match (List.finRange 32).find? (fun i => !(k.jobs.get i).taken) with
  | none => (k, 0)
  | some i =>
    let j := k.jobs.get i
    let gen := if j.used then (if j.gen = 2047 then 1 else j.gen + 1) else j.gen
    let j' : JobSlot := { JobSlot.reset with gen := gen, used := true, taken := true, job := some job, state := 0, held := job.arm
                                             rank := k.nextRank, accepted := cycle }
    ({ k with jobs := k.jobs.set i.val j' i.isLt, nextRank := k.nextRank + 1 }, j'.ident i.val)

/-- A job that the queue holds and has not finished. -/
def JobSlot.pending (j : JobSlot) : Bool := j.taken && decide (j.state < 2)

/-- Its armed start input (07 R172): a term of its TERMS was true in the last core cycle. -/
def Cluster.startInput (k : Cluster) (job : JobKind) : Bool := decide (job.terms &&& k.termTrue ≠ 0)

/-- The job waits for an earlier one with a conflicting footprint (07 R154). -/
def State.conflicts (s : State) (cl : Nat) (j : JobSlot) (job : JobKind) : Bool :=
  let (rd, wr) := s.jobSpans cl job
  (s.cluster cl).jobs.toList.any (fun e =>
    e.pending && decide (e.rank < j.rank) && (match e.job with
      | some other => let (erd, ewr) := s.jobSpans cl other; spansMeet rd ewr || spansMeet wr erd || spansMeet wr ewr
      | none => false))

/-- The oldest job of an engine that may start in this core cycle (07 R154, R171, R172; 14 R289). -/
def State.nextJob (s : State) (cl : Nat) (matrix : Bool) : Option (Fin 32 × JobKind) :=
  let k := s.cluster cl
  ((List.finRange 32).foldl (fun (best : Option (Nat × Fin 32 × JobKind)) i =>
    let j := k.jobs.get i
    match j.job with
    | some job =>
      if j.taken && decide (j.state = 0) && (job.isMatrix == matrix) && (!job.arm || k.startInput job)
          && (match best with | some (r, _) => decide (j.rank < r) | none => true)
          && !s.conflicts cl j job && (let (rd, wr) := s.jobSpans cl job; s.tagReady rd wr) then
        some (j.rank, i, job)
      else best
    | none => best) none).map (·.2)

/-- The counters of the lowest-numbered true term are charged (07 R173). -/
def Cluster.charge (k : Cluster) (job : JobKind) : Cluster :=
  if job.arm then
    match (List.finRange 16).find? (fun t => (job.terms &&& k.termTrue).getLsbD t.val) with
    | some t =>
      let mask := k.terms.get t
      let counters := Vector.ofFn (fun (c : Fin 16) =>
        let x := k.counters.get c
        if mask.getLsbD c.val && x.auto then { x with count := x.count - x.thresh } else x)
      { k with counters := counters, termTrue := k.termTrue &&& ~~~(1#16 <<< t.val) }
    | none => k
  else k

/-! ### Status (07 R169) -/

/-- The status word of a slot's current job. -/
def Cluster.status (k : Cluster) (j : JobSlot) : Nat :=
  let held := decide (j.state = 0) && (match j.job with | some job => job.arm && !k.startInput job | none => false)
  (if j.state = 3 then j.va * 2 ^ 16 + j.cause * 2 ^ 8 else 0) + bitIf j.drop 3 + bitIf held 2 + j.state

/-- The status of an identifier: whether it is final, and the word (07 R169). -/
def Cluster.statusOf (k : Cluster) (ident : BitVec 16) : Bool × Word :=
  if ident = 0 then (true, 3)
  else
    let j := k.jobs.get (Fin.ofNat 32 (ident.toNat % 32))
    if j.gen ≠ ident.toNat / 32 then (true, 0x12)
    else (decide (2 ≤ j.state), BitVec.ofNat 64 (k.status j))

/-- Wakes the contexts parked in `job.wait` on an identifier (07 R169). -/
def State.wakeJob (s : State) (cl : Nat) (ident : BitVec 16) (from_ : Nat) : State :=
  (coresOfCluster cl).foldl (fun s core => (List.finRange 11).foldl (fun s c =>
    let w : CtxId := { core := core, ctx := c }
    match (s.ctx w).park with
    | .jobWait i d sw => if i = ident then s.completeX w d ((s.cluster cl).statusOf ident).2 sw from_ else s
    | _ => s) s) s

/-- A job ends (07 R165, R166, R171): its slot frees, its status stands, and a completed one's tag line pulses. -/
def State.endJob (s : State) (cl : Nat) (slot : Fin 32) (state : Nat) (fault : Option EngineFault) : State :=
  let j := (s.cluster cl).jobs.get slot
  let pulse := match j.job with | some job => if state = 2 then job.pulse else 0 | none => 0
  let s := s.modCluster cl (fun k => { (k.modJob slot.val (fun j => { j with
      taken := false, state := state, held := false
      cause := match fault with | some (c, _) => causeCode c | none => 0
      va := match fault with | some (_, v) => v.toNat % 2 ^ 48 | none => 0 })) with pulses := k.pulses ||| pulse })
  s.wakeJob cl (j.ident slot.val) s.cycle

end Sys2Proof.Machine
end

