-- ==== Sys2Proof/Machine/Jobs.lean ====
section
/-! DEFINITION. Copy and multicast jobs (07 R169 to R171) and the acceptance of submissions (07 R152). -/

namespace Sys2Proof.Machine

/-! ### The job card (07 R170) -/

/-- Whether a mask names a core outside the launch's berth rectangle. -/
def State.maskOutside (s : State) (core mask : Nat) : Bool :=
  (List.range 8).any (fun p => bitAt mask p && !s.inBerth core (coreOfCluster (clusterOf core) p))

/-- The check of one doubleword of a card (02 R433 step 3). -/
def cardCheck (s : State) (core : Nat) (i d : Nat) : Option Cause :=
  let len := bits d 24 0
  let kind := bits d 1 0
  match i with
  | 0 => refuse (decide (bits d 63 48 ≠ 0)) (decide (bits d 47 0 % 8 ≠ 0))
  | 1 => refuse (decide (bits d 63 48 ≠ 0)) (decide (bits d 47 0 % 8 ≠ 0))
  | 2 => refuse (decide (bits d 63 25 ≠ 0)) (decide (len % 8 ≠ 0) || decide (len < 8) || decide (16777216 < len))
  | _ => refuse (decide (bits d 63 38 ≠ 0) || decide (bits d 7 2 ≠ 0)) (decide (2 ≤ kind) ||
      (decide (kind = 1) && (decide (bits d 15 8 = 0) || s.maskOutside core (bits d 15 8))))

/-- The rules that relate fields of different doublewords (02 R433 step 4). -/
def CopyJob.invalid (j : CopyJob) : Bool :=
  (decide (j.kind = 1) && (decide (98304 ≤ j.dst) || decide (98304 < j.dst + j.len))) ||
    (decide (j.kind = 0) && spansMeet (spansOf j.core j.src j.len) (spansOf j.core j.dst j.len))

/-- The copy job of a card. -/
def cardJob (core : Nat) (ds : List Word) : CopyJob :=
  let g (n : Nat) : Nat := (ds.getD n 0).toNat
  { src := bits (g 0) 47 0, dst := bits (g 1) 47 0, len := bits (g 2) 24 0, terms := BitVec.ofNat 16 (bits (g 3) 37 22)
    arm := bitAt (g 3) 21, tagen := bitAt (g 3) 20, tag := bits (g 3) 19 16, mask := BitVec.ofNat 8 (bits (g 3) 15 8)
    kind := bits (g 3) 1 0, core := core }

/-! ### job words -/

/-- Reads an aligned card of n doublewords in the own window: the checks of its address (02 R433), then the word parks while they are read, one per
core cycle; the first is seen from the core cycle that `park` takes on (07 R171). -/
def cardBody (align n : Nat) (va : Word) (s : State) (park : State → Nat → Body) : Body :=
  if va.toNat % align ≠ 0 then .trap s { cause := .misaligned, val := va }
  else if !inOwn va.toNat (8 * n) then .trap s { cause := .protection, val := va }
  else match s.readOwn s.who va (8 * n) with
    | (s, some t) => .trap s { t with val := va }
    | (s, none) => park s (s.cycle + 2)

def execJobSub (sw : Bool) (d a : XReg) (s : State) : Host.Outcome State Fault Refusal :=
  issue { Form.of (.jobSub sw d a) sw [.x a] [.x d] with inTask := false } (fun l s =>
    cardBody 32 4 (op0 l) s (fun s from_ => .park (s.reserveX s.who d) (.jobSub (op0 l) from_ [] d sw))) s

def execJobPoll (sw : Bool) (d a : XReg) (s : State) : Host.Outcome State Fault Refusal :=
  issue (Form.of (.jobPoll sw d a) sw [.x a] [.x d]) (fun l s =>
    .done (s.laterX s.who 2 .unit d ((s.cluster (clusterOf s.who.core)).statusOf ((op0 l).setWidth 16)).2)) s

def execJobWait (sw : Bool) (d a : XReg) (s : State) : Host.Outcome State Fault Refusal :=
  issue (Form.of (.jobWait sw d a) sw [.x a] [.x d]) (fun l s =>
    let ident : BitVec 16 := (op0 l).setWidth 16
    let st := (s.cluster (clusterOf s.who.core)).statusOf ident
    if st.1 then .done (s.laterX s.who 2 .unit d st.2)
    else .park (s.reserveX s.who d) (.jobWait ident d sw)) s

/-! ### Acceptance (07 R152, R171) -/

/-- The card of a parked `job.sub` is read; at the end, its checks, and a card that passes waits to be accepted. DESIGN CHOICE
(notes/assumptions/119): where a rule relates several doublewords (a multicast's DST and LEN, a copy's footprints), the offending one is
doubleword 1. -/
def State.pollJobSub (s : State) (w : CtxId) : State :=
  match (s.ctx w).park with
  | .jobSub va t card d sw =>
    if card.length = 4 then s
    else match s.readCard w va 4 t card with
      | (s, .error e) => s.raiseParked w d e
      | (s, .ok ds) =>
        let s' := s.modCtx w (fun c => { c with park := .jobSub va t ds d sw })
        if ds.length < 4 then s'
        else match dwFault va (cardCheck s w.core) ds with
          | some e => s.raiseParked w d e
          | none => if (cardJob w.core ds).invalid then s.raiseParked w d { cause := .illegal, val := va + 8 } else s'
  | _ => s

/-- The context of a core that has waited longest to submit a job. -/
def State.submitter (s : State) (core : Nat) : Option CtxId :=
  ((List.finRange 11).foldl (fun (best : Option (Nat × CtxId)) c =>
    let x := s.ctx { core := core, ctx := c }
    match x.park with
    | .jobSub _ _ card _ _ =>
      if x.live && decide (card.length = 4) && (match best with | some (p, _) => decide (x.parkedAt < p) | none => true) then
        some (x.parkedAt, { core := core, ctx := c })
      else best
    | _ => best) none).map (·.2)

/-- The answer of an accepted or refused gang operation to its eight contexts (07 R160, 12 R263). -/
def State.answerGang (s : State) (cl : Nat) (ident : BitVec 16) : State :=
  (coresOfCluster cl).foldl (fun s core => (List.finRange 11).foldl (fun s c =>
    let w : CtxId := { core := core, ctx := c }
    match (s.ctx w).park with
    | .mxGang d true sw =>
      let s := s.completeX w d (ident.setWidth 64) sw s.cycle
      if ident = 0 && decide ((s.core core).slice.state = 1) then s.restSlice core else s
    | _ => s) s) s

/-- A submission from a position: the order of acceptance goes on after the position accepted last (07 R152). -/
def Cluster.submit (k : Cluster) (pos cycle : Nat) (job : JobKind) : Cluster × BitVec 16 :=
  let (k', ident) := k.accept cycle job
  (if ident = 0 then k' else { k' with lastPos := pos }, ident)

/-- The queue answers the operation that the wired barrier has offered, as a submission of a position. -/
def State.offerGang (s : State) (cl pos : Nat) : State :=
  let k := s.cluster cl
  match k.gangOffer with
  | some (_, op) =>
    let (k, ident) := { k with gangOffer := none }.submit pos s.cycle (.matrix op)
    (s.setCluster cl k).answerGang cl ident
  | none => s

/-- The queue answers a parked `job.sub` of a position. -/
def State.offerCopy (s : State) (cl pos : Nat) (w : CtxId) : State :=
  match (s.ctx w).park with
  | .jobSub _ _ ds d sw =>
    let (k, ident) := (s.cluster cl).submit pos s.cycle (.copy (cardJob w.core ds))
    (s.setCluster cl k).completeX w d (ident.setWidth 64) sw s.cycle
  | _ => s

/-- One submission of a cluster is accepted or refused in a core cycle, round-robin over positions (07 R152); the operation that the
wired barrier has offered in the last core cycle stands at position 0. -/
def State.acceptOne (s : State) (cl : Nat) : State :=
  let k := s.cluster cl
  let pos := (List.range 8).findSome? (fun i =>
    let p := (k.lastPos + 1 + i) % 8
    if p = 0 && k.gangOffer.any (fun o => decide (o.1 < s.cycle)) then some (p, none)
    else (s.submitter (coreOfCluster cl p)).map (fun w => (p, some w)))
  match pos with
  | none => s
  | some (p, none) => s.offerGang cl p
  | some (p, some w) => s.offerCopy cl p w

/-- With no slot free, every submission of a core cycle is refused in it (07 R152, R160, R171). -/
def State.refuseAll (s : State) (cl : Nat) : State :=
  let s := if (s.cluster cl).gangOffer.any (fun o => decide (o.1 < s.cycle)) then s.offerGang cl 0 else s
  (List.range 8).foldl (fun s p => match s.submitter (coreOfCluster cl p) with | some w => s.offerCopy cl p w | none => s) s

/-- The queue's decisions in a core cycle. -/
def State.acceptJobs (s : State) (cl : Nat) : State :=
  if (s.cluster cl).jobs.toList.all (·.taken) then s.refuseAll cl else s.acceptOne cl

/-- As a core cycle begins: whether the array could run the operation that stands at the queue, were it accepted now (12 R263). -/
def State.noteGang (s : State) (cl : Nat) : State :=
  let k := s.cluster cl
  match k.gangOffer with
  | some (_, op) =>
    let job : JobKind := .matrix op
    let (rd, wr) := s.jobSpans cl job
    s.setCluster cl { k with gangReady := k.running.isNone && (!op.arm || k.startInput job)
                                          && !s.conflicts cl { JobSlot.reset with rank := k.nextRank } job && s.tagReady rd wr }
  | none => s

/-! ### The copy unit (07 R171) -/

/-- The window latency of an address, or the network's beyond the group. -/
def State.windowLat (s : State) (core va : Nat) (kind : AccessKind := .read) : Nat :=
  match window core va with
  | .spad _ _ lat => lat
  | _ => (match (s.resolve core kind (BitVec.ofNat 64 va) 1).2 with | .ok a => a.lat | .error _ => 8)

/-- The cell that a core's read at an address reaches, of a weight store. -/
def State.storeCell (s : State) (core va : Nat) : Option Nat :=
  if va < 0x2000000 then none
  else match (s.resolve core .read (BitVec.ofNat 64 va) 1).2 with
    | .ok a => if isWeightStore a.key then some a.key else none
    | .error _ => none

/-- The stalls of a copy's reads of a weight store, piece by piece, from a core cycle on (22 R405). -/
def State.copyStalls (s : State) (j : CopyJob) (from_ : Nat) : Nat :=
  if (s.storeCell j.core j.src).isNone then 0
  else (List.range ((j.len + 63) / 64)).foldl (fun n i =>
    match s.storeCell j.core (j.src + 64 * i) with
    | some key => n + refreshStall key (from_ + i + n)
    | none => n) 0

/-- The core cycles that a job takes (07 R171); those that its first read stalls for stand in that read's latency (22 R405). -/
def State.copyTime (s : State) (j : CopyJob) : Nat :=
  let dst := if j.kind = 0 then s.windowLat j.core j.dst .write else 1
  let stall := match s.storeCell j.core j.src with | some key => refreshStall key s.cycle | none => 0
  max (s.windowLat j.core j.src) dst + (j.len + 63) / 64 + (s.copyStalls j s.cycle - stall)

/-- Moves one piece of a job: its destination in the own window of the job's core, or of every core of a multicast. -/
def State.movePiece (s : State) (cl : Nat) (j : CopyJob) (off n : Nat) : State × Option EngineFault :=
  match s.engineRead j.core (j.src + off) n with
  | (s, .error e) => (s, some e)
  | (s, .ok bs) =>
    if j.kind = 0 then s.engineWrite j.core (j.dst + off) bs
    else ((List.range 8).filter (fun p => bitGet j.mask (Fin.ofNat 8 p))).foldl (fun acc p =>
      match acc with
      | (s, some e) => (s, some e)
      | (s, none) => s.engineWrite (coreOfCluster cl p) (j.dst + off) bs) (s, none)

/-- Moves the job's pieces of 64 bytes from `done` up to `upto`; the first failure stops it (07 R166). -/
def State.copyPieces (s : State) (cl : Nat) (j : CopyJob) (upto : Nat) : Nat → Nat → State × Nat × Option EngineFault
  | 0, done => (s, done, none)
  | fuel + 1, done =>
    if upto ≤ done then (s, done, none)
    else
      let n := min 64 (j.len - done)
      match s.movePiece cl j done n with
      | (s, some e) => (s, done, some e)
      | (s, none) => s.copyPieces cl j upto fuel (done + n)

/-- The copy unit starts a job (07 R154, R171). -/
def State.startCopy (s : State) (cl : Nat) (slot : Fin 32) (j : CopyJob) : State :=
  let left := { j with len := j.len - ((s.cluster cl).jobs.get slot).done }
  let time := s.copyTime left
  let s := s.modCluster cl (fun k => { (k.charge (.copy j)).modJob slot.val (fun x => { x with state := 1, held := false, started := s.cycle }) with
    copying := some slot.val })
  (s.post (s.cycle + time) (.copyJobComplete cl)).drew

/-- The running job of the copy unit. -/
def Cluster.copyRunning (k : Cluster) : Option (Fin 32 × CopyJob) :=
  match k.copying with
  | some n =>
    match (k.jobs.get (Fin.ofNat 32 n)).job with
    | some (.copy j) => some (Fin.ofNat 32 n, j)
    | _ => none
  | none => none

/-- A job completes: its bytes have been moved, or a piece has failed (07 R166, R171). -/
def execCopyJobComplete (cl : Nat) (s : State) : Host.Outcome State Fault Refusal :=
  match (s.cluster cl).copyRunning with
  | none => .next s
  | some (slot, j) =>
    let x := (s.cluster cl).jobs.get slot
    let (s, done, e) := s.copyPieces cl j j.len (j.len / 64 + 1) x.done
    let s := s.modCluster cl (fun k => k.modJob slot.val (fun x => { x with done := done }))
    .next (match e with
      | some e =>
        if s.pends j.core e then s.waitPage cl e .copy
        else (s.modCluster cl (fun k => { k with copying := none })).endJob cl slot 3 (some e)
      | none => (s.modCluster cl (fun k => { k with copying := none })).endJob cl slot 2 none)

end Sys2Proof.Machine
end

