-- ==== Sys2Proof/Machine/Crossbar.lean ====
section
/-! DEFINITION. The event crossbar of a cluster (07 R172 to R174). -/

namespace Sys2Proof.Machine

/-- COUNT ≥ THRESH: the counter fires (07 R172). -/
def XCounter.fires (x : XCounter) : Bool := decide (x.thresh ≤ x.count)

/-- A counter takes the pulses of the last core cycle, saturating (07 R172). -/
def XCounter.pulsed (x : XCounter) (pulses : BitVec 16) : XCounter :=
  let n := ((List.range 16).filter (fun i => (x.src &&& pulses).getLsbD i)).length
  let x := { x with count := min 65535 (x.count + n) }
  { x with fired := x.fires }

/-- Term t is true: its mask is not zero and every counter in it fired in the last core cycle (07 R172). -/
def Cluster.termNow (k : Cluster) (t : Fin 16) : Bool :=
  let mask := k.terms.get t
  decide (mask ≠ 0) && (List.finRange 16).all (fun c => !mask.getLsbD c.val || (k.counters.get c).fired)

/-- One core cycle of the crossbar (07 R172): the terms from the counters that fired in the last cycle, then the counters. -/
def Cluster.crossbar (k : Cluster) : Cluster :=
  { k with
    termTrue := (List.finRange 16).foldl (fun b t => if k.termNow t then b ||| (1#16 <<< t.val) else b) 0
    counters := k.counters.map (·.pulsed k.pulses)
    pulses := 0 }

def execCrossbarCycle (cl : Nat) (s : State) : Host.Outcome State Fault Refusal := .next (s.modCluster cl Cluster.crossbar)

def Cluster.setCounter (k : Cluster) (i : Fin 16) (x : XCounter) : Cluster := { k with counters := k.counters.set i.val x i.isLt }

/-- A counter or term number: x[a][3:0]. -/
def num16 (v : Word) : Fin 16 := Fin.ofNat 16 (v.toNat % 16)

/-- An xbar form: none stands in an ordered task (08 R193). -/
def Form.xbar (i : Instr) (sw : Bool) (srcs dests : List Dest) : Form := { Form.of i sw srcs dests with inTask := false }

def execXbarCnt (sw : Bool) (a b : XReg) (s : State) : Host.Outcome State Fault Refusal :=
  issue (Form.xbar (.xbarCnt sw a b) sw [.x a, .x b] []) (fun l s =>
    let y := (op1 l).toNat
    if bits y 63 33 ≠ 0 then .trap s { cause := .illegal, val := op1 l }
    else
      let x : XCounter := { src := BitVec.ofNat 16 (bits y 15 0), thresh := bits y 31 16, auto := bitAt y 32, count := 0, fired := false }
      .done (s.modCluster (clusterOf s.who.core) (fun k => k.setCounter (num16 (op0 l)) { x with fired := x.fires }))) s

def execXbarTerm (sw : Bool) (a b : XReg) (s : State) : Host.Outcome State Fault Refusal :=
  issue (Form.xbar (.xbarTerm sw a b) sw [.x a, .x b] []) (fun l s =>
    let y := (op1 l).toNat
    if bits y 63 16 ≠ 0 then .trap s { cause := .illegal, val := op1 l }
    else
      .done (s.modCluster (clusterOf s.who.core) (fun k =>
        { k with terms := k.terms.set (num16 (op0 l)).val (BitVec.ofNat 16 y) (num16 (op0 l)).isLt }))) s

/-- What `xbar.rdc` reads (07 R174). -/
def XCounter.word (x : XCounter) : Word :=
  BitVec.ofNat 64 (bitIf x.fires 49 + bitIf x.auto 48 + x.src.toNat * 2 ^ 32 + x.thresh * 2 ^ 16 + x.count)

def execXbarRdc (sw : Bool) (d a : XReg) (s : State) : Host.Outcome State Fault Refusal :=
  issue (Form.xbar (.xbarRdc sw d a) sw [.x a] [.x d]) (fun l s =>
    .done (s.laterX s.who 2 .unit d ((s.cluster (clusterOf s.who.core)).counters.get (num16 (op0 l))).word)) s

def execXbarPulse (sw : Bool) (a : XReg) (s : State) : Host.Outcome State Fault Refusal :=
  issue (Form.xbar (.xbarPulse sw a) sw [.x a] []) (fun l s =>
    .done (s.modCluster (clusterOf s.who.core) (fun k => { k with pulses := k.pulses ||| (op0 l).setWidth 16 }))) s

def execXbarClr (sw : Bool) (a : XReg) (s : State) : Host.Outcome State Fault Refusal :=
  issue (Form.xbar (.xbarClr sw a) sw [.x a] []) (fun l s =>
    .done (s.modCluster (clusterOf s.who.core) (fun k => { k with
      counters := Vector.ofFn (fun (c : Fin 16) =>
        let x := k.counters.get c
        if (op0 l).getLsbD c.val then { x with count := 0, fired := decide (x.thresh = 0) } else x) }))) s

end Sys2Proof.Machine
end

