-- ==== Sys2Proof/Machine/Work.lean ====
section
/-! DEFINITION. The work group (08 R175 to R188), except `work.yield` and `work.launch`, and the entry state of a helper (08 R177). -/

namespace Sys2Proof.Machine

/-! ### Helpers and slots -/

/-- The context is not in a slot that is being swapped out or restored (01 R17). -/
def Mover.clear (m : Mover) (c : CtxNo) : Bool :=
  match m with | .idle => true | .out k _ => decide (k ≠ c) | .back k _ => decide (k ≠ c)

/-- A slot is free from the core cycle after it is vacated (13 R268). -/
def Core.slotFree (k : Core) (c : CtxNo) (cycle : Nat) : Bool :=
  let x := k.ctxs.get c
  !x.live && decide (x.readyAt ≤ cycle) && k.mover.clear c

/-- Slot 10 is reserved for drain-row starts: the slice holds an operation (13 R269). -/
def State.slotReserved (s : State) (core : Nat) : Bool :=
  let k := s.cluster (clusterOf core)
  k.jobs.toList.zipIdx.any (fun (j, i) => j.taken && (match j.job with | some job => job.isMatrix | none => false)
    && (decide (j.state = 0) || (decide (j.state = 1) &&
      !(decide ((s.core core).slice.jobId = j.ident i) && decide (8 ≤ (s.core core).slice.drained)))))

/-- A slot that a start other than a drain row's may take (13 R269). -/
def openSlot (reserved : Bool) (c : CtxNo) : Bool := decide (1 ≤ c.val) && !(reserved && decide (c = 10))

/-- The lowest-numbered free slot open to a start that is no drain row's. -/
def State.freeSlot (s : State) (core : Nat) : Option CtxNo :=
  (List.finRange 11).find? (fun c => openSlot (s.slotReserved core) c && (s.core core).slotFree c s.cycle)

/-- The slot of a drain-row start: 10 when it is free, and otherwise the lowest free one (13 R269). -/
def State.freeDrainSlot (s : State) (core : Nat) : Option CtxNo :=
  if (s.core core).slotFree 10 s.cycle then some 10
  else (List.finRange 11).find? (fun c => decide (1 ≤ c.val) && (s.core core).slotFree c s.cycle)

/-- The initial TRAPVEC and WHTRAP of a core's launch (11 R252); without a launch, none. -/
def State.launchTrap (s : State) (core : Nat) : Word × Bool :=
  match s.launchOf core with
  | some { desc := some d, .. } => (d.trapVec, d.whtrap)
  | _ => (0, false)

/-- The entry state of a helper (08 R177). -/
def State.entryState (s : State) (core : Nat) (entry arg0 arg1 : Word) (src : BitVec 4) (role : Role) (from_ : Nat) : Ctx :=
  let (vec, wh) := s.launchTrap core
  let c := { Ctx.reset with live := true, pc := entry, src := src, role := role, origin := core, trapVec := vec, whtrap := wh, readyAt := from_ }
  (c.setX 10 arg0).setX 11 arg1

/-- Puts a started context into its slot, with the check of its entry (01 R14). -/
def State.placed (s : State) (w : CtxId) (c : Ctx) : State × Option Trap :=
  ({ s with serials := s.serials + 1 }.setCtx w { c with serial := s.serials + 1 }).checkTarget w.core c.pc true

/-- A start; an entry that fails its check traps in the started context (01 R15). -/
def State.startIn (s : State) (w : CtxId) (c : Ctx) : State :=
  match s.placed w c with
  | (s, none) => s
  | (s, some t) => s.raise w t

/-! ### start, fork, join, exit -/

def execWorkStart (sw : Bool) (d a b : XReg) (s : State) : Host.Outcome State Fault Refusal :=
  issue { Form.of (.workStart sw d a b) sw [.x d, .x a, .x b] [.x d] with inTask := false } (fun l s =>
    let w := s.who
    if w.ctx ≠ 0 then .trap s { cause := .illegal, val := wordOf (.workStart sw d a b) }
    else match s.freeSlot w.core with
      | none => .done (s.laterX w 2 .unit d 0)
      | some n =>
        let s := s.startIn { core := w.core, ctx := n } (s.entryState w.core (op1 l) (op2 l) (op0 l) 1 .plain (s.cycle + 1))
        .done (s.laterX w 2 .unit d (BitVec.ofNat 64 n.val))) s

/-- A push on the bottom of the deque, which ends a stealing wait (08 R179, 13 R271). -/
def Core.pushTask (k : Core) (t : DequeTask) : Core :=
  { k with deque := k.deque ++ [t], steal := { k.steal with backoff := none } }

def execWorkFork (sw : Bool) (d a b : XReg) (s : State) : Host.Outcome State Fault Refusal :=
  issue { Form.of (.workFork sw d a b) sw [.x d, .x a, .x b] [.x d] with inTask := false } (fun l s =>
    let w := s.who
    let depth := (s.core w.core).deque.length
    if 32 ≤ depth then .done (s.laterX w 2 .unit d 0)
    else
      let s := s.modCore w.core (fun k => k.pushTask { entry := op1 l, arg0 := op2 l, arg1 := op0 l, pushed := s.cycle })
      .done (s.laterX w 2 .unit d (BitVec.ofNat 64 (depth + 1)))) s

def execWorkJoin (sw : Bool) (a : XReg) (s : State) : Host.Outcome State Fault Refusal :=
  issue (Form.of (.workJoin sw a) sw [.x a] []) (fun l s =>
    let w := s.who
    let va := op0 l
    if va.toNat % 8 ≠ 0 then .trap s { cause := .misaligned, val := va }
    else if !inGroupWindow w.core va.toNat then .trap s { cause := .protection, val := va }
    else match s.readScalar w va .d false with
      | (s, .error e) => .trap s { cause := e, val := va }
      | (s, .ok (acc, v, lat)) => withLines s w va.toNat 8 (fun s => withPort w.core acc s (fun s =>
          if v = 0 then .done s else .park (s.modCtx w (fun c => { c with readyAt := s.cycle + lat + 1 })) (.joining va acc.key sw)))) s

def execWorkExit (sw : Bool) (a : XReg) (s : State) : Host.Outcome State Fault Refusal :=
  issue (Form.of (.workExit sw a) sw [.x a] []) (fun l s =>
    let w := s.who
    let counter : Option Word := if a = 0 then none else some (op0 l)
    if (s.ctx w).outstanding.isEmpty then
      match s.exitCheck w counter with
      | (s, .error t) => .trap s t
      | (_, .ok none) => .ended (s.doExit w counter)
      | (_, .ok (some (_, a))) =>
        if (s.core w.core).windowFull a then .hold
        else if s.portServes w.core a then .ended ((s.servePort w.core a).doExit w counter)
        else .holdWith (State.notePort w.core a)
    else
      -- A record leaves its set as its exit helper issues the word (18 R344).
      match (s.ctx w).role with
      | .exit record =>
        if (match (s.exitCheck w counter).2 with | .ok _ => true | .error _ => false) then
          .park ((s.modCluster (clusterOf (s.ctx w).origin) (fun k => k.recordLeaves record)).modCtx w (fun c => { c with role := .plain })) (.exiting counter)
        else .park s (.exiting counter)
      | _ => .park s (.exiting counter)) s

/-! ### hold, release -/

def execWorkHold (sw : Bool) (d a : XReg) (s : State) : Host.Outcome State Fault Refusal :=
  issue (Form.of (.workHold sw d a) sw [.x a] [.x d]) (fun l s =>
    let w := s.who
    let old := (s.core w.core).hold
    .done ((s.modCore w.core (fun k => { k with hold := k.hold ||| (op0 l).setWidth 8 })).laterX w 1 .unit d (old.setWidth 64))) s

def execWorkRelease (sw : Bool) (d a : XReg) (s : State) : Host.Outcome State Fault Refusal :=
  issue (Form.of (.workRelease sw d a) sw [.x a] [.x d]) (fun l s =>
    let w := s.who
    let old := (s.core w.core).hold
    .done ((s.modCore w.core (fun k => { k with hold := k.hold &&& ~~~((op0 l).setWidth 8) })).laterX w 1 .unit d (old.setWidth 64))) s

/-! ### migrate -/

def execWorkMigrate (sw : Bool) (d a : XReg) (s : State) : Host.Outcome State Fault Refusal :=
  issue { Form.of (.workMigrate sw d a) sw [.x a] [.x d] with inTask := false } (fun l s =>
    let w := s.who
    let target := (op0 l).toNat % 2 ^ 18
    if w.ctx = 0 then .trap s { cause := .illegal, val := wordOf (.workMigrate sw d a) }
    else if !s.inBerth w.core target then .trap s { cause := .protection, val := op0 l }
    else if target = w.core then .done (s.laterX w 1 .unit d (BitVec.ofNat 64 target))
    else .park (s.reserveX w d) (.migrating target d sw)) s

/-- Takes the results on their way to a context out of the agenda; what their replies owe the window counter stays (14 R301). -/
def State.takeResults (s : State) (w : CtxId) : State × List (Nat × Result) :=
  let mine (e : Nat × Instr) : Bool := match e.2 with | .resultWrite v r => decide (v = w) && decide (r.dest ≠ .x 0) | _ => false
  let taken := s.agenda.filterMap (fun e => match e.2 with
    | .resultWrite v r => if v = w && r.dest ≠ .x 0 then some (e.1, { r with beyond := false }) else none
    | _ => none)
  ({ s with agenda := s.agenda.filterMap (fun e =>
      if mine e then
        match e.2 with
        | .resultWrite v r => if r.beyond then some (e.1, .resultWrite v { r with dest := .x 0, flags := .none }) else none
        | _ => some e
      else some e) }, taken)

/-- A migrating context whose accesses are all acknowledged leaves (08 R187). -/
def State.pollMigrate (s : State) (w : CtxId) : State :=
  let c := s.ctx w
  match c.park with
  | .migrating target d sw =>
    if c.unacked ≠ 0 then s
    else
      let s := (s.unreserveX w d).returnCredits w
      let (s, pending) := s.takeResults w
      let c := { (s.ctx w).retire s.cycle sw (seqNext c.pc) false with registered := false, arrivedMesh := false, arrivedTags := 0 }
      let delay := s.linkDelay w.core target
      let m : Migrant := { ctx := c, source := w.core, dest := d, pending := pending.map (fun p => (p.1 + delay, p.2)), arrived := none }
      let s := (s.modCore target (fun k => { k with arrivals := k.arrivals ++ [m] })).post (s.cycle + delay) (.migrationArrival { core := target, serial := c.serial })
      (s.modCtx w (fun c => { c with role := .plain })).endCtx w false
  | _ => s

/-- A register-context message reaches its core, and waits there as a pending start (08 R188, 13 R266), behind those that have arrived before. -/
def execMigrationArrival (i : MigrantId) (s : State) : Host.Outcome State Fault Refusal :=
  .next (s.modCore i.core (fun k =>
    let mine (m : Migrant) : Bool := decide (m.ctx.serial = i.serial) && m.arrived.isNone
    { k with arrivals := k.arrivals.filter (fun m => !mine m) ++ ((k.arrivals.filter mine).map (fun m => { m with arrived := some s.cycle })) }))

/-- A context that has come back to a slot with a trap pending takes it (06 R129, 08 R196). -/
def State.takeTrap (s : State) (w : CtxId) : State :=
  match (s.ctx w).park with
  | .trap t => (s.modCtx w (fun c => { c with park := .none })).raise w t
  | _ => s

/-- A migrated context takes its slot (08 R188). -/
def State.settle (s : State) (w : CtxId) (m : Migrant) : State :=
  let c := { m.ctx.setX m.dest (BitVec.ofNat 64 m.source) with src := 9, readyAt := s.cycle + 1, outstanding := m.ctx.outstanding.map (fun o => { o with past := true }) }
  (m.pending.foldl (fun s p => s.post (max p.1 (s.cycle + 1)) (.resultWrite w p.2)) (s.setCtx w c)).takeTrap w

end Sys2Proof.Machine
end

