-- ==== Sys2Proof/Machine/Tasks.lean ====
section
/-! DEFINITION. Ordered tasks: submission and status (08 R189 to R192, R197), and the start of a task (08 R177, R190; 13 R267). -/

namespace Sys2Proof.Machine

/-- (TS, KEY) is not above the last committed task's (08 R192). -/
def Commits.passed (c : Commits) (p : Nat × Nat) : Bool := match c.last with | some q => !tsLess q p | none => false

/-- The lowest free slot of a launch's table (08 R192). -/
def Die.freeTask (d : Die) (lid : Nat) : Option Nat :=
  (List.range 512).find? (fun n => match kget (lid * 512 + n) d.tasks with | some t => !t.open_ | none => true)

/-- The generation of a slot when it is taken again (08 R192). -/
def Die.nextGen (d : Die) (key : Nat) : Nat :=
  match kget key d.tasks with | some t => if t.gen = 127 then 1 else t.gen + 1 | none => 1

/-- The identifier of a task (08 R192). -/
def OTask.ident (t : OTask) (key : Nat) : Word := BitVec.ofNat 64 (t.gen * 512 + key % 512)

/-- A task as it is entered: what the card gives, and nothing done yet. -/
def OTask.fresh (ts key : Nat) (entry arg : Word) (foot : List FootRange) (lid age : Nat) : OTask :=
  { gen := 1, ts := ts, key := key, entry := entry, arg := arg, foot := foot, lid := lid, cluster := 0, crossing := none, parent := none
    state := 0, runs := 0, age := age, running := none, home := 0, startedAt := 0, finishedAt := 0, firstStore := none, buffer := []
    buffered := [], direct := false, exitDec := none, held := none, killed := false, stormKill := false, writeSet := [], readSet := [], records := []
    slopes := [], stepped := [], fp := 0 }

/-- Enters a task into the lowest free slot of its launch's table: its place, or none when there is no free slot. -/
def State.enterTask (s : State) (die : Nat) (t : OTask) : State × Option Nat :=
  let d := s.die die
  match d.freeTask t.lid with
  | none => (s, none)
  | some n =>
    let key := t.lid * 512 + n
    (s.setDie die { d with tasks := kset key { t with gen := d.nextGen key } d.tasks }, some key)

/-! ### otask.sub -/

/-- The check of one doubleword of a task card (08 R190). -/
def taskCardCheck (i d : Nat) : Option Cause := if i = 3 then refuse (decide (bits d 63 48 ≠ 0)) false else none

/-- The check of one doubleword of a footprint record (08 R191). -/
def footCheck (i d : Nat) : Option Cause :=
  if i = 0 then refuse (decide (bits d 63 4 ≠ 0)) (decide (bits d 3 0 = 0) || decide (8 < bits d 3 0))
  else if i % 2 = 1 then refuse (decide (bits d 63 50 ≠ 0)) (decide (bits d 49 48 = 0))
  else refuse (decide (bits d 63 32 ≠ 0)) (decide (bits d 31 0 = 0))

/-- The doublewords of a footprint record: its header and two for each entry; the header alone where its count is not valid. -/
def footLength (header : Nat) : Nat := let n := bits header 3 0; if n = 0 || 8 < n then 1 else 1 + 2 * n

/-- The ranges of a record's entries. -/
def footRanges : List Word → List FootRange
  | a :: b :: rest => { w := a.getLsbD 49, r := a.getLsbD 48, base := bits a.toNat 47 0, len := bits b.toNat 31 0 } :: footRanges rest
  | _ => []

/-- Two footprints overlap (08 R191). -/
def FootRange.meets (a b : FootRange) : Bool := decide (a.base < b.base + b.len) && decide (b.base < a.base + a.len)
def feetMeet (a b : List FootRange) : Bool := a.any (fun x => b.any (fun y => (x.w || y.w) && x.meets y))

def execOtaskSub (sw : Bool) (d a : XReg) (s : State) : Host.Outcome State Fault Refusal :=
  issue (Form.of (.otaskSub sw d a) sw [.x a] [.x d]) (fun l s =>
    cardBody 32 4 (op0 l) s (fun s from_ => .park (s.reserveX s.who d) (.otaskSub (op0 l) from_ [] d sw))) s

/-- The end of a submission (08 R192): 1, 0 or the identifier. -/
def State.submitTask (s : State) (w : CtxId) (card : List Word) (foot : List FootRange) : State × Word :=
  let g (n : Nat) : Nat := (card.getD n 0).toNat
  let die := dieOf w.core
  let lid := (s.core w.core).lid
  let own := s.taskOf w
  let p := (g 0, bits (g 1) 63 48)
  if (match own with | some (_, t) => !tsLess t.order p | none => false) || ((s.die die).commitsOf lid).passed p then (s, 1)
  else
    let t := { OTask.fresh p.1 p.2 (BitVec.ofNat 64 (bits (g 1) 47 0)) (card.getD 2 0) foot lid s.cycle with
      cluster := clusterOf w.core, parent := own.map (·.1), fp := bits (g 3) 47 0 }
    match s.enterTask die t with
    | (s, none) => (s, 0)
    | (s, some key) => (s, match kget key (s.die die).tasks with | some t => t.ident key | none => 0)

/-- What a submission does once it has read its card (08 R192): it ends, traps, or goes on to its record at FP. -/
def State.cardRead (s : State) (w : CtxId) (va : Word) (t : Nat) (ds : List Word) (d : XReg) (sw : Bool) : State :=
  match dwFault va taskCardCheck ds with
  | some e => s.raiseParked w d e
  | none =>
    let fp := ds.getD 3 0
    if fp = 0 then
      let (s, v) := s.submitTask w ds []
      s.completeX w d v sw s.cycle
    else if fp.toNat % 8 ≠ 0 then s.raiseParked w d { cause := .misaligned, val := fp }
    else if !inOwn fp.toNat 8 then s.raiseParked w d { cause := .protection, val := fp }
    else s.modCtx w (fun c => { c with park := .otaskSub va t ds d sw })

/-- The reads of a submission, doubleword by doubleword: the card's, then the record's, whose first one gives its length (08 R192). -/
def State.pollOtaskSub (s : State) (w : CtxId) : State :=
  match (s.ctx w).park with
  | .otaskSub va t got d sw =>
    let keep (s : State) (ds : List Word) : State := s.modCtx w (fun c => { c with park := .otaskSub va t ds d sw })
    if got.length < 4 then
      match s.readCard w va 4 t got with
      | (s, .error e) => s.raiseParked w d e
      | (s, .ok ds) => if ds.length < 4 then keep s ds else s.cardRead w va t ds d sw
    else
      let fp := got.getD 3 0
      let n (l : List Word) : Nat := match l with | hd :: _ => footLength hd.toNat | [] => 1
      match s.readCard w fp (n (got.drop 4)) (t + 4) (got.drop 4) with
      | (s, .error e) => s.raiseParked w d e
      | (s, .ok ds) =>
        if !inOwn fp.toNat (8 * n ds) then s.raiseParked w d { cause := .protection, val := fp }
        else if ds.length < n ds then keep s (got.take 4 ++ ds)
        else match dwFault fp footCheck ds with
          | some e => s.raiseParked w d e
          | none =>
            let (s, v) := s.submitTask w (got.take 4) (footRanges ds.tail)
            s.completeX w d v sw s.cycle
  | _ => s

/-! ### otask.stat -/

/-- The status of a task by its identifier (08 R197). What the layout leaves open of a slot taken again, or of an identifier that
no submission gave, is a free value. -/
def State.taskStatus (s : State) (core : Nat) (ident : Nat) : Nat :=
  if ident < 512 then 4
  else
    let open_ := (Config.freeWord s.free).toNat
    match kget ((s.core core).lid * 512 + ident % 512) (s.die (dieOf core)).tasks with
    | none => bits open_ 15 8 * 2 ^ 8 + bits open_ 4 0
    | some t =>
      if t.gen = ident / 512 then min 255 t.runs * 2 ^ 8 + bitIf t.held.isSome 3 + t.state
      else bits open_ 15 8 * 2 ^ 8 + 0x10 + 3

def execOtaskStat (sw : Bool) (d a : XReg) (s : State) : Host.Outcome State Fault Refusal :=
  issue (Form.of (.otaskStat sw d a) sw [.x a] [.x d]) (fun l s =>
    .done ((s.laterX s.who 2 .unit d (BitVec.ofNat 64 (s.taskStatus s.who.core ((op0 l).toNat % 2 ^ 16)))).drew)) s

/-! ### The start of a task -/

/-- A granted task takes a slot (08 R177, R190; 13 R267). -/
def State.startTask (s : State) (w : CtxId) (key : Nat) (t : OTask) : State :=
  let die := dieOf w.core
  let t := { t with state := 1, runs := min 255 (t.runs + 1), startedAt := s.cycle, running := some w, home := w.core, firstStore := none
                    buffer := [], buffered := [], direct := false, exitDec := none, held := none, killed := false, slopes := [], stepped := t.records }
  let s := s.modDie die (fun d => { d with tasks := kset key t d.tasks })
  let c := s.entryState w.core t.entry t.arg (t.ident key) (if t.crossing.isSome then 7 else 6) (.task key) (s.cycle + 4)
  match s.placed w ((c.setX 12 (BitVec.ofNat 64 t.ts)).setX 13 (BitVec.ofNat 64 t.key)) with
  | (s, none) => s
  | (s, some e) => s.holdTrap w key e

end Sys2Proof.Machine
end

