-- ==== Sys2Proof/Machine/Crossing.lean ====
section
/-! DEFINITION. The crossing unit: cx (09 R205 to R213) and the crossing computations (16 R324 to R327, R331). -/

namespace Sys2Proof.Machine

/-! ### Directory and handlers -/

/-- The clusters of a die that belong to the launch of a core. -/
def State.units (s : State) (core : Nat) : List Nat :=
  (s.clusters.filter (fun c => decide (c.1 / 1024 = dieOf core) && decide ((s.core (coreOfCluster c.1 0)).lid = (s.core core).lid))).map (·.1)

/-- The variable of an index on a core's die: cluster, slot, record (09 R206). -/
def State.findVar (s : State) (core index : Nat) : Option (Nat × Nat × CxVar) :=
  (s.units core).findSome? (fun c => ((s.cluster c).vars.find? (fun v => decide (v.2.index = index))).map (fun v => (c, v.1, v.2)))

def State.modVar (s : State) (cl slot : Nat) (f : CxVar → CxVar) : State :=
  s.modCluster cl (fun k => match kget slot k.vars with | some v => { k with vars := kset slot (f v) k.vars } | none => k)

/-- Entry i of the launch's handler table (11 R252); 0 where it is not defined. -/
def State.handlerEntry (s : State) (core i : Nat) : Word :=
  match s.launchOf core with
  | some { desc := some d, .. } =>
    if d.htab = 0 then 0
    else match (s.resolve core .read (d.htab + BitVec.ofNat 64 (8 * i)) 8).2 with
      | .ok a => BitVec.ofNat 64 (s.peek a.key 8)
      | .error _ => 0
  | _ => 0

/-! ### Computations (16 R324, R327, R331; 09 R211) -/

/-- An FP32 pattern as a value. -/
def cxVal (b : BitVec 32) : FVal := fp32.decode b.toNat
def cxFinite (b : BitVec 32) : Bool := match cxVal b with | .fin .. => true | _ => false

/-- NEXT when no crossing is scheduled. -/
def noCrossing : Nat := 2 ^ 64 - 1

/-- X advanced by a difference of ticks: X + RoundRNE(S × D), D = ticks × 2^-k. -/
def cxAdvance (x s : BitVec 32) (ticks : Int) (k : BitVec 6) : BitVec 32 :=
  let d : FVal := .fin (decide (ticks < 0)) ticks.natAbs (-(k.toNat : Int))
  let p := fp32.mul .rne (cxVal s) d
  BitVec.ofNat 32 (fp32.add .rne (cxVal x) (fp32.decode p.bits)).bits

/-- The least integer not below mag × 2^exp. -/
def ceilScaled (mag : Nat) (exp : Int) : Nat :=
  if 0 ≤ exp then mag * 2 ^ exp.toNat else (mag + 2 ^ (-exp).toNat - 1) / 2 ^ (-exp).toNat

/-- The next crossing of a record (16 R324); `last` is the TS of the die's last committed task. -/
def CxVar.nextCrossing (v : CxVar) (k : BitVec 6) (last : Option Nat) : Nat :=
  match cxVal v.s with
  | .fin _ 0 _ => noCrossing
  | .fin _ m e =>
    match fp32.decode (fp32.div .rne (cxVal v.q) (.fin false m e)).bits with
    | .fin _ dm de =>
      let n := max 1 (ceilScaled dm (de + (k.toNat : Int)))
      if 2 ^ 64 - 2 < v.t + n then noCrossing else max (v.t + n) (match last with | some l => l + 1 | none => 0)
    | _ => noCrossing
  | _ => noCrossing

/-- The TS of the last committed task of a core's launch on its die. -/
def State.lastTs (s : State) (core : Nat) : Option Nat := (((s.die (dieOf core)).commitsOf (s.core core).lid).last).map (·.1)

/-- The crossing step at a time (16 R327, R331): the record after it, and whether STORM is raised. -/
def CxVar.step (v : CxVar) (tc : Nat) (k : Cluster) : CxVar × Bool :=
  let v := { v with x := cxAdvance v.x v.s ((tc : Int) - v.t) k.cxTick, t := tc }
  let (limit, w) := if v.sts = 0 then (k.stormS.toNat, k.stormW.toNat) else (v.sts, v.stw)
  if limit = 0 then (v, false)
  else
    let n := tc / 2 ^ w
    let v := if n ≠ v.swin then { v with swin := n, scnt := 0 } else v
    let v := { v with scnt := min 65535 (v.scnt + 1) }
    if v.scnt ≤ limit then (v, false)
    else
      let twice := (fp32.mul .rne (cxVal v.q) (.fin false 2 0)).bits
      let cap : FVal := match cxVal v.qb with | .fin n m e => .fin n m (e + 8) | x => x
      if (cxVal v.q).ltNum cap && (match fp32.decode twice with | .fin .. => true | _ => false) then ({ v with q := BitVec.ofNat 32 twice }, false)
      else (v, true)

/-- A slope change at a crossing time (09 R211), without NEXT. -/
def CxVar.setSlope (v : CxVar) (tc : Nat) (slope : BitVec 32) (k : BitVec 6) : CxVar :=
  { v with x := cxAdvance v.x v.s ((tc : Int) - v.t) k, t := tc, s := slope }

/-! ### cx.def (09 R208) -/

/-- The check of one doubleword of a variable card. -/
def varCardCheck (s : State) (core : Nat) (i d : Nat) : Option Cause :=
  match i with
  | 0 =>
    let q := BitVec.ofNat 32 (bits d 63 32)
    refuse false (!cxFinite q || (cxVal q).neg || (cxVal q).isZero || !cxFinite (BitVec.ofNat 32 (bits d 31 0)))
  | 1 => refuse (decide (bits d 63 56 ≠ 0)) (decide (s.handlerEntry core (bits d 55 48) = 0) || (s.findVar core (bits d 47 32)).isSome ||
      !cxFinite (BitVec.ofNat 32 (bits d 31 0)))
  | 2 => refuse (decide (bits d 63 48 ≠ 0)) (decide (bits d 47 0 % 64 ≠ 0) || !inOwn (bits d 47 0) 64)
  | _ => refuse (decide (bits d 63 22 ≠ 0)) false

/-- The record of a card. -/
def varOfCard (core : Nat) (ds : List Word) : CxVar :=
  let g (n : Nat) : Nat := (ds.getD n 0).toNat
  let q := BitVec.ofNat 32 (bits (g 0) 63 32)
  { index := bits (g 1) 47 32, x := BitVec.ofNat 32 (bits (g 0) 31 0), t := 0, s := BitVec.ofNat 32 (bits (g 1) 31 0), q := q, qb := q
    next := noCrossing, deps := BitVec.ofNat 64 (bits (g 2) 47 0), deplist := [], owner := core, handler := bits (g 1) 55 48
    sts := bits (g 3) 15 0, stw := bits (g 3) 21 16, swin := 0, scnt := 0, task := none, due := none }

/-- A cx form that traps in an ordered task. -/
def Form.cx (i : Instr) (sw : Bool) (srcs dests : List Dest) : Form := { Form.of i sw srcs dests with inTask := false }

/-- `cx.def` (09 R207, R208). DESIGN CHOICE (notes/assumptions/111): the check that the unit is stopped is the word's first, made at its issue only, before
those of the card. -/
def execCxDef (sw : Bool) (d a : XReg) (s : State) : Host.Outcome State Fault Refusal :=
  issue (Form.cx (.cxDef sw d a) sw [.x a] [.x d]) (fun l s =>
    if (s.cluster (clusterOf s.who.core)).cxRunning then .trap s { cause := .illegal, val := wordOf (.cxDef sw d a) }
    else cardBody 32 4 (op0 l) s (fun s from_ => .park (s.reserveX s.who d) (.cxDef (op0 l) from_ [] d sw))) s

/-- A definition from the doublewords of a card: the trap, or the slot number + 1, 0 when there is none (09 R208). -/
def State.defineVar (s : State) (w : CtxId) (va : Word) (ds : List Word) : State × Except Trap Nat :=
  match dwFault va (varCardCheck s w.core) ds with
  | some e => (s, .error e)
  | none =>
    let k := s.cluster (clusterOf w.core)
    match (List.range 512).find? (fun n => (kget n k.vars).isNone) with
    | none => (s, .ok 0)
    | some n => (s.setCluster (clusterOf w.core) { k with vars := kset n (varOfCard w.core ds) k.vars }, .ok (n + 1))

/-- The card is read, and then defines its variable. -/
def State.pollCxDef (s : State) (w : CtxId) : State :=
  match (s.ctx w).park with
  | .cxDef va t got d sw =>
    match s.readCard w va 4 t got with
    | (s, .error e) => s.raiseParked w d e
    | (s, .ok ds) =>
      if ds.length < 4 then s.modCtx w (fun c => { c with park := .cxDef va t ds d sw })
      else match s.defineVar w va ds with
        | (s, .error e) => s.raiseParked w d e
        | (s, .ok n) => s.completeX w d (BitVec.ofNat 64 n) sw s.cycle
  | _ => s

/-! ### cx.dep, run, stop -/

/-- The protection unit of the list's scratchpad decides the unit's write of the next entry (21 R381). DESIGN CHOICE (notes/assumptions/121): a refused
one traps in the word, with the entry's address. -/
def State.depFault (s : State) (v : CxVar) : Option Trap :=
  let at_ := v.deps.toNat + 2 * v.deplist.length
  if 32 ≤ v.deplist.length then none
  else match protCheck (s.core v.owner) false true at_ 2 with
    | .error e => some { cause := e, val := BitVec.ofNat 64 at_ }
    | .ok _ => none

/-- An append to a dependant list (09 R209): the new DEPN, or 0 when it is full. -/
def State.appendDep (s : State) (cl slot : Nat) (v : CxVar) (dep : Nat) : State × Nat :=
  let n := v.deplist.length
  if 32 ≤ n then (s, 0)
  else
    ((s.writeMem (spadCell v.owner (v.deps.toNat + 2 * n)) (leBytes 2 dep)).modVar cl slot (fun v => { v with deplist := v.deplist ++ [dep] }), n + 1)

def execCxDep (sw : Bool) (d a b : XReg) (s : State) : Host.Outcome State Fault Refusal :=
  issue (Form.cx (.cxDep sw d a b) sw [.x a, .x b] [.x d]) (fun l s =>
    let w := s.who
    match (if bits (op0 l).toNat 63 16 ≠ 0 then none else s.findVar w.core (op0 l).toNat) with
    | none => .trap s { cause := .illegal, val := op0 l }
    | some (cl, slot, v) =>
      if bits (op1 l).toNat 63 16 ≠ 0 || (s.findVar w.core (op1 l).toNat).isNone then .trap s { cause := .illegal, val := op1 l }
      else if (s.cluster cl).cxRunning then .trap s { cause := .illegal, val := wordOf (.cxDep sw d a b) }
      else match s.depFault v with
        | some t => .trap s t
        | none =>
          let (s, n) := s.appendDep cl slot v (op1 l).toNat
          .done (s.laterX w 4 .unit d (BitVec.ofNat 64 n))) s

/-- NEXT of a variable computed from its committed record, to be submitted in the next core cycle if its unit runs (16 R324, R325). -/
def State.schedule (s : State) (cl slot : Nat) : State :=
  let k := s.cluster cl
  let last := s.lastTs (coreOfCluster cl 0)
  s.modVar cl slot (fun v =>
    let n := v.nextCrossing k.cxTick last
    { v with next := n, due := if k.cxRunning && decide (n ≠ noCrossing) then some (s.cycle + 1) else none })

/-- The unit of a cluster runs from the end of the core cycle on, and NEXT of each variable is computed (19 R348). -/
def State.startUnit (s : State) (cl : Nat) : State :=
  let k := s.cluster cl
  if k.cxRunning then s
  else (k.vars.filter (fun v => v.2.task.isNone)).foldl (fun s v => s.schedule cl v.1) (s.setCluster cl { k with cxRunning := true })

def execCxRun (sw : Bool) (s : State) : Host.Outcome State Fault Refusal :=
  issue (Form.cx (.cxRun sw) sw [] []) (fun _ s =>
    let cl := clusterOf s.who.core
    let k := s.cluster cl
    if k.cxRunning then .done s
    else
      .done (s.addLate s.who.core .run)) s

def execCxStop (sw : Bool) (s : State) : Host.Outcome State Fault Refusal :=
  issue (Form.cx (.cxStop sw) sw [] []) (fun _ s =>
    .done (s.modCluster (clusterOf s.who.core) (fun k => { k with
      cxRunning := false, vars := k.vars.map (fun v => (v.1, { v.2 with due := none })) }))) s

/-! ### Views of a record (09 R210) -/

/-- The record of an index as an ordered task sees it: its own buffered one, the latest earlier uncommitted one, the committed one. -/
def State.viewVar (s : State) (core : Nat) (t : OTask) (index : Nat) : Option CxVar :=
  match kget index t.records with
  | some v => some v
  | none =>
    let best := (s.die (dieOf core)).tasks.foldl (fun (best : Option (OTask × CxVar)) e =>
      match kget index e.2.records with
      | some v =>
        if decide (e.2.lid = t.lid) && e.2.open_ && tsLess e.2.order t.order
            && (match best with | some (u, _) => tsLess u.order e.2.order | none => true) then some (e.2, v) else best
      | none => best) none
    match best with
    | some (_, v) => some v
    | none => (s.findVar core index).map (·.2.2)

/-- A field of a record (09 R210). -/
def CxVar.field (v : CxVar) (n : Nat) : Option Word :=
  match n with
  | 0 => some (v.x.setWidth 64)
  | 1 => some (BitVec.ofNat 64 v.t)
  | 2 => some (v.s.setWidth 64)
  | 3 => some (v.q.setWidth 64)
  | 4 => some (BitVec.ofNat 64 v.next)
  | 5 => some (BitVec.ofNat 64 v.deplist.length)
  | _ => none

def execCxRd (sw : Bool) (d a b : XReg) (s : State) : Host.Outcome State Fault Refusal :=
  issue (Form.of (.cxRd sw d a b) sw [.x a, .x b] [.x d]) (fun l s =>
    let w := s.who
    let index := (op0 l).toNat % 2 ^ 16
    if 5 < (op1 l).toNat then .trap s { cause := .illegal, val := op1 l }
    else match s.findVar w.core index with
      | none => .trap s { cause := .illegal, val := op0 l }
      | some (cl, _, v) =>
        let lat := if cl = clusterOf w.core then 4 else max 4 (linkDelay w.core (coreOfCluster cl 0) + Config.contention s.free)
        let s := if cl = clusterOf w.core then s else s.drew
        match s.taskOf w with
        | none => .done (s.laterX w lat .load d ((v.field (op1 l).toNat).getD 0))
        | some (_, t) =>
          if t.crossing.isSome && !t.readSet.contains index then .trap s { cause := .protection, val := op0 l }
          else .done (s.laterX w lat .load d ((((s.viewVar w.core t index).getD v).field (op1 l).toNat).getD 0))) s

/-! ### cx.slope (09 R211) -/

def execCxSlope (sw : Bool) (a b : XReg) (s : State) : Host.Outcome State Fault Refusal :=
  issue (Form.of (.cxSlope sw a b) sw [.x a, .x b] []) (fun l s =>
    let w := s.who
    let index := (op0 l).toNat % 2 ^ 16
    let slope : BitVec 32 := (op1 l).setWidth 32
    if bits (op1 l).toNat 63 32 ≠ 0 || !cxFinite slope then .trap s { cause := .illegal, val := op1 l }
    else match s.findVar w.core index with
      | none => .trap s { cause := .illegal, val := op0 l }
      | some (cl, slot, v) =>
        match s.taskOf w with
        | some (key, t) =>
          if t.crossing.isNone then .trap s { cause := .illegal, val := wordOf (.cxSlope sw a b) }
          else if !t.writeSet.contains index then .trap s { cause := .protection, val := op0 l }
          else
            let k := (s.cluster cl).cxTick
            let r := ((s.viewVar w.core t index).getD v).setSlope t.ts slope k
            let r := { r with next := r.nextCrossing k (some t.ts) }
            .done (s.modDie (dieOf w.core) (fun d => d.modTask key (fun t => { t with
              records := kset index r t.records, slopes := t.slopes ++ [{ index := index, slope := slope }] })))
        | none =>
          if (s.cluster cl).cxRunning then .trap s { cause := .illegal, val := wordOf (.cxSlope sw a b) }
          else .done (s.modVar cl slot (fun v => { v with s := slope }))) s

/-! ### cx.sample (09 R212) -/

/-- Both conditions of a sample hold on the die. -/
def State.sampleReady (s : State) (core tick : Nat) : Bool :=
  !(s.die (dieOf core)).tasks.any (fun t => decide (t.2.lid = (s.core core).lid) && t.2.open_ && decide (t.2.ts ≤ tick))
    && !(s.units core).any (fun c => (s.cluster c).cxRunning &&
      (s.cluster c).vars.any (fun v => decide (v.2.next ≤ tick) && decide (v.2.next ≠ noCrossing) && v.2.task.isNone))

/-- The 512 words of a sample. -/
def Cluster.sample (k : Cluster) (tick : Nat) : List Byte :=
  (List.range 512).flatMap (fun n => leBytes 4 (match kget n k.vars with
    | some v => (cxAdvance v.x v.s ((tick : Int) - v.t) k.cxTick).toNat
    | none => 0x7FC00000))

/-- The start of a sample's copy: commits above its tick are held back for 512 core cycles. -/
def State.capture (s : State) (w : CtxId) : State :=
  match (s.ctx w).park with
  | .cxSample tick va d none sw =>
    if s.sampleReady w.core tick.toNat then
      (s.modCtx w (fun c => { c with park := .cxSample tick va d (some (s.cycle, (s.cluster (clusterOf w.core)).sample tick.toNat)) sw })).modDie (dieOf w.core) (fun k =>
        k.modCommits (s.core w.core).lid (fun c => { c with holds := c.holds ++ [(tick.toNat, s.cycle + 512)] }))
    else s
  | _ => s

def execSampleCapture (w : CtxId) (s : State) : Host.Outcome State Fault Refusal := .next (s.capture w)

def execCxSample (sw : Bool) (d a b : XReg) (s : State) : Host.Outcome State Fault Refusal :=
  issue (Form.cx (.cxSample sw d a b) sw [.x a, .x b] [.x d]) (fun l s =>
    let w := s.who
    let va := op1 l
    if va.toNat % 64 ≠ 0 then .trap s { cause := .misaligned, val := va }
    else if 2 ^ 48 ≤ va.toNat then .trap s { cause := .translation, val := va }
    else if !inOwn va.toNat 2048 then .trap s { cause := .protection, val := va }
    else match (List.range 4).foldl (fun acc i =>
        match acc with
        | (s, some e) => (s, some e)
        | (s, none) => match s.resolve w.core .write (va + BitVec.ofNat 64 (512 * i)) 512 with
          | (s, .error e) => (s, some e)
          | (s, .ok _) => (s, none)) (s, (none : Option Cause)) with
      | (s, some e) => .trap s { cause := e, val := va }
      | (s, none) =>
        if (match s.lastTs w.core with | some ts => decide ((op0 l).toNat < ts) | none => false) then
          .done (s.laterX w 1 .unit d (BitVec.allOnes 64))
        else
          let s := ((s.reserveX w d).modCtx w (fun c => { c with park := .cxSample (op0 l) va d none sw })).capture w
          .park s (s.ctx w).park) s

/-- A sample is captured as soon as it can be; its 2,048 bytes are written from 512 core cycles later, 64 in each. -/
def State.pollSample (s : State) (w : CtxId) : State :=
  match (s.ctx w).park with
  | .cxSample _ _ _ none _ => s.capture w
  | .cxSample _ va d (some (t, bytes)) sw =>
    if s.cycle < t + 512 then s
    else if s.cycle < t + 544 then
      let i := 64 * (s.cycle - (t + 512))
      s.writeMemAfter 3 (spadCell w.core va.toNat + i) ((bytes.drop i).take 64)
    else s.completeX w d (BitVec.ofNat 64 (s.cluster (clusterOf w.core)).vars.length) sw s.cycle
  | _ => s

/-! ### Submission (16 R325) -/

/-- A unit submits a variable's crossing task, or holds it for want of a place; where a commit has passed it, NEXT is computed again. -/
def State.submitCrossing (s : State) (cl slot : Nat) : State :=
  let core := coreOfCluster cl 0
  match kget slot (s.cluster cl).vars with
  | none => s
  | some v =>
    if !(s.cluster cl).cxRunning || v.task.isSome || !(match v.due with | some t => decide (t ≤ s.cycle) | none => false) then s
    else
      let t := { OTask.fresh v.next v.index (s.handlerEntry core v.handler) (BitVec.ofNat 64 v.index) [] (s.core core).lid s.cycle with
        cluster := cl, crossing := some slot }
      match s.enterTask (dieOf core) t with
      | (_, none) => s
      | (t, some key) =>
        if ((s.die (dieOf core)).commitsOf (s.core core).lid).passed (v.next, v.index) then s.schedule cl slot
        else t.modVar cl slot (fun v => { v with task := some key, due := none })

def execCrossingSubmit (cl slot : Nat) (s : State) : Host.Outcome State Fault Refusal := .next (s.submitCrossing cl slot)

/-- The submissions of a core cycle: held tasks in (TS, KEY) order (13 R278), then those of this core cycle in ascending index (16 R328). -/
def State.submitAll (s : State) : State :=
  let due := s.clusters.flatMap (fun c => if c.2.cxRunning && !(s.core (coreOfCluster c.1 0)).halted then
    (c.2.vars.filter (fun v => v.2.due.isSome)).map (fun v => (if v.2.due = some s.cycle then (2 ^ 64, v.2.index) else (v.2.next, v.2.index), c.1, v.1)) else [])
  (due.mergeSort (fun a b => tsLess a.1 b.1)).foldl (fun s e => s.submitCrossing e.2.1 e.2.2) s

/-! ### The start of a crossing task (16 R326, R327, R332) -/

/-- The write and read sets of a variable (16 R326). -/
def State.recordSets (s : State) (core : Nat) (v : CxVar) : List Nat × List Nat :=
  let wr := v.index :: v.deplist
  (wr, wr ++ (s.units core).flatMap (fun c => ((s.cluster c).vars.filter (fun u => u.2.deplist.any (fun i => wr.contains i))).map (·.2.index)))

/-- A held trap is delivered at the commit point (08 R196, 16 R332). -/
def State.deliverHeld (s : State) (w : CtxId) (key : Nat) (t : Trap) : State :=
  let die := dieOf w.core
  let s := (s.modDie die (fun d => d.modTask key (fun o => { o with held := none }))).raise w t
  if t.cause = .storm && !(s.ctx w).live then
    s.modDie die (fun d => d.modTask key (fun o => { o with stormKill := true, records := o.records.map (fun r => (r.1, { r.2 with s := 0 })) }))
  else s

/-- A granted crossing task takes a slot: the crossing step is applied to its view, and STORM is raised before its first word. -/
def State.startCrossing (s : State) (w : CtxId) (key : Nat) (t : OTask) : State :=
  match kget (t.crossing.getD 0) (s.cluster t.cluster).vars with
  | none => s.startTask w key { t with records := [] }
  | some v =>
    let (wr, rd) := s.recordSets w.core v
    let t := { t with records := [], writeSet := wr, readSet := rd, stormKill := false }
    let (r, storm) := ((s.viewVar w.core t v.index).getD v).step t.ts (s.cluster t.cluster)
    let s := s.startTask w key { t with records := [(v.index, r)] }
    let s := s.modDie (dieOf w.core) (fun d => d.modTask key (fun t => { t with firstStore := some s.cycle }))
    if storm && decide ((s.ctx w).park = .none) then s.holdTrap w key { cause := .storm, val := BitVec.ofNat 64 v.index } else s

end Sys2Proof.Machine
end

