-- ==== Sys2Proof/Machine/Commit.lean ====
section
/-! DEFINITION. The end of a wait with no effect, and the commit and abort of ordered tasks (08 R194 to R196; 13 R276, R277; 16 R328,
R330, R332). -/

namespace Sys2Proof.Machine

/-! ### Aborts (08 R195) -/

def OTask.started (t : OTask) : Bool := decide (t.state = 1) || decide (t.state = 2)

/-- Two tasks overlap (08 R191, 16 R326). -/
def OTask.overlaps (a b : OTask) : Bool :=
  let meet (x y : List Nat) : Bool := x.any (fun i => y.contains i)
  match a.crossing, b.crossing with
  | some _, some _ => meet a.writeSet (b.readSet ++ b.writeSet) || meet b.writeSet (a.readSet ++ a.writeSet)
  | none, none => feetMeet a.foot b.foot
  | _, _ => false

/-- The tasks that an abort of those in `set` reaches next: those that overlap one and started in or after the core cycle of its
first store, and those that one submitted. -/
def Die.reached (d : Die) (lid committing : Nat) (set : List Nat) : List Nat :=
  (d.tasks.filter (fun e => decide (e.1 / 512 = lid) && decide (e.1 ≠ committing) && e.2.open_ && !set.contains e.1 &&
    ((match e.2.parent with | some p => set.contains p | none => false) ||
     (e.2.started && set.any (fun k => match kget k d.tasks with
        | some a => e.2.overlaps a && (match a.firstStore with | some f => decide (f ≤ e.2.startedAt) | none => false)
        | none => false))))).map (·.1)

/-- The closure of a set under `reached`. -/
def Die.abortSet (d : Die) (lid committing : Nat) : Nat → List Nat → List Nat
  | 0, set => set
  | fuel + 1, set => match d.reached lid committing set with | [] => set | more => d.abortSet lid committing fuel (set ++ more)

/-- The spill space that a task's lines take. -/
def OTask.spill (t : OTask) : Spill := t.buffered.foldl (fun a b => a.join b.spill) .none

/-- The context of a task ends, in its slot or swapped out; its buffered lines are discarded. -/
def State.dropRun (s : State) (key : Nat) (t : OTask) : State :=
  if t.started then
    let mine (r : Role) : Bool := match r with | .task k => decide (k = key) | _ => false
    let s := (List.finRange 11).foldl (fun s c =>
      let w : CtxId := { core := t.home, ctx := c }
      if (s.ctx w).live && mine (s.ctx w).role then
        (((s.cancelPark w).takeResults w).1.modCtx w (fun c => { c with role := .plain })).endCtx w true
      else s) s
    s.modCore t.home (fun k =>
      let out := k.swapped.filter (fun x => mine x.ctx.role)
      { (k.freeSpill (t.spill.join ((out.map (·.space)).foldl Spill.join .none))) with
        beyond := k.beyond - out.countP (fun x => x.ctx.park.far)
        swapped := k.swapped.filter (fun x => !mine x.ctx.role), orphans := k.orphans ++ out.filterMap (fun x => x.ctx.orphan) })
  else s

/-- One task is aborted and waits to run again, or is discarded (08 R195). -/
def State.abortTask (s : State) (die key : Nat) (discard : Bool) : State :=
  match kget key (s.die die).tasks with
  | none => s
  | some t =>
    (s.dropRun key t).modDie die (fun d => d.modTask key (fun t => { t with
      state := if discard then 4 else 0, age := s.cycle, running := none, firstStore := none, buffer := [], buffered := [], direct := false, exitDec := none
      held := none, killed := false, stormKill := false, records := [], slopes := [], writeSet := [], readSet := [] }))

/-- Aborts a set of tasks and what the abort reaches; those of `gone`, and those that one of the set submitted, are discarded. -/
def State.abortAll (s : State) (die lid committing : Nat) (first gone : List Nat) : State :=
  let d := s.die die
  let set := d.abortSet lid committing d.tasks.length first
  set.foldl (fun s k =>
    let child := match kget k d.tasks with | some t => (match t.parent with | some p => set.contains p | none => false) | none => false
    s.abortTask die k (child || gone.contains k)) s

/-! ### Commits (08 R194, 13 R277) -/

/-- Runs of bytes that a buffer holds of a 64-byte line. -/
def lineRuns (buffer : KMap Byte) (cell : Nat) : List (Nat × List Byte) :=
  (List.range 64).foldl (fun acc i =>
    match kget (cell + i) buffer with
    | none => acc
    | some b =>
      match acc.getLast? with
      | some (k, bs) => if k + bs.length = cell + i then acc.dropLast ++ [(k, bs ++ [b])] else acc ++ [(cell + i, [b])]
      | none => [(cell + i, [b])]) []

/-- The committed records that a crossing task's commit changes (16 R327, R328, R332), with the variables changed. -/
def State.commitRecords (s : State) (core : Nat) (t : OTask) : State × List Nat :=
  match t.crossing with
  | none => (s, [])
  | some slot =>
    let s := s.modVar t.cluster slot (fun v =>
      let r := (v.step t.ts (s.cluster t.cluster)).1
      if t.stormKill then { r with s := 0 } else r)
    let (s, changed) := t.slopes.foldl (fun (acc : State × List Nat) u =>
      match acc.1.findVar core u.index with
      | some (cl, n, _) => (acc.1.modVar cl n (fun v => v.setSlope t.ts u.slope (acc.1.cluster cl).cxTick), acc.2 ++ [u.index])
      | none => acc) (s, [t.key])
    (s, changed.dedup.insertionSort (fun a b => a ≤ b))

/-- The outstanding crossing task of a changed variable is withdrawn, and its next crossing is computed (16 R328). -/
def State.reschedule (s : State) (core : Nat) (changed : List Nat) : State :=
  changed.foldl (fun s i =>
    match s.findVar core i with
    | some (cl, n, _) => (s.modVar cl n (fun v => { v with task := none })).schedule cl n
    | none => s) s

/-- A task becomes a finished commit point (08 R194, R195): aborts are decided, records change, and its lines begin to be performed. -/
def State.beginCommit (s : State) (die key : Nat) (t : OTask) : State :=
  let lid := key / 512
  let core := t.home
  let s := s.modDie die (fun d => d.modCommits lid (fun c => { c with last := some t.order }))
  let late := ((s.die die).tasks.filter (fun e => decide (e.1 / 512 = lid) && decide (e.1 ≠ key) && e.2.started && e.2.overlaps t
    && decide (e.2.startedAt ≤ t.finishedAt))).map (·.1)
  let (s, changed) := s.commitRecords core t
  let withdrawn := changed.filterMap (fun i => match s.findVar core i with
    | some (_, _, v) => (match v.task with | some k => if k = key then none else some k | none => none)
    | none => none)
  let s := s.abortAll die lid key (late ++ withdrawn) withdrawn
  let s := s.reschedule core changed
  let s := s.modDie die (fun d => { d with tasks := d.tasks.map (fun e => if e.2.parent = some key then (e.1, { e.2 with parent := none }) else e) })
  let s := if t.killed then (s.modCore t.home (fun k => k.freeSpill t.spill)).modDie die (fun d =>
    d.modTask key (fun t => { t with buffered := [], buffer := [] })) else s
  if (t.killed || t.buffered.isEmpty) && t.exitDec.isNone then
    s.modDie die (fun d => (d.modTask key (fun t => { t with state := 3 })).modCommits lid (fun c => { c with from_ := s.cycle + 1 }))
  else s.modDie die (fun d => d.modCommits lid (fun c => { c with busy := some key }))

/-- The commit being performed goes on: one line in a core cycle, then the held decrement (13 R277), each an access of its page now (21 R376). DESIGN
CHOICE (notes/assumptions/120): one that its page no longer allows is performed where it was decided. A line of the overflow area that does not
translate ends the commit, as a kill does (14 R292). -/
def State.performCommit (s : State) (die key : Nat) (t : OTask) : State :=
  let lid := key / 512
  let finish (s : State) : State := s.modDie die (fun d =>
    (d.modTask key (fun t => { t with state := 3 })).modCommits lid (fun c => { c with busy := none, from_ := s.cycle + 1 }))
  match t.buffered with
  | line :: rest =>
    match s.spillAccess t.home .read line.spill.far with
    | (s, false) =>
      finish ((s.modCore t.home (fun k => k.freeSpill t.spill)).modDie die (fun d => d.modTask key (fun t => { t with buffered := [], exitDec := none })))
    | (s, true) =>
      let (s, attr, cell) := match s.resolve t.home .write line.va 64 with
        | (s, .ok a) => (s, a.attr, a.key)
        | (s, .error _) => (s, Attr.raw, line.cell)
      let s := (lineRuns t.buffer line.cell).foldl (fun s r => s.writePage attr (cell + (r.1 - line.cell)) r.2) s
      let s := (s.modCore t.home (fun k => k.freeSpill line.spill)).modDie die (fun d => d.modTask key (fun t => { t with buffered := rest }))
      if rest.isEmpty && t.exitDec.isNone then finish s else s
  | [] =>
    match t.exitDec with
    | some (cell, va) =>
      let w : CtxId := { core := t.home, ctx := 0 }
      let (s, a) := match s.resolve t.home .atomic va 8 with
        | (s, .ok a) => (s, a)
        | (s, .error _) => (s, { key := cell, attr := .raw, lat := 1, spad := none, beyond := false })
      let r : AtomicReq := { exitRequest (s.issuer w) va { a with lat := 1, beyond := false } with members := [] }
      finish ((s.post s.cycle (.amoHomeApply r)).modDie die (fun d => d.modTask key (fun t => { t with exitDec := none })))
    | none => finish s

/-- What becoming the commit point does to a running task: its held trap is delivered, its waiting store is issued again, and from then on its
stores are direct (08 R196, 13 R276). -/
def State.freeCommitPoint (s : State) (key : Nat) (t : OTask) : State :=
  match t.running with
  | none => s
  | some w =>
    if !(s.ctx w).live || (s.ctx w).role ≠ .task key then s
    else match (s.ctx w).park with
    | .held trap => if s.cycle < (s.ctx w).readyAt then s else s.deliverHeld w key trap
    | .storeFull =>
      ((s.unpop w).modCtx w (fun c => { c with park := .none, readyAt := s.cycle })).modDie (dieOf w.core) (fun d =>
        d.modTask key (fun t => { t with direct := true }))
    | _ => s

/-- A task that has finished is the commit point, with no sample holding it back (16 R331): its commit begins. -/
def State.tryCommit (s : State) (die lid : Nat) : State :=
  let d := s.die die
  let c := d.commitsOf lid
  if c.busy.isSome || decide (s.cycle < c.from_) then s
  else match d.commitPoint lid with
    | some (key, t) =>
      if decide (t.state = 2) && !c.holds.any (fun h => decide (s.cycle < h.2) && decide (h.1 < t.ts)) then s.beginCommit die key t else s
    | none => s

/-- One core cycle of a launch's commit point on a die. -/
def State.commitStep (s : State) (die lid : Nat) : State :=
  let d := s.die die
  let c := d.commitsOf lid
  match c.busy with
  | some key => match kget key d.tasks with | some t => s.performCommit die key t | none => s
  | none =>
    if s.cycle < c.from_ then s
    else match d.commitPoint lid with
      | none => s
      | some (key, t) => if t.state = 2 then s.tryCommit die lid else s.freeCommitPoint key t

/-- The launches that hold ordered tasks on a die. -/
def Die.taskLids (d : Die) : List Nat := (d.tasks.map (fun e => e.1 / 512)).dedup

/-- A task that finished in this core cycle as the commit point begins its commit in it (13 R277). -/
def State.commitsAtEnd (s : State) (die : Nat) : State := (s.die die).taskLids.foldl (fun s lid => s.tryCommit die lid) s

def execTaskCommit (die : Nat) (s : State) : Host.Outcome State Fault Refusal :=
  .next ((s.die die).taskLids.foldl (fun s lid => s.commitStep die lid) s)

end Sys2Proof.Machine
end

