-- ==== Sys2Proof/Machine/Scalar.lean ====
section
/-! DEFINITION. The scalar groups: alu (04 R81 to R85), the immediate forms (04 R87), and hint words (04 R88; 01 R25 to R27). -/

namespace Sys2Proof.Machine

/-- A single-cycle binary alu word (04 R83). -/
def alu2 (i : Instr) (sw : Bool) (d a b : XReg) (f : Word → Word → Word) (s : State) : Host.Outcome State Fault Refusal :=
  issue (Form.of i sw [.x a, .x b] [.x d]) (fun l s => .done (s.writeX s.who d (f (op0 l) (op1 l)))) s

/-- A single-cycle unary alu word (04 R83). -/
def alu1 (i : Instr) (sw : Bool) (d a : XReg) (f : Word → Word) (s : State) : Host.Outcome State Fault Refusal :=
  issue (Form.of i sw [.x a] [.x d]) (fun l s => .done (s.writeX s.who d (f (op0 l)))) s

/-- A multiply: 3 core cycles, one per core cycle (04 R84). -/
def aluMulOp (i : Instr) (sw : Bool) (d a b : XReg) (f : Word → Word → Word) (s : State) : Host.Outcome State Fault Refusal :=
  issue (Form.of i sw [.x a, .x b] [.x d]) (fun l s => .done (s.laterX s.who 3 .unit d (f (op0 l) (op1 l)))) s

/-- A divide-family word: 20 core cycles on a divider that is not pipelined; while it is busy, the word is not ready (04 R84). -/
def aluDivOp (i : Instr) (sw : Bool) (d a b : XReg) (f : Word → Word → Word) (s : State) : Host.Outcome State Fault Refusal :=
  issue { Form.of i sw [.x a, .x b] [.x d] with held := decide (s.cycle < (s.core s.who.core).divBusy) } (fun l s =>
    let s := s.modCore s.who.core (fun k => { k with divBusy := s.cycle + 21 })
    .done (s.laterX s.who 20 .unit d (f (op0 l) (op1 l)))) s

/-- The count of zero bits above the highest one (04 R83). -/
def lzc (a : Word) : Word := BitVec.ofNat 64 (64 - bitLength a.toNat)
/-- The count of zero bits below the lowest one (04 R83), 64 for 0. -/
def tzc (a : Word) : Word := BitVec.ofNat 64 ((List.range 64).findIdx (fun i => a.getLsbD i))
/-- The count of one bits (04 R83). -/
def onesOf (a : Word) : Word := BitVec.ofNat 64 ((List.range 64).countP (fun i => a.getLsbD i))
/-- The low 64 bits of a signed 128-bit product's high half (04 R84). -/
def highProduct (a b : Int) : Word := BitVec.ofInt 64 (a * b / (2 ^ 64 : Nat))
/-- The signed quotient (04 R84). -/
def quoS (a b : Word) : Word :=
  if b = 0 then BitVec.allOnes 64
  else if a = BitVec.intMin 64 && b = BitVec.allOnes 64 then a
  else BitVec.ofInt 64 (a.toInt.tdiv b.toInt)
/-- The signed remainder, of the dividend's sign (04 R84). -/
def rmdS (a b : Word) : Word :=
  if b = 0 then a
  else if a = BitVec.intMin 64 && b = BitVec.allOnes 64 then 0
  else BitVec.ofInt 64 (a.toInt - b.toInt * a.toInt.tdiv b.toInt)
def quoU (a b : Word) : Word := if b = 0 then BitVec.allOnes 64 else BitVec.ofNat 64 (a.toNat / b.toNat)
def rmdU (a b : Word) : Word := if b = 0 then a else BitVec.ofNat 64 (a.toNat % b.toNat)
/-- The shift amount (04 R83): bits 5:0. -/
def shamt (b : Word) : Nat := b.toNat % 64

def execAluAdd (sw : Bool) (d a b : XReg) (s : State) := alu2 (.aluAdd sw d a b) sw d a b (fun A B => A + B) s
def execAluSub (sw : Bool) (d a b : XReg) (s : State) := alu2 (.aluSub sw d a b) sw d a b (fun A B => A - B) s
def execAluAnd (sw : Bool) (d a b : XReg) (s : State) := alu2 (.aluAnd sw d a b) sw d a b (fun A B => A &&& B) s
def execAluOr (sw : Bool) (d a b : XReg) (s : State) := alu2 (.aluOr sw d a b) sw d a b (fun A B => A ||| B) s
def execAluXor (sw : Bool) (d a b : XReg) (s : State) := alu2 (.aluXor sw d a b) sw d a b (fun A B => A ^^^ B) s
def execAluAnot (sw : Bool) (d a b : XReg) (s : State) := alu2 (.aluAnot sw d a b) sw d a b (fun A B => A &&& ~~~B) s
def execAluSll (sw : Bool) (d a b : XReg) (s : State) := alu2 (.aluSll sw d a b) sw d a b (fun A B => A <<< shamt B) s
def execAluSrl (sw : Bool) (d a b : XReg) (s : State) := alu2 (.aluSrl sw d a b) sw d a b (fun A B => A >>> shamt B) s
def execAluSra (sw : Bool) (d a b : XReg) (s : State) := alu2 (.aluSra sw d a b) sw d a b (fun A B => A.sshiftRight (shamt B)) s
def execAluRol (sw : Bool) (d a b : XReg) (s : State) := alu2 (.aluRol sw d a b) sw d a b (fun A B => A.rotateLeft (shamt B)) s
def execAluMin (sw : Bool) (d a b : XReg) (s : State) := alu2 (.aluMin sw d a b) sw d a b (fun A B => if A.slt B then A else B) s
def execAluMax (sw : Bool) (d a b : XReg) (s : State) := alu2 (.aluMax sw d a b) sw d a b (fun A B => if A.slt B then B else A) s
def execAluUmin (sw : Bool) (d a b : XReg) (s : State) := alu2 (.aluUmin sw d a b) sw d a b (fun A B => if A.ult B then A else B) s
def execAluUmax (sw : Bool) (d a b : XReg) (s : State) := alu2 (.aluUmax sw d a b) sw d a b (fun A B => if A.ult B then B else A) s
def execAluStep2 (sw : Bool) (d a b : XReg) (s : State) := alu2 (.aluStep2 sw d a b) sw d a b (fun A B => A * 2 + B) s
def execAluStep4 (sw : Bool) (d a b : XReg) (s : State) := alu2 (.aluStep4 sw d a b) sw d a b (fun A B => A * 4 + B) s
def execAluStep8 (sw : Bool) (d a b : XReg) (s : State) := alu2 (.aluStep8 sw d a b) sw d a b (fun A B => A * 8 + B) s
def execAluStep64 (sw : Bool) (d a b : XReg) (s : State) := alu2 (.aluStep64 sw d a b) sw d a b (fun A B => A * 64 + B) s
def execAluCmp (sw : Bool) (c : Cond) (d a b : XReg) (s : State) :=
  alu2 (.aluCmp sw c d a b) sw d a b (fun A B => flagWord (condHolds c A B)) s
def execAluLzc (sw : Bool) (d a : XReg) (s : State) := alu1 (.aluLzc sw d a) sw d a lzc s
def execAluTzc (sw : Bool) (d a : XReg) (s : State) := alu1 (.aluTzc sw d a) sw d a tzc s
def execAluOnes (sw : Bool) (d a : XReg) (s : State) := alu1 (.aluOnes sw d a) sw d a onesOf s
def execAluSx8 (sw : Bool) (d a : XReg) (s : State) := alu1 (.aluSx8 sw d a) sw d a (fun A => (A.setWidth 8).signExtend 64) s
def execAluSx16 (sw : Bool) (d a : XReg) (s : State) := alu1 (.aluSx16 sw d a) sw d a (fun A => (A.setWidth 16).signExtend 64) s
def execAluSx32 (sw : Bool) (d a : XReg) (s : State) := alu1 (.aluSx32 sw d a) sw d a (fun A => (A.setWidth 32).signExtend 64) s
def execAluZx32 (sw : Bool) (d a : XReg) (s : State) := alu1 (.aluZx32 sw d a) sw d a (fun A => (A.setWidth 32).setWidth 64) s
def execAluMul (sw : Bool) (d a b : XReg) (s : State) := aluMulOp (.aluMul sw d a b) sw d a b (fun A B => A * B) s
def execAluHiss (sw : Bool) (d a b : XReg) (s : State) :=
  aluMulOp (.aluHiss sw d a b) sw d a b (fun A B => highProduct A.toInt B.toInt) s
def execAluHiuu (sw : Bool) (d a b : XReg) (s : State) :=
  aluMulOp (.aluHiuu sw d a b) sw d a b (fun A B => highProduct A.toNat B.toNat) s
def execAluHisu (sw : Bool) (d a b : XReg) (s : State) :=
  aluMulOp (.aluHisu sw d a b) sw d a b (fun A B => highProduct A.toInt B.toNat) s
def execAluQuo (sw : Bool) (d a b : XReg) (s : State) := aluDivOp (.aluQuo sw d a b) sw d a b quoS s
def execAluQuou (sw : Bool) (d a b : XReg) (s : State) := aluDivOp (.aluQuou sw d a b) sw d a b quoU s
def execAluRmd (sw : Bool) (d a b : XReg) (s : State) := aluDivOp (.aluRmd sw d a b) sw d a b rmdS s
def execAluRmdu (sw : Bool) (d a b : XReg) (s : State) := aluDivOp (.aluRmdu sw d a b) sw d a b rmdU s

/-! ### Immediate forms (04 R87) -/

/-- An immediate word: the effect of x[a] and of the hint group. -/
def immOp (i : Instr) (sw : Bool) (d a : XReg) (f : Hints → Word → Word) (s : State) : Host.Outcome State Fault Refusal :=
  issue (Form.imm i sw [.x a] [.x d]) (fun l s => .done (s.writeX s.who d (f (s.ctx s.who).hints (op0 l)))) s

def execAddi (sw : Bool) (d a : XReg) (imm : BitVec 15) (s : State) :=
  immOp (.addi sw d a imm) sw d a (fun h A => A + immS h imm.toNat 15 1) s
def execAndi (sw : Bool) (d a : XReg) (imm : BitVec 15) (s : State) :=
  immOp (.andi sw d a imm) sw d a (fun h A => A &&& immZ h imm.toNat 15) s
def execOri (sw : Bool) (d a : XReg) (imm : BitVec 15) (s : State) :=
  immOp (.ori sw d a imm) sw d a (fun h A => A ||| immZ h imm.toNat 15) s
def execXori (sw : Bool) (d a : XReg) (imm : BitVec 15) (s : State) :=
  immOp (.xori sw d a imm) sw d a (fun h A => A ^^^ immZ h imm.toNat 15) s
def execCmpi (sw : Bool) (c : Cond) (d a : XReg) (imm : BitVec 11) (s : State) :=
  immOp (.cmpi sw c d a imm) sw d a (fun h A => flagWord (condHolds c A (immS h imm.toNat 11 1))) s
def execLim (sw : Bool) (d : XReg) (imm : BitVec 20) (s : State) : Host.Outcome State Fault Refusal :=
  issue (Form.imm (.lim sw d imm) sw [] [.x d]) (fun _ s =>
    .done (s.writeX s.who d (immS (s.ctx s.who).hints imm.toNat 20 1))) s

/-! ### Hint words (04 R88; 01 R25 to R27) -/

/-- The data pending of a kind. -/
def Hints.get (h : Hints) : HintKind → Option (BitVec 23)
  | .imm => h.imm | .imx => h.imx | .mod => h.mod | .reg => h.reg

/-- Adds a hint word to the group; `pc` is its address (01 R26). -/
def Hints.add (h : Hints) (k : HintKind) (sw : Bool) (data : BitVec 23) (pc : Word) : Hints :=
  let h := if h.pending then h else { h with first := pc }
  match k with
  | .imm => { h with imm := some data }
  | .imx => { h with imx := some data }
  | .mod => { h with mod := some data, modSw := sw }
  | .reg => { h with reg := some data, regSw := sw }

/-- A hint word: a kind already pending traps ILLEGAL with the word's address (02 R41 row 5). -/
def hintOp (i : Instr) (sw : Bool) (kind : HintKind) (data : BitVec 23) (s : State) : Host.Outcome State Fault Refusal :=
  let w := s.who
  let c := s.ctx w
  if s.gangFull w then .next { s with stalled := true }
  else if (c.hints.get kind).isSome then .next (s.raise w { cause := .illegal, val := c.pc })
  else .next ((Form.of i sw [] []).finish s w [] [] (.hint (s.modCtx w (fun c => { c with hints := c.hints.add kind sw data c.pc }))))

def execHintImm (sw : Bool) (data : BitVec 23) (s : State) := hintOp (.hintImm sw data) sw .imm data s
def execHintImx (sw : Bool) (data : BitVec 23) (s : State) := hintOp (.hintImx sw data) sw .imx data s
def execHintMod (sw : Bool) (data : BitVec 23) (s : State) := hintOp (.hintMod sw data) sw .mod data s
def execHintReg (sw : Bool) (data : BitVec 23) (s : State) := hintOp (.hintReg sw data) sw .reg data s

end Sys2Proof.Machine
end

