-- ==== Sys2Proof/Machine/Control.lean ====
section
/-! DEFINITION. Branches and jumps (04 R91 to R94; 01 R13 to R15). -/

namespace Sys2Proof.Machine

/-- A transfer to a target: the checks of 04 R92 in order; a failure traps with no link written (01 R15); a pass writes the
link N and goes to the target. -/
def transfer (s : State) (link : Option XReg) (target : Word) : Body :=
  let w := s.who
  match s.checkTarget w.core target true with
  | (s, some t) => .trap s t
  | (s, none) =>
    match link with
    | some d => .jump (s.writeX w d (seqNext (s.ctx w).pc)) target
    | none => .jump s target

def execBr (sw : Bool) (cond : Cond) (a : XReg) (disp : BitVec 16) (s : State) : Host.Outcome State Fault Refusal :=
  issue (Form.imm (.br sw cond a disp) sw [.x a] []) (fun l s =>
    if brHolds cond (op0 l) then
      let c := s.ctx s.who
      transfer s none (c.pc + immS c.hints disp.toNat 16 4)
    else .done s) s

def execJmp (sw : Bool) (d : XReg) (imm : BitVec 20) (s : State) : Host.Outcome State Fault Refusal :=
  issue (Form.imm (.jmp sw d imm) sw [] [.x d]) (fun _ s =>
    let c := s.ctx s.who
    transfer s (some d) (c.pc + immS c.hints imm.toNat 20 4)) s

def execJr (sw : Bool) (d a : XReg) (imm : BitVec 15) (s : State) : Host.Outcome State Fault Refusal :=
  issue (Form.imm (.jr sw d a imm) sw [.x a] [.x d]) (fun l s =>
    transfer s (some d) (op0 l + immS (s.ctx s.who).hints imm.toNat 15 4)) s

end Sys2Proof.Machine
end

