-- ==== Sys2Proof/Machine/Fetch.lean ====
section
/-! DEFINITION. Fetch (01 R12 to R16): lines and their words, the words forwarded to a gang's followers (08 R200, R201), and the
decode traps (02 R41). -/

namespace Sys2Proof.Machine

/-- What fetching the next word of a context gives. -/
inductive Fetched where
  | word (s : State) (w : BitVec 32)
  /-- Its line is on its way, or no forwarded word has arrived. -/
  | busy
  /-- Its line must be fetched. -/
  | begin (s : State)
  | trap (s : State) (t : Trap)

/-- The address of the line of a word. -/
def lineOf (pc : Word) : Nat := pc.toNat / 128 * 128

/-- The 32 words of a line in memory. -/
def State.lineWords (s : State) (key : Nat) : List (BitVec 32) := (List.range 32).map (fun i => BitVec.ofNat 32 (s.peek (key + 4 * i) 4))

/-- A line of a core has been fetched (01 R17): its words as memory holds them. The fetch counts as an access of its page (21 R384). -/
def State.fetchLine (s : State) (core line : Nat) : State :=
  match s.fetchEntry core (BitVec.ofNat 64 line) with
  | (s, .error _) => s.modCore core (fun k => { k with fetching := k.fetching.filter (fun l => decide (l ≠ line)) })
  | (s, .ok (key, e)) =>
    (s.countAccess (homeDie line) (s.tenantOf core) (dieOf core / 2) e).modCore core (fun k => { k with
      fetching := k.fetching.filter (fun l => decide (l ≠ line)), lines := kset line (key, s.lineWords key) k.lines })

def execLineFetched (core line : Nat) (s : State) : Host.Outcome State Fault Refusal := .next (s.fetchLine core line)

/-- A word of a held line: a sequential step into the line is checked by row 2 of 01 R14. -/
def State.fetchHeld (s : State) (w : CtxId) (line key : Nat) : Fetched :=
  let c := s.ctx w
  let word (s : State) : Fetched := let r := s.codeWord w.core line key (c.pc.toNat % 128 / 4); .word r.1 r.2
  if s.poisoned (key / 128 * 128 + c.pc.toNat % 128) 4 then .trap s { cause := .poison, val := c.pc }
  else if c.newLine then
    let (s, header) := s.codeWord w.core line key 0
    if s.poisoned (key / 128 * 128) 4 then .trap s { cause := .poison, val := c.pc }
    else if header.getLsbD 0 then word (s.modCtx w (fun c => { c with newLine := false })) else .trap s { cause := .illegal, val := c.pc }
  else word s

/-- A follower that fetches what a halt has discarded has come to its leader's saved PC, and takes forwarded words again (08 R202). -/
def State.caughtUp (s : State) (w : CtxId) : State :=
  if (s.core w.core).gang.behind = some (s.ctx w).pc then s.modCore w.core (fun k => { k with gang := { k.gang with behind := none } }) else s

/-- The next word of a context (01 R13 to R17, 08 R200); a poisoned word traps (23 R407).
DESIGN CHOICE (notes/assumptions/12): the spec gives no time for the fetch of a line; here it keeps the context not ready for one core cycle and
for what contention adds, a free value. -/
def State.fetch (s : State) (w : CtxId) : Fetched :=
  let s := if (s.core w.core).follows w then s.caughtUp w else s
  let k := s.core w.core
  let c := s.ctx w
  if k.follows w && k.gang.behind.isNone then
    match k.gang.queue with
    | [] => .busy
    | (word, _) :: _ => .word s word
  else
    let line := lineOf c.pc
    match kget line k.lines with
    | some (key, _) => s.fetchHeld w line key
    | none =>
      if k.fetching.contains line then .busy
      else match s.resolveFetch w.core c.pc with
        | (s, .error e) => .trap s { cause := e, val := c.pc }
        | (s, .ok _) =>
          .begin ((s.modCore w.core (fun k => { k with fetching := line :: k.fetching })).post (s.cycle + 1 + Config.contention s.free)
            (.lineFetched w.core line)).drew

/-- A forwarded word arrives in a follower's buffer (08 R200). -/
def execForwardedWordArrival (core : Nat) (word : BitVec 32) (pc : Word) (s : State) : Host.Outcome State Fault Refusal :=
  .next (s.modCore core (fun k =>
    let g := k.gang
    if g.active && g.attached then { k with gang := { g with inFlight := g.inFlight - 1, queue := g.queue ++ [(word, pc)] } } else k))

/-- After an attached follower has issued a forwarded word: the word leaves the buffer, and a follower whose next PC differs
from the leader's detaches (08 R201). -/
def State.followed (s : State) (w : CtxId) : State :=
  let g := (s.core w.core).gang
  if (s.core w.core).follows w && g.behind.isNone then
    match g.queue with
    | [] => s
    | (_, pc) :: rest =>
      let s := s.modCore w.core (fun k => { k with gang := { k.gang with queue := rest } })
      if (s.ctx w).live && decide ((s.ctx w).nextPc ≠ pc) then s.detach w.core else s
  else s

/-- The trap of a word that does not decode (02 R41): TRAPVAL is the word zero-extended. -/
def decodeTrap (f : DecodeFault) (word : BitVec 32) : Trap :=
  match f with
  | .zeroWord => { cause := .zeroWord, val := word.setWidth 64 }
  | .illegal | .truncated => { cause := .illegal, val := word.setWidth 64 }
  | .reservedField => { cause := .reservedField, val := word.setWidth 64 }

/-- The decode checks of 02 R41 that look at the hint group come after the word's own; a word that does not decode traps before
any of them. -/
def State.decodeFails (s : State) (w : CtxId) (f : DecodeFault) (word : BitVec 32) : State := s.raise w (decodeTrap f word)

/-! ### Placing a word for the next fetch -/

/-- The address at which a placed word stands: slot 1 of the first line above the local addresses (14 R283), at DRAM cell 0. -/
def placedPc : Word := 0x2000004

/-- Stands for the load of a program (notes/assumptions/2): context 0 of core 0 is live at slot 1 of a code line that holds the
word and that the core has fetched; it is the first candidate of the core cycle, and no event is due before it. -/
def State.placeWord (s : State) (w : BitVec 32) : State :=
  let s := { s with
    turn := 0, begun := true, asked := [], deciding := none, agenda := s.agenda.filter (fun e => decide (s.cycle < e.1))
    mem := Memory.writeBytes s.mem 0 (leBytes 4 0xFFFFFFFF ++ leBytes 4 w.toNat) }
  let s := s.modCore 0 (fun k => { k with
    halted := false, down := false, mover := .idle, gang := Gang.reset, lastIssued := 10
    lines := kset (lineOf placedPc) (0, s.lineWords 0) k.lines })
  s.modCtx { core := 0, ctx := 0 } (fun c => { c with
    live := true, pc := placedPc, newLine := false, hints := Hints.none, park := .none, readyAt := s.cycle, poisonAcks := [] })

end Sys2Proof.Machine
end

