-- ==== Sys2Proof/Machine/Gangs.lean ====
section
/-! DEFINITION. The gang group (08 R198 to R202; 13 R279). -/

namespace Sys2Proof.Machine

/-- The position of a core, as a gang numbers it. -/
def gangPos (core : Nat) : Fin 8 := Fin.ofNat 8 (posOf core)

/-- The core is in a gang, or a context of it waits to form one (08 R199). -/
def Core.ganged (k : Core) : Bool :=
  k.gang.active || k.ctxs.toList.any (fun c => c.live && (match c.park with | .gangLead .. => true | .gangFollow .. => true | _ => false))

def execGangLead (sw : Bool) (d a : XReg) (s : State) : Host.Outcome State Fault Refusal :=
  issue { Form.of (.gangLead sw d a) sw [.x a] [.x d] with inTask := false } (fun l s =>
    let w := s.who
    let v := op0 l
    if bits v.toNat 63 8 ≠ 0 || !bitGet (v.setWidth 8) (gangPos w.core) || (s.core w.core).ganged then .trap s { cause := .illegal, val := v }
    else .park (s.reserveX w d) (.gangLead (v.setWidth 8) d sw)) s

def execGangFollow (sw : Bool) (d a : XReg) (s : State) : Host.Outcome State Fault Refusal :=
  issue { Form.of (.gangFollow sw d a) sw [.x a] [.x d] with inTask := false } (fun l s =>
    let w := s.who
    let v := op0 l
    if bits v.toNat 63 3 ≠ 0 || (s.core w.core).ganged then .trap s { cause := .illegal, val := v }
    else .park (s.reserveX w d) (.gangFollow (Fin.ofNat 8 v.toNat) d sw)) s

/-- The context of a core that follows a position, with its destination. -/
def State.followerOf (s : State) (core : Nat) (leader : Fin 8) : Option (CtxId × XReg × Bool) :=
  (List.finRange 11).findSome? (fun c =>
    let x := s.ctx { core := core, ctx := c }
    match x.park with
    | .gangFollow p d sw => if x.live && decide (p = leader) then some ({ core := core, ctx := c }, d, sw) else none
    | _ => none)

/-- The member cores of a mask, but for the leader's. -/
def maskMates (core : Nat) (mask : BitVec 8) : List Nat :=
  (coresOfCluster (clusterOf core)).filter (fun c => decide (c ≠ core) && bitGet mask (gangPos c))

/-- A member joins the gang that forms: x[d] takes the mask, and its next word is the leader's (08 R199). -/
def State.joinGang (s : State) (leader : CtxId) (w : CtxId) (mask : BitVec 8) (d : XReg) (sw : Bool) : State :=
  let next := seqNext (s.ctx leader).pc
  let s := s.completeX w d (mask.setWidth 64) sw s.cycle
  (s.modCtx w (fun c => { c with pc := next })).modCore w.core (fun k => { k with
    gang := { Gang.reset with active := true, mask := mask, leader := gangPos leader.core, ctx := w.ctx, attached := true } })

/-- A leader that waits, with every member following it, forms its gang (08 R199). -/
def State.pollLead (s : State) (w : CtxId) : State :=
  match (s.ctx w).park with
  | .gangLead mask d sw =>
    let mates := maskMates w.core mask
    let found := mates.filterMap (fun c => s.followerOf c (gangPos w.core))
    if found.length = mates.length then
      let s := found.foldl (fun s f => s.joinGang w f.1 mask f.2.1 f.2.2) s
      s.joinGang w w mask d sw
    else s
  | _ => s

/-- A leader of a position whose mask leaves a core out (08 R199). -/
def State.leftOut (s : State) (core : Nat) (leader : Fin 8) : Bool :=
  let k := s.core (coreOfCluster (clusterOf core) leader.val)
  (k.gang.active && decide (k.gang.leader = leader) && !bitGet k.gang.mask (gangPos core))
    || k.ctxs.toList.any (fun c => c.live && (match c.park with | .gangLead mask _ _ => !bitGet mask (gangPos core) | _ => false))

def State.pollFollow (s : State) (w : CtxId) : State :=
  match (s.ctx w).park with
  | .gangFollow p d sw => if s.leftOut w.core p then s.completeX w d 0 sw s.cycle else s
  | _ => s

/-- An attached follower, and a context outside a gang, pass a rendezvous (08 R201; notes/assumptions/44). -/
def execGangJoin (sw : Bool) (a : XReg) (s : State) : Host.Outcome State Fault Refusal :=
  issue (Form.of (.gangJoin sw a) sw [.x a] []) (fun l s =>
    let w := s.who
    let k := s.core w.core
    let r : BitVec 4 := (op0 l).setWidth 4
    if !k.inGang w || k.follows w then .done s
    else if k.leads w && (s.gangMates w.core).all (fun c => (s.core c).gang.attached) then .done s
    else .park (s.modCore w.core (fun k => { k with gang := { k.gang with rendezvous := some r } })) (.gangJoin r sw)) s

/-- A rendezvous is met when every detached member waits at it, or has left (08 R201): they attach again. -/
def State.pollJoinGang (s : State) (w : CtxId) : State :=
  match (s.ctx w).park with
  | .gangJoin r sw =>
    let k := s.core w.core
    if !k.inGang w then s.finishPark w sw s.cycle
    else if k.leads w then
      let away := (s.gangMates w.core).filter (fun c => !(s.core c).gang.attached)
      let at_ (c : Nat) : Option Bool :=
        match (s.ctx { core := c, ctx := (s.core c).gang.ctx }).park with
        | .gangJoin q b => if q = r then some b else none
        | _ => none
      if away.all (fun c => (at_ c).isSome) then
        let next := seqNext (s.ctx w).pc
        let s := away.foldl (fun s c =>
          let v : CtxId := { core := c, ctx := (s.core c).gang.ctx }
          ((s.finishPark v ((at_ c).getD false) s.cycle).modCtx v (fun x => { x with pc := next })).modCore c (fun k =>
            { k with gang := { k.gang with attached := true, rendezvous := none } })) s
        (s.finishPark w sw s.cycle).modCore w.core (fun k => { k with gang := { k.gang with rendezvous := none } })
      else s
    else s
  | _ => s

/-- The end of a gang by its leader; the leave of a follower (08 R202): a member outside a gang is in none. An attached follower issues it
only as a forwarded word. -/
def execGangEnd (sw : Bool) (s : State) : Host.Outcome State Fault Refusal :=
  issue (Form.of (.gangEnd sw) sw [] []) (fun _ s =>
    .done (s.leaveGang s.who (seqNext (s.ctx s.who).pc))) s

def execGangStat (sw : Bool) (d : XReg) (s : State) : Host.Outcome State Fault Refusal :=
  issue (Form.of (.gangStat sw d) sw [] [.x d]) (fun _ s =>
    let w := s.who
    let g := (s.core w.core).gang
    let v := if g.active then g.mask.toNat + bitIf g.attached 8 + bitIf (decide (g.leader.val = posOf w.core)) 9 else 0
    .done (s.laterX w 1 .unit d (BitVec.ofNat 64 v))) s

/-- An attached follower whose leader has ended goes on by itself once its buffer is empty (08 R202). -/
def State.stopGang (s : State) (core : Nat) : State :=
  let g := (s.core core).gang
  match g.stop with
  | some pc =>
    if !g.attached then s.modCore core (fun k => { k with gang := Gang.reset })
    else if g.queue.isEmpty && decide (g.inFlight = 0) && decide ((s.ctx { core := core, ctx := g.ctx }).park = .none) then
      (s.modCore core (fun k => { k with gang := Gang.reset })).modCtx { core := core, ctx := g.ctx } (fun c => { c with pc := pc })
    else s
  | none => s

end Sys2Proof.Machine
end

