-- ==== Sys2Proof/Machine/Ferry.lean ====
section
/-! DEFINITION. The ferry: the timetable's layout (22 R393), steps, laps and speed (22 R389 to R397, R403), conversion and injection
(22 R391, R392; 03 R73), checks (22 R401), boardings and landings (22 R398 to R400; 09 R222 to R226; 25 R430). -/

namespace Sys2Proof.Machine

/-! ### The layout (22 R393) -/

/-- The pairs of a layer. -/
def Layer.npairs (l : Layer) : Nat := (l.chunks + 1) / 2

/-- Hops from the source pier to a pier in the layer's direction (22 R394). -/
def Layer.hop (l : Layer) (q : Nat) : Nat := if l.ret then (l.pier + 32 - q % 32) % 32 else (q + 32 - l.pier % 32) % 32

/-- A pair of a layer at start k, and an earlier one, clash (22 R393): σ × (p − p′) mod 32 steps lie between them. -/
def Layer.clashes (l old : Layer) (k : Nat) : Bool :=
  let d := old.hop l.pier
  decide (d ≠ 0) && decide (k < old.start + old.npairs + d) && decide (old.start + d < k + l.npairs)

/-- The least start of a layer after the ones of its direction already placed. -/
def placeLayer (placed : List Layer) (l : Layer) : Layer :=
  let first := placed.foldl (fun n o => max n (o.start + o.npairs)) 0
  let k := ((List.range 32).find? (fun i => placed.all (fun o => !l.clashes o (first + i)))).getD 32
  { l with start := first + k }

/-- Inserts a layer in its direction's order: ascending outbound, descending on the return. -/
def orderLayer (l : Layer) : List Layer → List Layer
  | [] => [l]
  | o :: rest => if (if l.ret then decide (o.n < l.n) else decide (l.n < o.n)) then l :: o :: rest else o :: orderLayer l rest

/-- A direction laid out. -/
def layDirection (layers : List Layer) : List Layer :=
  (layers.foldr orderLayer []).foldl (fun placed l => placed ++ [placeLayer placed l]) []

/-- The lap length (22 R393). -/
def lapLength (out ret : List Layer) : Nat :=
  let end_ := (out ++ ret).foldl (fun n o => max n (o.start + o.npairs)) 1088
  let clear (dir : List Layer) (n : Nat) : Bool := dir.all (fun l => dir.all (fun o => !l.clashes o (l.start + n)))
  end_ + ((List.range 32).find? (fun i => clear out (end_ + i) && clear ret (end_ + i))).getD 32

/-- The layers of a timetable with their places, and Λ. -/
def layout (layers : List Layer) : List Layer × Nat :=
  let out := layDirection (layers.filter (fun l => !l.ret))
  let ret := layDirection (layers.filter (fun l => l.ret))
  (out ++ ret, lapLength out ret)

/-- The limits of 11 R251 and 22 R393. -/
def Layer.ok (l : Layer) : Bool :=
  decide (l.n < 4096) && decide (l.pier < 32) && decide (1 ≤ l.chunks) && decide (l.chunks ≤ 2 ^ 28) && (!l.pl8 || (decide (2 ≤ l.planes) && decide (l.planes ≤ 8)))

/-! ### Conversion (22 R391, R392) -/

/-- One block of 256 elements as PL8: its scale and the record of p planes (03 R62, R73). -/
def pl8Block (xs : List Nat) (p : Nat) : Nat × List Byte :=
  let e := quantScale xs
  let qs := xs.map (quantElement e)
  (e, (List.range p).flatMap (fun j => (List.range 32).map (fun i => BitVec.ofNat 8 (planeByte qs j i))))

/-- The 4,096 bytes that land, and SCALES. -/
def cargoOf (pl8 : Bool) (planes : Nat) (bs : List Byte) : List Byte × Word :=
  if pl8 then
    let blocks := (List.range 8).map (fun j => pl8Block (elements 4 256 (bs.drop (1024 * j))) planes)
    let scales := blocks.map (fun b => BitVec.ofNat 8 b.1)
    let records := blocks.flatMap (·.2)
    (records ++ List.replicate (4088 - 256 * planes) 0 ++ scales, BitVec.ofNat 64 (leValue scales))
  else
    let narrow (b : Nat) : Nat := let r := (bf16.narrow .satRne (fp32.decode b)).bits; if r = 2 ^ 15 then 0 else r
    ((elements 4 2048 bs).flatMap (fun b => leBytes 2 (narrow b)), 0)

/-- The manifest of a chunk as it travels (22 R391). -/
def DeckChunk.computed (c : DeckChunk) : Word :=
  if c.pl8 then
    manifestField 1 (manifestSum ((c.cargo.take (256 * c.planes)).map BitVec.toNat ++ (leBytes 8 c.scales.toNat).map BitVec.toNat) 0)
  else manifestField 2 (manifestSum (elements 2 2048 c.cargo) 0)

/-- A chunk passes a pier's check (22 R401). -/
def DeckChunk.passes (c : DeckChunk) : Bool := !c.torn && decide (c.manifest = c.computed) && decide (c.manifest.toNat % 2 ^ 61 ≠ 2 ^ 61 - 1)

/-- The chunk identity (22 R390). -/
def DeckChunk.ident (c : DeckChunk) : Word := chunkIdentity 0 c.layer c.chunk c.lap

/-- Reads n source bytes for a tenant, page by page; the first failure's cause and address (22 R392). -/
def State.ferryRead (s : State) (tenant va : Nat) : Nat → Nat → State × Except EngineFault (List Byte)
  | 0, _ => (s, .ok [])
  | fuel + 1, n =>
    if n = 0 then (s, .ok [])
    else
      let m := min n (4096 - va % 4096)
      match s.translate tenant .read va with
      | (s, .error e) => (s, .error (e, BitVec.ofNat 64 va))
      | (s, .ok (key, _)) =>
        if s.poisoned key m then (s, .error (.poison, BitVec.ofNat 64 va))
        else
          let bs := Memory.readBytes s.mem key m
          match s.ferryRead tenant (va + m) fuel (n - m) with
          | (s, .ok rest) => (s, .ok (bs ++ rest))
          | r => r

/-- A fault record of the ferry (22 R392, R401; 23 R416). -/
def State.logFerry (s : State) (pier : Nat) (c : DeckChunk) (cause seg : Nat) : State :=
  s.logFault pier { FaultRecord.blank with
    tenant := s.ferry.tenant, cause := cause, type := 5, lid := s.ferry.owner, unit := 6, core := coreAt pier 0 0, ident := c.ident, seg := BitVec.ofNat 32 seg }

/-- A chunk of a layer is converted for the current lap (22 R392). -/
def State.convertChunk (s : State) (l : Layer) (n : Nat) : State × DeckChunk :=
  let c : DeckChunk := { layer := l.n, chunk := n, lap := s.ferry.lap, manifest := 0, bad := false, torn := false, pl8 := l.pl8, planes := l.planes, ret := l.ret
                         srcPier := l.pier, scales := 0, cargo := List.replicate 4096 0 }
  match s.ferryRead s.ferry.tenant (l.source + 8192 * n) 4 8192 with
  | (s, .ok bs) =>
    let (cargo, scales) := cargoOf l.pl8 l.planes bs
    let c := { c with cargo := cargo, scales := scales }
    (s, { c with manifest := c.computed })
  | (s, .error (e, _)) =>
    let c := { c with manifest := c.computed, bad := true }
    (s.logFerry l.pier c (causeCode e) (2 ^ 13 + l.pier * 2 ^ 8 + l.pier), c)

/-! ### Positions and gangways (22 R394, R398) -/

/-- The layer of the installed timetable. -/
def Ferry.layer (f : Ferry) (n : Nat) : Option Layer := if f.running then f.layers.find? (fun l => decide (l.n = n)) else none

/-- The step in which the j-th pair of a layer passes a pier, in a lap. -/
def Ferry.passStep (f : Ferry) (l : Layer) (j q lap : Nat) : Int :=
  (f.lapStart : Int) + ((lap : Int) - f.lap) * f.lapLen + l.start + j + l.hop q

/-- The gangway of a lap for a first requested pair is open (22 R398). -/
def Ferry.open_ (f : Ferry) (l : Layer) (j q lap : Nat) : Bool := decide ((f.shut : Int) < f.passStep l j q lap)

/-- The least lap whose gangway is open. -/
def Ferry.nextOpen (f : Ferry) (l : Layer) (j q : Nat) : Nat :=
  let first := max f.firstLap (f.lap - 1)
  let late := (f.shut : Int) - f.passStep l j q first
  if late < 0 then first else first + late.toNat / f.lapLen + 1

/-- The lap that a LAP field names, or none for a past one (09 R224). -/
def Ferry.namedLap (f : Ferry) (lap20 : Nat) : Option Nat :=
  let d := (lap20 + 2 ^ 20 - f.lap % 2 ^ 20) % 2 ^ 20
  if d < 2 ^ 19 then some (f.lap + d) else none

/-! ### Boardings -/

namespace Boarding

/-- The first and last requested pair of its layer. -/
def firstPair (b : Boarding) : Nat := b.chunk0 / 2
def lastPair (b : Boarding) : Nat := (b.chunk0 + b.nch - 1) / 2
def asks (b : Boarding) (layer chunk : Nat) : Bool := decide (b.layer = layer) && decide (b.chunk0 ≤ chunk) && decide (chunk < b.chunk0 + b.nch)

end Boarding

def Die.modBoarding (d : Die) (n : Nat) (f : Boarding → Boarding) : Die :=
  match kget n d.boardings with | some b => { d with boardings := kset n (f b) d.boardings } | none => d

/-- The state as `fr.stat` shows it (22 R398): 0 while a pair of an earlier lap with a requested chunk has yet to pass. -/
def Ferry.stateOf (f : Ferry) (q : Nat) (b : Boarding) : Nat :=
  if b.state ≠ 0 then b.state
  else match f.layer b.layer with
    | some l => if f.firstLap < b.lap && decide ((f.stepNo : Int) < f.passStep l b.lastPair q (b.lap - 1)) then 0 else 1
    | none => 1

/-- The status of a boarding (09 R225). -/
def Ferry.status (f : Ferry) (q : Nat) (b : Boarding) : Nat :=
  b.lap % 2 ^ 20 * 2 ^ 44 + min 255 b.misses * 2 ^ 28 + b.bad.length * 2 ^ 20 + b.landed.length * 2 ^ 12 + b.reason * 2 ^ 4 + f.stateOf q b

/-- The pier's entry that an identifier names, for a launch; none where it is stale (09 R225). -/
def Die.boarding (d : Die) (lid ident : Nat) : Option Boarding :=
  match kget (ident % 1024) d.boardings with
  | some b => if b.gen = ident % 2 ^ 16 / 1024 && b.lid = lid then some b else none
  | none => none

/-- A request is entered (09 R223, R224; 22 R398): into the lowest free entry, whose generation advances; 0 when all are taken. -/
def State.enterBoarding (s : State) (r : BoardReq) : State × Nat :=
  let q := dieOf r.who.core
  let d := s.die q
  match s.ferry.layer r.layer with
  | none => (s, 0)
  | some l =>
    match (List.range 1024).find? (fun n => match kget n d.boardings with | some b => !b.live | none => true) with
    | none => (s, 0)
    | some n =>
      let gen := match kget n d.boardings with | some b => if b.gen = 63 then 1 else b.gen + 1 | none => 1
      let j := r.chunk0 / 2
      let late := s.ferry.nextOpen l j q
      let (lap, miss) :=
        if r.next then (late, false)
        else match s.ferry.namedLap r.lap with
          | some lap => if s.ferry.open_ l j q lap then (lap, false) else (late, true)
          | none => (late, true)
      let b : Boarding := { gen := gen, live := true, lid := r.lid, core := r.who.core, layer := r.layer, chunk0 := r.chunk0, nch := r.nch, tiles := r.tiles
                            lap := lap, misses := if miss then 1 else 0, reason := if miss then 1 else 0, state := if miss then 4 else 0
                            landed := [], bad := [], missedNow := false }
      (s.setDie q { d with boardings := kset n b d.boardings }, gen * 1024 + n)

/-- The context still waits for the pier. -/
def Ctx.atPier (c : Ctx) : Option (XReg × Bool) := match c.park with | .pier d sw => some (d, sw) | _ => none

def execBoardingRequest (r : BoardReq) (s : State) : Host.Outcome State Fault Refusal :=
  .next (match (s.ctx r.who).atPier with
  | some (d, sw) => let (s, ident) := s.enterBoarding r; s.completeX r.who d (BitVec.ofNat 64 ident) sw (s.cycle + 1)
  | none => s)

/-- What the dock was still to write to a boarding is dropped (09 R225, 22 R400), but for a tile in progress. -/
def dropDests (ident : Nat) (dock : List DockEntry) : List DockEntry :=
  (dock.map (fun e => { e with dests := (e.dests.zipIdx.filter (fun p =>
    decide (p.1.ident ≠ ident) || (decide (p.2 = 0) && e.busy.isSome))).map (·.1) })).filter (fun e => !e.dests.isEmpty)

/-- `fr.cancel` at the pier (09 R225): 1 where the boarding was waiting, boarded, landing or missed. -/
def State.cancelBoarding (s : State) (q lid ident : Nat) : State × Nat :=
  match (s.die q).boarding lid ident with
  | some b =>
    if b.live then (s.modDie q (fun d => { d with
        boardings := kset (ident % 1024) { b with live := false, state := 5, reason := 4 } d.boardings, dock := dropDests ident d.dock }), 1) else (s, 0)
  | none => (s, 0)

def execCancelRequest (w : CtxId) (d : XReg) (ident : Nat) (s : State) : Host.Outcome State Fault Refusal :=
  .next (match (s.ctx w).atPier with
  | some (_, sw) =>
    let (s, v) := s.cancelBoarding (dieOf w.core) (s.core w.core).lid ident
    s.completeX w d (BitVec.ofNat 64 v) sw (s.cycle + 1)
  | none => s)

/-! ### The dock (22 R399, R400) -/

/-- A boarding by its whole identifier, while it stands at the pier. -/
def Die.standing (d : Die) (ident : Nat) : Option Boarding :=
  match kget (ident % 1024) d.boardings with
  | some b => if b.live && decide (b.gen = ident / 1024) then some b else none
  | none => none

/-- A good copy of a chunk that has landed as poison for a boarding (22 R401). -/
def State.goodCopy (s : State) (c : DeckChunk) (d : DockDest) : Bool :=
  !c.bad && (match (s.die (dieOf d.core)).standing d.ident with | some b => b.bad.contains (c.chunk - b.chunk0) | none => false)

/-- The tile may be written (14 R289); `again` says that a good copy comes behind a poisoned one, which does not wait for a tile that holds poison
(22 R401). -/
def State.tileFree (s : State) (core tile : Nat) (again : Bool) : Bool :=
  let g := (s.core core).tag tile
  !g.track || g.consumed || (again && g.poison)

/-- A destination's next tile cannot be written. -/
def State.destWaits (s : State) (c : DeckChunk) (d : DockDest) : Bool := !s.tileFree d.core (d.tile + d.next) (s.goodCopy c d)

/-- An entry is blocked (22 R400). -/
def State.dockBlocked (s : State) (e : DockEntry) : Bool := e.busy.isNone && e.dests.all (s.destWaits e.chunk)

/-- A boarding settles at the end of its lap (22 R400), or stands. -/
def State.settleBoarding (s : State) (q n : Nat) : State :=
  let d := s.die q
  match kget n d.boardings with
  | none => s
  | some b =>
    if !b.live || b.state ≠ 2 || d.dock.any (fun e => e.dests.any (fun x => decide (x.ident = b.gen * 1024 + n))) then s
    else if b.landed.length = b.nch then s.setDie q { d with boardings := kset n { b with state := 3, live := false } d.boardings }
    else match s.ferry.layer b.layer with
      | none => s
      | some l =>
        if (s.ferry.stepNo : Int) < s.ferry.passStep l b.lastPair q b.lap then s
        else
          let b := if b.missedNow then { b with state := 4, reason := 2, misses := b.misses + 1 } else { b with state := 0 }
          s.setDie q { d with boardings := kset n { b with lap := b.lap + 1, missedNow := false } d.boardings }

/-- Every tile of a chunk has been written for a boarding (22 R399, R401). -/
def Boarding.landedChunk (b : Boarding) (i : Nat) (bad : Bool) : Boarding :=
  if bad then { b with bad := i :: b.bad.filter (fun x => decide (x ≠ i)) }
  else { b with landed := i :: b.landed.filter (fun x => decide (x ≠ i)), bad := b.bad.filter (fun x => decide (x ≠ i)) }

/-- The tile in progress is written whole (22 R399; 14 R289): its bytes, and its tags. -/
def State.writeTile (s : State) (core tile : Nat) (bytes : List Byte) (bad : Bool) : State :=
  let s := s.writeMem (spadCell core (512 * tile)) bytes
  let g := (s.core core).tag tile
  s.setTagAt core tile (if bad then { g with poison := true, valid := false, consumed := false } else { g with valid := true, consumed := false, poison := false }) s.ofEngine

/-- The tile in progress is done: it is written, and the entry goes on (22 R399). A destination whose boarding has ended is dropped. -/
def State.finishTile (s : State) (q : Nat) (e : DockEntry) (d : DockDest) (rest : List DockDest) : State × DockEntry :=
  let s := s.writeTile d.core (d.tile + d.next) ((e.chunk.cargo.drop (512 * d.next)).take 512) e.chunk.bad
  match (s.die q).standing d.ident with
  | none => (s, { e with busy := none, dests := rest })
  | some b =>
    if d.next = 7 then
      (s.modDie q (fun k => { k with boardings := kset (d.ident % 1024) (b.landedChunk (e.chunk.chunk - b.chunk0) e.chunk.bad) k.boardings })
        , { e with busy := none, dests := rest })
    else (s, { e with busy := none, dests := { d with next := d.next + 1 } :: rest })

/-- One entry of the dock in one core cycle: the tile whose time has come is written, and the next one begins when it is free. -/
def State.moveEntry (s : State) (q : Nat) (e : DockEntry) : State × DockEntry :=
  let (s, e) : State × DockEntry :=
    match e.busy, e.dests with
    | some t, d :: rest => if t ≤ s.cycle then s.finishTile q e d rest else (s, e)
    | _, _ => (s, e)
  match e.busy, e.dests with
  | none, d :: _ => (s, if s.destWaits e.chunk d then e else { e with busy := some (s.cycle + 8) })
  | _, _ => (s, e)

/-- The dock of a pier in one core cycle (22 R399; 25 R430): an entry frees when its last destination is written. -/
def State.moveDock (s : State) (q : Nat) : State :=
  let d := s.die q
  if d.dock.isEmpty then s
  else
    let (s, dock) := d.dock.foldl (fun (acc : State × List DockEntry) e =>
      let (s, e) := acc.1.moveEntry q e
      (s, if e.dests.isEmpty then acc.2 else acc.2 ++ [e])) (s, [])
    let s := s.modDie q (fun d => { d with dock := dock })
    (d.dock.flatMap (fun e => e.dests.map (·.ident % 1024))).foldl (fun s n => s.settleBoarding q n) s

def execDockWrite (q : Nat) (s : State) : Host.Outcome State Fault Refusal := .next (s.moveDock q)

/-- Inserts a destination in ascending identifier. -/
def destInsert (d : DockDest) : List DockDest → List DockDest
  | [] => [d]
  | o :: rest => if d.ident < o.ident then d :: o :: rest else o :: destInsert d rest

/-- The boardings of a lap that want a chunk, in ascending identifier (22 R399). -/
def Die.wanting (d : Die) (c : DeckChunk) : List DockDest :=
  (d.boardings.filter (fun e => e.2.live && e.2.asks c.layer c.chunk && decide (e.2.lap = c.lap) && !e.2.landed.contains (c.chunk - e.2.chunk0))).foldr
    (fun e l => destInsert { ident := e.2.gen * 1024 + e.1, core := e.2.core, tile := e.2.tiles / 512 + 8 * (c.chunk - e.2.chunk0), next := 0 } l) []

/-- Boardings whose first pair of the lap arrives enter STATE 2 (22 R398). -/
def Die.pairArrives (d : Die) (c : DeckChunk) : Die :=
  { d with boardings := d.boardings.map (fun e =>
      if e.2.live && e.2.asks c.layer c.chunk && decide (e.2.lap = c.lap) && decide (e.2.state ≠ 2) then (e.1, { e.2 with state := 2 }) else e) }

/-- Boardings miss a chunk for want of dock space (22 R400). -/
def Die.missChunk (d : Die) (l : List DockDest) : Die :=
  l.foldl (fun d x => match d.standing x.ident with
    | some b => { d with boardings := kset (x.ident % 1024) { b with missedNow := true } d.boardings }
    | none => d) d

/-- The pier of a die out of service injects and lands only under a timetable that names no layer on it (23 R418). -/
def State.pierServes (s : State) (q : Nat) : Bool := !(s.die q).outOfService || !s.ferry.layers.any (fun l => decide (l.pier = q))

/-- A chunk takes a dock entry for the boardings that want it (22 R399, R400). -/
def State.dockChunk (s : State) (q : Nat) (c : DeckChunk) : State :=
  let d := (s.die q).pairArrives c
  let want := d.wanting c
  if want.isEmpty then s.setDie q d
  else
    let entry : DockEntry := { chunk := c, dests := want, busy := none }
    if d.dock.length < 64 then s.setDie q { d with dock := d.dock ++ [entry] }
    else match d.dock.zipIdx.find? (fun p => s.dockBlocked p.1) with
      | some (old, i) => s.setDie q ({ d with dock := d.dock.eraseIdx i ++ [entry] }.missChunk old.dests)
      | none => s.setDie q (d.missChunk want)

/-! ### Steps (22 R389, R394, R395, R401, R403) -/

/-- A pier's check of a chunk (22 R401): the first failing pier sets BAD and makes a record. -/
def State.checkChunk (s : State) (q : Nat) (c : DeckChunk) : State × DeckChunk :=
  if c.bad || c.passes then (s, c)
  else
    let prev := if c.ret then (q + 1) % 32 else (q + 31) % 32
    (s.logFerry q c 0 (prev * 2 ^ 8 + q), { c with bad := true })

/-- A pair passes a pier: checks, then landings, the first chunk before the second. -/
def State.passPier (s : State) (q : Nat) (pair : List DeckChunk) : State × List DeckChunk :=
  pair.foldl (fun (acc : State × List DeckChunk) c =>
    let (s, c) := acc.1.checkChunk q c
    (if s.pierServes q then s.dockChunk q c else s, acc.2 ++ [c])) (s, [])

/-- Once every pair of a step has passed its pier, the boardings of a pier whose last pair has passed, with nothing left to write, settle. -/
def State.settlePier (s : State) (q : Nat) : State := ((s.die q).boardings.map (·.1)).foldl (fun s n => s.settleBoarding q n) s

/-- The pier that a pair passes. -/
def pairPier (cs : List DeckChunk) (source h : Nat) : Nat := match cs with | c :: _ => if c.ret then (source + 32 - h) % 32 else (source + h) % 32 | [] => source

/-- The layers that inject in the current step, with the pair. -/
def Ferry.injects (f : Ferry) : List (Layer × Nat) :=
  if f.running then
    f.layers.filterMap (fun l => let pos := f.stepNo - f.lapStart; if l.start ≤ pos && pos < l.start + l.npairs then some (l, pos - l.start) else none)
  else []

/-- A pair is converted and injected at its source pier. -/
def State.injectPair (s : State) (l : Layer) (j : Nat) : State :=
  let (s, cs) := ([2 * j, 2 * j + 1].filter (fun n => decide (n < l.chunks))).foldl (fun (acc : State × List DeckChunk) n =>
    let (s, c) := acc.1.convertChunk l n
    (s, acc.2 ++ [c])) (s, [])
  { s with ferry := { s.ferry with pairs := s.ferry.pairs ++ [(cs, l.pier, 0)] } }

/-- A monitor write of FRSPEED takes effect (22 R397). -/
def Ferry.setSpeed (f : Ferry) (v : Word) : Ferry :=
  let n := v.toNat
  let div := if 1 ≤ bits n 4 0 && bits n 4 0 ≤ 16 then bits n 4 0 else f.div
  let f := { f with thresh := bits n 31 16, auto := bitAt n 8, div := div }
  { f with nextCur := if f.auto then f.nextCur else div }

/-- The timetable that waits is installed (22 R403): its launch goes on loading. -/
def State.installTimetable (s : State) (t : Timetable) : State :=
  let f := s.ferry
  let f := { f with running := true, layers := t.layers, lapLen := t.lapLen, owner := t.lid, tenant := t.tenant, leaving := false, incoming := none
                    lap := f.lap + 1, firstLap := f.lap + 1, lapStart := f.stepNo, shut := 0, auto := t.auto, div := t.div
                    nextCur := if t.auto then f.nextCur else t.div }
  { s with ferry := { f with cur := f.nextCur } }.post s.cycle (.berthLoad t.lid [])

/-- The end of a lap (22 R394, R403): the next one begins, or the owner that has ended gives the ring up, for 32 steps with no injection. -/
def Ferry.endLap (f : Ferry) : Ferry :=
  if f.leaving then { f with running := false, leaving := false, layers := [], drain := 32 }
  else { f with lap := f.lap + 1, lapStart := f.stepNo }

def execLapBoundary (s : State) : Host.Outcome State Fault Refusal := .next { s with ferry := s.ferry.endLap }

/-- The ring enters its next step. -/
def State.beginStep (s : State) : State :=
  let f := s.ferry
  let f := match f.speedWrite with | some v => { f.setSpeed v with speedWrite := none } | none => f
  let f := { f with stepNo := f.stepNo + 1, cur := f.nextCur, drain := f.drain - 1 }
  let f := if f.running && f.stepNo = f.lapStart + f.lapLen then f.endLap else f
  let s := { s with ferry := f }
  match f.incoming with
  | some t => if !f.running && f.drain = 0 then s.installTimetable t else s
  | none => s

/-- One step of the ring (22 R389, R394): pairs move one pier on or retire, and the step's pairs are injected; each passes its pier. -/
def State.ferryStep (s : State) : State :=
  let s := s.beginStep
  let s := { s with ferry := { s.ferry with
    pairs := (s.ferry.pairs.map (fun (p : List DeckChunk × Nat × Nat) => (p.1, p.2.1, p.2.2 + 1))).filter (fun p => decide (p.2.2 < 32))
    shut := max s.ferry.shut (s.ferry.stepNo + 256 / s.ferry.cur), nextStep := s.ferry.nextStep + s.ferry.cur } }
  let s := s.ferry.injects.foldl (fun (s : State) (p : Layer × Nat) => if s.pierServes p.1.pier then s.injectPair p.1 p.2 else s) s
  let (s, pairs) := s.ferry.pairs.foldl (fun (acc : State × List (List DeckChunk × Nat × Nat)) (p : List DeckChunk × Nat × Nat) =>
    let (s, cs) := acc.1.passPier (pairPier p.1 p.2.1 p.2.2) p.1
    (s, acc.2 ++ [(cs, p.2.1, p.2.2)])) (s, [])
  (pairs.map (fun p => pairPier p.1 p.2.1 p.2.2)).eraseDups.foldl (fun s q => s.settlePier q) { s with ferry := { s.ferry with pairs := pairs } }

def execFerryStep (s : State) : Host.Outcome State Fault Refusal := .next s.ferryStep

/-- A pause (22 R395): a stretch of CUR ring cycles in which nothing moves. -/
def State.ringPause (s : State) : State := { s with ferry := { s.ferry with nextStep := s.ferry.nextStep + s.ferry.cur } }

def execRingPause (s : State) : Host.Outcome State Fault Refusal := .next s.ringPause

/-- The cargo of the coming step is not ready (22 R395): a source in DRAM, of any page of the pair's two chunks, answers later than the read's lead of 512
core cycles. -/
def State.cargoLate (s : State) : Bool :=
  let f := s.beginStep.ferry
  let inDram (va : Nat) : Bool := match (s.translate f.tenant .read va).2 with | .ok (key, _) => isDram key | .error _ => false
  f.injects.any (fun p => [0, 4096, 8191, 8192, 12288, 16383].any (fun o => decide (2 * p.2 + o / 8192 < p.1.chunks) && inDram (p.1.source + 16384 * p.2 + o)))
    && decide (440 < Config.contention s.free)

/-! ### Speed (22 R397) -/

/-- Boardings that have missed for want of dock space, at every pier. -/
def State.starvedBoardings (s : State) : Nat :=
  (s.dies.map (fun d => (d.2.boardings.filter (fun b => b.2.live && decide (b.2.state = 4) && decide (b.2.reason = 2))).length)).foldl (· + ·) 0

/-- Holdback: the divider from the next step on. -/
def State.holdback (s : State) : State :=
  let u := s.starvedBoardings
  let f := s.ferry
  if f.auto then
    { s with ferry := { f with nextCur := if f.thresh < u then min 16 (2 * f.cur) else if u = 0 then max 1 (f.cur / 2) else f.cur } }
  else s

def execHoldback (s : State) : Host.Outcome State Fault Refusal := .next s.holdback

/-- A monitor write of FRSPEED waits for the next step boundary (22 R397). Behind another one that waits, a DIV that is ignored leaves that one's. -/
def State.writeFrspeed (s : State) (v : Word) : State :=
  let div := bits v.toNat 4 0
  let w := match s.ferry.speedWrite with
    | some u => if 1 ≤ div && div ≤ 16 then v else (v &&& ~~~0x1F#64) ||| (u &&& 0x1F#64)
    | none => v
  { s with ferry := { s.ferry with speedWrite := some w } }

def execFrspeedWrite (v : Word) (s : State) : Host.Outcome State Fault Refusal := .next (s.writeFrspeed v)

/-- A refresh window (22 R405) is a function of the core cycle (`refreshStall`, `wsref`): its start changes nothing else. -/
def execRefreshWindow (s : State) : Host.Outcome State Fault Refusal := .next s

/-- The ring in one ring cycle (22 R389): holdback, then a step or a pause at a boundary. -/
def State.ringCycle (s : State) (r : Nat) : State :=
  let s := if r % 1024 = 0 then s.holdback else s
  if r < s.ferry.nextStep then s
  else
    let s := if s.ferry.nextStep < r then { s with ferry := { s.ferry with nextStep := r } } else s
    if s.cargoLate then s.ringPause.drew else s.ferryStep

/-! ### Registers (22 R396, R397, R405) -/

def frlap (f : Ferry) : Nat := bitIf f.running 63 + (f.stepNo - f.lapStart) % 2 ^ 32 * 2 ^ 20 + f.lap % 2 ^ 20
def frspeed (f : Ferry) : Nat := f.cur * 2 ^ 32 + f.thresh % 2 ^ 16 * 2 ^ 16 + bitIf f.auto 8 + f.div
/-- WSREF in a core cycle. AQ between windows, which the register's map leaves open, is the value `open_`. -/
def wsref (c open_ : Nat) : Nat :=
  let active := decide (c % 2048 < 64)
  (if active then c / 2048 % 4 else open_ % 4) * 2 ^ 38 + bitIf active 37 + (c / 2048 + 1) % 4 * 2 ^ 32 + (2048 - c % 2048)

/-! ### fr words (09 R222 to R226) -/

/-- The check of one doubleword of a boarding card (09 R223, 02 R433). -/
def boardCardCheck (f : Ferry) (i d : Nat) : Option Cause :=
  match i with
  | 0 => refuse (decide (bits d 63 33 ≠ 0)) (f.layer (bits d 11 0)).isNone
  | 1 => refuse (decide (bits d 63 44 ≠ 0) || decide (bits d 31 28 ≠ 0)) (decide (bits d 43 32 = 0) || decide (16 < bits d 43 32))
  | 2 => refuse (decide (bits d 63 48 ≠ 0)) false
  | _ => refuse (decide (d ≠ 0)) false

/-- The rules that relate its doublewords, and the destination. -/
def State.boardFault (s : State) (core : Nat) (va : Word) (ds : List Word) : Option Trap :=
  let g (n : Nat) : Nat := (ds.getD n 0).toNat
  let nch := bits (g 1) 43 32
  let tiles := bits (g 2) 47 0
  let chunks := match s.ferry.layer (bits (g 0) 11 0) with | some l => l.chunks | none => 0
  if chunks < bits (g 1) 27 0 + nch then some { cause := .illegal, val := va + 8 }
  else if tiles % 512 ≠ 0 then some { cause := .misaligned, val := BitVec.ofNat 64 tiles }
  else if 0x18000 < tiles + nch * 4096 || (s.core core).inCarveOut tiles (nch * 4096) then some { cause := .protection, val := BitVec.ofNat 64 tiles }
  else none

def State.ownsFerry (s : State) (core : Nat) : Bool := s.ferry.running && !s.ferry.leaving && decide (s.ferry.owner = (s.core core).lid)

def execFrBoard (sw : Bool) (d a : XReg) (s : State) : Host.Outcome State Fault Refusal :=
  issue { Form.of (.frBoard sw d a) sw [.x a] [.x d] with inTask := false } (fun l s =>
    if !s.ownsFerry s.who.core then .trap s { cause := .protection, val := op0 l }
    else cardBody 32 4 (op0 l) s (fun s from_ => .park (s.reserveX s.who d) (.frBoard (op0 l) from_ [] d sw))) s

/-- Posts a request that a pier decides, in ascending core index among those of its ring cycle (25 R430). -/
def pierInsert (due core : Nat) (i : Instr) : List (Nat × Instr) → List (Nat × Instr)
  | [] => [(due, i)]
  | (d, j) :: rest =>
    let later : Bool := match j with
      | .boardingRequest r => decide (core < r.who.core)
      | .cancelRequest w _ _ => decide (core < w.core)
      | _ => false
    if d < due || (d = due && !later) then (d, j) :: pierInsert due core i rest else (due, i) :: (d, j) :: rest

def State.postPier (s : State) (due core : Nat) (i : Instr) : State := { s with agenda := pierInsert due core i s.agenda }

/-- The card is read; at the end, its checks, and the request, which the pier decides one core cycle later (25 R430). -/
def State.pollFrBoard (s : State) (w : CtxId) : State :=
  match (s.ctx w).park with
  | .frBoard va t got d sw =>
    match s.readCard w va 4 t got with
      | (s, .error e) => s.raiseParked w d e
      | (s, .ok ds) =>
        if ds.length < 4 then s.modCtx w (fun c => { c with park := .frBoard va t ds d sw })
        else match (dwFault va (boardCardCheck s.ferry) ds).or (s.boardFault w.core va ds) with
        | some e => s.raiseParked w d e
        | none =>
          let g (n : Nat) : Nat := (ds.getD n 0).toNat
          let r : BoardReq := { who := w, dest := d, lid := (s.core w.core).lid, next := bitAt (g 0) 32, lap := bits (g 0) 31 12, layer := bits (g 0) 11 0
                                chunk0 := bits (g 1) 27 0, nch := bits (g 1) 43 32, tiles := bits (g 2) 47 0 }
          (s.modCtx w (fun c => { c with park := .pier d sw })).postPier (s.cycle + 1) w.core (.boardingRequest r)
  | _ => s

def execFrCancel (sw : Bool) (d a : XReg) (s : State) : Host.Outcome State Fault Refusal :=
  issue { Form.of (.frCancel sw d a) sw [.x a] [.x d] with inTask := false } (fun l s =>
    .park ((s.reserveX s.who d).postPier (s.cycle + 2) s.who.core (.cancelRequest s.who d ((op0 l).toNat % 2 ^ 16))) (.pier d sw)) s

/-- The status at the end of this core cycle (25 R430), as the docks stand when the next one begins. -/
def State.boardingStatus (s : State) (core ident : Nat) : Nat :=
  let q := dieOf core
  let t := { s with cycle := s.cycle + 1 }.moveDock q
  match (t.die q).boarding (s.core core).lid ident with
  | some b => s.ferry.status q b
  | none => 6

def execFrStat (sw : Bool) (d a : XReg) (s : State) : Host.Outcome State Fault Refusal :=
  issue (Form.of (.frStat sw d a) sw [.x a] [.x d]) (fun l s =>
    .done (s.laterX s.who 6 .unit d (BitVec.ofNat 64 (s.boardingStatus s.who.core ((op0 l).toNat % 2 ^ 16))))) s

end Sys2Proof.Machine
end

