-- ==== Sys2Proof/Machine/Modules.lean ====
section
/-! DEFINITION. The Limuf module (11 R254 to R260; 11 R244): its sections, symbols, relocations and tables, read from the bytes of module
files, the sections and tables with their relocations applied, and what the loader makes of the tables. -/

namespace Sys2Proof.Machine

/-- n bytes of a file at an offset, little-endian. -/
def fileNat (bs : List Byte) (off n : Nat) : Nat := leValue ((bs.drop off).take n)

/-- MAGIC and VERSION (11 R254): a file with others is refused by the loader. -/
def ModuleFile.accepted (f : Sys2Proof.ModuleFile) : Bool := decide (fileNat f.bytes 0 4 = 0x1A4F4D4C) && decide (fileNat f.bytes 4 2 = 1)

/-- A section (11 R255) with its address: KIND, alignment, HOME, CORE (none: every core), bytes. -/
structure Section where
  kind : Nat
  align : Nat
  home : Nat
  core : Option Nat
  addr : Nat
  data : List Byte
  deriving DecidableEq, Repr

/-- A symbol (11 R256): its name, the number of its section, BIND, VALUE. -/
structure Symbol where
  name : List Byte
  sect : Nat
  bind : Nat
  value : Nat
  deriving DecidableEq, Repr

/-- A relocation (11 R257). -/
structure Reloc where
  sect : Nat
  kind : Nat
  sym : Nat
  offset : Nat
  addend : Int
  deriving DecidableEq, Repr

/-- A table row (11 R259): its kind, SECT and OFFSET of its card (none: it has none), CORE (none: every core), where its body stands in the
file, the body. -/
structure TableRow where
  kind : Nat
  card : Option (Nat × Nat)
  core : Option Nat
  place : Nat
  body : List Byte
  deriving DecidableEq, Repr

/-- A module file read: its sections, numbered from 1, its symbols, numbered from 0, its relocations, and the rows of its tables. -/
structure Module where
  sections : List Section
  symbols : List Symbol
  relocs : List Reloc
  rows : List TableRow
  deriving DecidableEq, Repr

def readSections (bs : List Byte) (addrs : List Word) : List Section :=
  (List.range (fileNat bs 56 4)).map (fun i =>
    let o := fileNat bs 24 8 + 32 * i
    let size := fileNat bs (o + 16) 8
    let file := fileNat bs (o + 24) 8
    let data := if file = 0 then [] else (bs.drop file).take size
    let core := fileNat bs (o + 8) 4
    { kind := fileNat bs (o + 4) 1, align := 2 ^ (fileNat bs (o + 5) 1), home := fileNat bs (o + 6) 1, core := if core = 0xFFFFFFFF then none else some core
      addr := (addrs.getD i 0).toNat, data := data ++ List.replicate (size - data.length) 0 })

def readSymbols (bs : List Byte) : List Symbol :=
  (List.range (fileNat bs 60 4)).map (fun i =>
    let o := fileNat bs 32 8 + 24 * i
    { name := (bs.drop (fileNat bs 16 8 + fileNat bs o 4)).takeWhile (fun b => decide (b ≠ 0)), sect := fileNat bs (o + 4) 2, bind := fileNat bs (o + 7) 1
      value := fileNat bs (o + 8) 8 })

def readRelocs (bs : List Byte) : List Reloc :=
  (List.range (fileNat bs 64 4)).map (fun i =>
    let o := fileNat bs 40 8 + 24 * i
    { sect := fileNat bs o 2, kind := fileNat bs (o + 2) 1, sym := fileNat bs (o + 4) 4, offset := fileNat bs (o + 8) 8
      addend := sintN 64 (fileNat bs (o + 16) 8) })

/-- The bytes of a row of each kind, its 16-byte header included (11 R259). -/
def rowSize (kind : Nat) : Nat :=
  match kind with | 1 => 32 | 2 => 24 | 3 => 32 | 4 => 32 | 7 => 24 | 8 => 24 | 9 => 32 | _ => 16

/-- The rows that the directory of a file names, in its order. -/
def readRows (bs : List Byte) : List TableRow :=
  (List.range (fileNat bs 68 4)).flatMap (fun i =>
    let e := fileNat bs 48 8 + 16 * i
    let kind := fileNat bs e 2
    (List.range (fileNat bs (e + 4) 4)).map (fun j =>
      let o := fileNat bs (e + 8) 8 + rowSize kind * j
      let core := fileNat bs (o + 4) 4
      let off := fileNat bs (o + 8) 8
      { kind := kind, card := if off = 2 ^ 64 - 1 then none else some (fileNat bs o 2, off), core := if core = 0xFFFFFFFF then none else some core
        place := o + 16, body := (bs.drop (o + 16)).take (rowSize kind - 16) }))

def ModuleFile.read (f : Sys2Proof.ModuleFile) : Module :=
  { sections := readSections f.bytes f.addrs, symbols := readSymbols f.bytes, relocs := readRelocs f.bytes, rows := readRows f.bytes }

/-! ### Where `spad` sections stand (11 R244) -/

/-- The next multiple of an alignment. -/
def alignUp (n a : Nat) : Nat := if a = 0 then n else (n + a - 1) / a * a

/-- Lays out the `spad` sections for every core from offset 0, then those that name one core, each core's from where the former end. -/
def placeSpad (l : List Section) : List Section :=
  let (l, end_) := l.foldl (fun (acc : List Section × Nat) s =>
    if s.kind = 5 && s.core.isNone then
      let a := alignUp acc.2 s.align
      (acc.1 ++ [{ s with addr := a }], a + s.data.length)
    else (acc.1 ++ [s], acc.2)) ([], 0)
  (l.foldl (fun (acc : List Section × List (Nat × Nat)) s =>
    match s.kind, s.core with
    | 5, some c =>
      let from_ := match acc.2.find? (fun e => decide (e.1 = c)) with | some e => e.2 | none => end_
      let a := alignUp from_ s.align
      (acc.1 ++ [{ s with addr := a }], (c, a + s.data.length) :: acc.2)
    | _, _ => (acc.1 ++ [s], acc.2)) ([], [])).1

/-- Splits a list into runs of the given lengths. -/
def splitBy : List Nat → List Section → List (List Section)
  | [], _ => []
  | n :: ns, l => l.take n :: splitBy ns (l.drop n)

/-- The modules of a launch, with their `spad` sections laid out together in section-table order. -/
def loadedModules (files : List Sys2Proof.ModuleFile) : List Module :=
  let ms := (files.filter (fun f => ModuleFile.accepted f)).map (fun f => ModuleFile.read f)
  let laid := splitBy (ms.map (fun m => m.sections.length)) (placeSpad (ms.flatMap (fun m => m.sections)))
  (ms.zip laid).map (fun p => { p.1 with sections := p.2 })

/-! ### Symbols (11 R256) -/

/-- The address of a symbol that a module defines. -/
def Module.addressOf (m : Module) (y : Symbol) : Option Nat :=
  if y.sect = 0 then some y.value
  else if y.sect = 0xFFFF then none
  else (m.sections[y.sect - 1]?).map (fun s => s.addr + y.value)

/-- The globals that the loaded modules define. -/
def globals (ms : List Module) : List (List Byte × Nat) :=
  ms.flatMap (fun m => m.symbols.filterMap (fun y => if y.bind = 1 then (m.addressOf y).map (fun a => (y.name, a)) else none))

/-- No two modules define one global, and every external name is some module's global. -/
def symbolsOk (ms : List Module) : Bool :=
  let g := (globals ms).map (·.1)
  decide g.Nodup && ms.all (fun m => m.symbols.all (fun y => decide (y.sect ≠ 0xFFFF) || g.contains y.name))

/-- S: the final address of a symbol. -/
def symbolAddress (ms : List Module) (m : Module) (i : Nat) : Option Nat :=
  match m.symbols[i]? with
  | none => none
  | some y =>
    match m.addressOf y with
    | some a => some a
    | none => ((globals ms).find? (fun g => decide (g.1 = y.name))).map (·.2)

/-! ### Relocations (11 R258) -/

/-- Puts a value's n bytes at an offset. -/
def patchBytes (bs : List Byte) (off n v : Nat) : List Byte := bs.take off ++ leBytes n v ++ bs.drop (off + n)

/-- The field of w bits at the bottom of a 32-bit word, replaced. -/
def patchField (bs : List Byte) (off w v : Nat) : List Byte := patchBytes bs off 4 (fileNat bs off 4 / 2 ^ w * 2 ^ w + v % 2 ^ w)

/-- A displacement in words, when the target is in reach. -/
def reach (w : Nat) (d : Int) : Option Nat :=
  if d % 4 = 0 && decide (-(2 ^ (w - 1) : Int) ≤ d / 4) && decide (d / 4 < (2 ^ (w - 1) : Int)) then some ((d / 4) % (2 ^ w : Int)).toNat else none

/-- The relocated bytes of the patched section, or none where the check of its kind fails. LHDR is applied by `applyHeader`. -/
def relocated (kind : Nat) (bs : List Byte) (off p : Nat) (v : Int) : Option (List Byte) :=
  let n := (v % (2 ^ 64 : Int)).toNat
  match kind with
  | 1 => some (patchBytes bs off 8 n)
  | 2 => if 0 ≤ v && v < (2 ^ 48 : Int) then some (patchBytes bs off 8 (fileNat bs off 8 / 2 ^ 48 * 2 ^ 48 + n)) else none
  | 3 => (reach 16 (v - (p : Int))).map (patchField bs off 16)
  | 4 => (reach 20 (v - (p : Int))).map (patchField bs off 20)
  | 5 => some (patchField bs off 23 (n / 2 ^ 43))
  | 6 => some (patchField bs off 23 (n / 2 ^ 20 % 2 ^ 23))
  | 7 => some (patchField bs off 20 (n % 2 ^ 20))
  | _ => none

/-- LHDR sets the TARGET bit of a slot in the header word of its line; the slot is not slot 0, and holds no padding (11 R248). -/
def applyHeader (ms : List Module) (v : Int) : Option (List Module) :=
  let n := v.toNat
  if v < 0 || n % 4 ≠ 0 || n % 128 = 0 then none
  else if ms.any (fun m => m.sections.any (fun s =>
      decide (s.kind = 1) && decide (s.addr ≤ n) && decide (n < s.addr + s.data.length) && decide (fileNat s.data (n - s.addr) 4 ≠ 0))) then
    some (ms.map (fun m => { m with sections := m.sections.map (fun s =>
      if s.kind = 1 && s.addr ≤ n && n < s.addr + s.data.length then
        let o := (n - s.addr) / 128 * 128
        { s with data := patchBytes s.data o 4 (fileNat s.data o 4 ||| 2 ^ (n % 128 / 4)) }
      else s) }))
  else none

/-- A relocation of a row's body: of ABS64 or ABS48, with SECT 0 and OFFSET counted from the start of the file (11 R257, R259). -/
def Module.relocateRow (m : Module) (r : Reloc) (v : Int) : Option Module :=
  if r.kind ≠ 1 && r.kind ≠ 2 then none
  else match m.rows.findIdx? (fun x => decide (x.place ≤ r.offset) && decide (r.offset + 8 ≤ x.place + x.body.length)) with
    | none => none
    | some i =>
      match m.rows[i]? with
      | none => none
      | some x => (relocated r.kind x.body (r.offset - x.place) 0 v).map (fun d => { m with rows := m.rows.set i { x with body := d } })

/-- One relocation of module k. -/
def applyReloc (ms : List Module) (k : Nat) (r : Reloc) : Option (List Module) :=
  match ms[k]? with
  | none => none
  | some m =>
    if r.sect = 0 then
      ((symbolAddress ms m r.sym).bind (fun a => m.relocateRow r ((a : Int) + r.addend))).map (fun m => ms.set k m)
    else
    match symbolAddress ms m r.sym, m.sections[r.sect - 1]? with
    | some a, some s =>
      let v : Int := (a : Int) + r.addend
      if r.kind = 8 then applyHeader ms v
      else (relocated r.kind s.data r.offset (s.addr + r.offset) v).map (fun d =>
        ms.set k { m with sections := m.sections.set (r.sect - 1) { s with data := d } })
    | _, _ => none

/-! ### The loader's tables (11 R252, R260) -/

/-- The virtual address of a row's card; all ones where it has none. -/
def Module.cardOf (m : Module) (r : TableRow) : Nat :=
  match r.card with
  | some (sect, off) => match m.sections[sect - 1]? with | some s => s.addr + off | none => 2 ^ 64 - 1
  | none => 2 ^ 64 - 1

/-- The `.handler` rows of the loaded modules: index and entry. -/
def handlerRows (ms : List Module) : List (Nat × Nat) :=
  ms.flatMap (fun m => (m.rows.filter (fun r => decide (r.kind = 4))).map (fun r => (fileNat r.body 0 4, fileNat r.body 8 8)))

/-- The handler table: each defined index's entry, and 0 elsewhere. -/
def handlerTable (ms : List Module) : List Byte :=
  (List.range 256).flatMap (fun i => leBytes 8 (match (handlerRows ms).find? (fun e => decide (e.1 = i)) with | some e => e.2 | none => 0))

/-- The rows of a kind, as the load list holds them. -/
def listRows (ms : List Module) (kind : Nat) : List (List Byte) :=
  ms.flatMap (fun m => (m.rows.filter (fun r => decide (r.kind = kind))).map (fun r =>
    leBytes 4 0 ++ leBytes 4 (r.core.getD 0xFFFFFFFF) ++ leBytes 8 (m.cardOf r) ++ r.body))

/-- The load list at an address: its directory, ended by an entry of KIND 0, and the rows of every kind but the handlers'. -/
def loadList (ms : List Module) (tables : Nat) : List Byte :=
  let kinds := [1, 2, 3, 5, 6, 7, 8, 9, 10, 11, 12].filter (fun k => !(listRows ms k).isEmpty)
  let (dir, rows) := kinds.foldl (fun (acc : List Byte × List Byte) k =>
    (acc.1 ++ leBytes 4 k ++ leBytes 4 (listRows ms k).length ++ leBytes 8 (tables + 16 * (kinds.length + 1) + acc.2.length), acc.2 ++ (listRows ms k).flatten)) ([], [])
  dir ++ leBytes 16 0 ++ rows

/-- HTAB, HCOUNT and TABLES are set in each launch description. -/
def Module.describe (m : Module) (htab hcount tables : Nat) : Module :=
  (m.rows.filter (fun r => decide (r.kind = 12))).foldl (fun m r =>
    match r.card with
    | none => m
    | some (sect, off) => { m with sections := m.sections.modify (sect - 1) (fun s =>
        { s with data := patchBytes (patchBytes s.data (off + 64) 16 (htab + hcount * 2 ^ 64)) (off + 96) 8 tables }) }) m

/-- The modules with every relocation applied and their launch descriptions completed, or none where a rule of 11 R256 or a check of 11
R258 fails. -/
def linkModules (files : List Sys2Proof.ModuleFile) : Option (List Module) :=
  let ms := loadedModules files
  if symbolsOk ms then
    (ms.zipIdx.foldl (fun acc e => e.1.relocs.foldl (fun acc r => match acc with | some ms => applyReloc ms e.2 r | none => none) acc) (some ms)).map
      (fun ms => match files with
        | f :: _ => ms.map (fun m => m.describe f.htab.toNat (handlerRows ms).length f.tables.toNat)
        | [] => ms)
  else none

end Sys2Proof.Machine
end

