-- ==== Sys2Proof/Machine/Reduce.lean ====
section
/-! DEFINITION. Reduction trees: red (09 R227 to R231), the routers' merges and checks (14 R303; 23 R411, R412), and the completion
and failure of chunks (09 R229; 23 R414). -/

namespace Sys2Proof.Machine

/-! ### Trees -/

/-- A tree by its identifier, for a launch (09 R228). -/
def State.treeOf (s : State) (lid ident : Nat) : Option Tree :=
  match kget (ident % 1024) (s.die (ident / 1024 % 32)).trees with
  | some t => if t.lid = lid then some t else none
  | none => none

def State.modTree (s : State) (die slot : Nat) (f : Tree → Tree) : State :=
  s.modDie die (fun d => match kget slot d.trees with | some t => { d with trees := kset slot (f t) d.trees } | none => d)

/-- A chunk at the start of a step. -/
def TreeChunk.start : TreeChunk := { state := 0, merged := 0, hop := 0, failedAt := 0, acc := none }

def chunkIn (m : KMap TreeChunk) (n : Nat) : TreeChunk := (kget n m).getD TreeChunk.start

/-- The chunk identity of a tree's chunk in a step (03 R80). -/
def treeIdentity (die slot chunk step : Nat) : Word := chunkIdentity 1 (die * 1024 + slot) chunk step

/-! ### red.tree -/

/-- The check of one doubleword of a tree card, in its order (02 R433, 09 R228); `root` says that ROOT lies in the berth. -/
def treeCardFault (va : Word) (root : Bool) (ds : List Word) : Option Trap :=
  let g (n : Nat) : Nat := (ds.getD n 0).toNat
  let trap (c : Cause) (n : Nat) : Option Trap := some { cause := c, val := va + BitVec.ofNat 64 (8 * n) }
  if bits (g 0) 42 24 = 0 || 262144 < bits (g 0) 42 24 then trap .illegal 0
  else if !root then some { cause := .protection, val := BitVec.ofNat 64 (bits (g 0) 17 0) }
  else if bits (g 0) 63 43 ≠ 0 || bits (g 0) 23 18 ≠ 0 then trap .reservedField 0
  else if bits (g 1) 15 0 = 0 then trap .illegal 1
  else if bits (g 1) 63 16 ≠ 0 then trap .reservedField 1
  else if bits (g 2) 47 0 % 512 ≠ 0 then trap .illegal 2
  else if bits (g 2) 63 48 ≠ 0 then trap .reservedField 2
  else if g 3 ≠ 0 then trap .reservedField 3
  else none

def execRedTree (sw : Bool) (d a : XReg) (s : State) : Host.Outcome State Fault Refusal :=
  issue { Form.of (.redTree sw d a) sw [.x a] [.x d] with inTask := false } (fun l s =>
    cardBody 32 4 (op0 l) s (fun s from_ => .park (s.reserveX s.who d) (.redTree (op0 l) from_ [] d sw))) s

/-- The root die enters a tree in its lowest free slot (25 R431): its identifier, or 0. -/
def State.enterTree (s : State) (lid : Nat) (ds : List Word) : State × Nat :=
  let g (n : Nat) : Nat := (ds.getD n 0).toNat
  let root := bits (g 0) 17 0
  let die := dieOf root
  let d := s.die die
  match (List.range 1023).find? (fun i => (kget (i + 1) d.trees).isNone) with
  | none => (s, 0)
  | some i =>
    let t : Tree := { count := bits (g 0) 42 24, root := root, nchunk := bits (g 1) 15 0, dst := bits (g 2) 47 0, lid := lid, step := 0
                      chunks := [], last := [], fresh := true }
    (s.setDie die { d with trees := kset (i + 1) t d.trees }, die * 1024 + i + 1)

/-- The card's read, a doubleword per core cycle, ends at the end of its fourth one; the reply reaches the core one core cycle later from its own die, and no
earlier than the least delay of the network from another (09 R228, 25 R431). -/
def State.pollRedTree (s : State) (w : CtxId) : State :=
  match (s.ctx w).park with
  | .redTree va t got d sw =>
    match s.readCard w va 4 t got with
      | (s, .error e) => s.raiseParked w d e
      | (s, .ok ds) =>
        let root := bits (ds.headD 0).toNat 17 0
        if ds.length < 4 then s.modCtx w (fun c => { c with park := .redTree va t ds d sw })
        else match treeCardFault va (s.inBerth w.core root) ds with
        | some e => s.raiseParked w d e
        | none =>
          let (s, ident) := s.enterTree (s.core w.core).lid ds
          let due := s.cycle + 1 + (if dieOf root = dieOf w.core then 0 else minDelay w.core root + Config.contention s.free)
          s.modCtx w (fun c => { c with park := .redWait 0 (some (due, ident)) d sw })
  | _ => s

/-! ### The route of a contribution (14 R300) -/

/-- The next router towards the root, and the port at which a contribution enters it (14 R300, R303; 23 R411): column first, then row; on another die
than the root's, to the edge router of the root's column, and over the link to that of the root's die. DESIGN CHOICE (notes/assumptions/123): the edge
is that of row 0, nearest the pier. -/
def nextRouter (router root : Nat) : Nat × Nat :=
  if colOf router < colOf root then (router + 1, 1)
  else if colOf root < colOf router then (router - 1, 2)
  else if dieOf router ≠ dieOf root then
    if rowOf router = 0 then (coreAt (dieOf root) (colOf root) 0, 5) else (router - 128, 4)
  else if rowOf router < rowOf root then (router + 128, 3)
  else (router - 128, 4)

/-- The least delay of one hop (14 R285). -/
def hopDelay (a b : Nat) : Nat := if dieOf a = dieOf b then 2 else 80

/-! ### Contributions -/

/-- The SUM of a contribution's elements (03 R77 kind 5). -/
def contributionSum (accs : List Int) : Nat := manifestSum (accs.map accImage) 0

end Sys2Proof.Machine

namespace Sys2Proof

/-- Two contributions of equal chunk identity. -/
def Contribution.sameChunk (a b : Contribution) : Bool :=
  decide (a.die = b.die) && decide (a.slot = b.slot) && decide (a.chunk = b.chunk) && decide (a.step = b.step)

/-- The element-wise merge (03 R75, R79). -/
def Contribution.merge (a b : Contribution) : Contribution :=
  { a with
    count := a.count + b.count, accs := List.zipWith (· + ·) a.accs b.accs, nanf := List.zipWith (· || ·) a.nanf b.nanf
    pinf := List.zipWith (· || ·) a.pinf b.pinf, ninf := List.zipWith (· || ·) a.ninf b.ninf
    manifest := (a.manifest + b.manifest) % Machine.manifestP }

/-- The manifest recomputed over the elements agrees with the one carried (23 R412). -/
def Contribution.good (c : Contribution) : Bool := decide (Machine.contributionSum c.accs = c.manifest)

end Sys2Proof

namespace Sys2Proof.Machine

/-- The contribution of a tile of 128 FP32 elements (03 R75). -/
def contributionOf (die slot chunk step : Nat) (bs : List Byte) : Contribution :=
  let es := (elements 4 128 bs).map accOf
  let accs := es.map (·.1)
  { die := die, slot := slot, chunk := chunk, step := step, count := 1, accs := accs, nanf := es.map (·.2.1), pinf := es.map (·.2.2.1)
    ninf := es.map (·.2.2.2), manifest := contributionSum accs }

/-! ### red.put -/

/-- The tile may be read (14 R289). -/
def State.tileReadable (s : State) (core va : Nat) : Bool := let g := (s.core core).tag (va / 512); !g.track || g.valid

/-- The contribution is computed and sent: x[d] is written after 12 core cycles (09 R227, R229). -/
def State.sendContribution (s : State) (w : CtxId) (ident va : Word) (d : XReg) : State :=
  let s := s.moves w.core
  let object := bits ident.toNat 62 48
  let c := contributionOf (object / 1024) (object % 1024) (bits ident.toNat 47 20) (bits ident.toNat 19 0)
    (s.loadBytes w va.toNat (spadCell w.core va.toNat) 512)
  (s.post (s.cycle + 13 + Config.contention s.free) (.contributionArrival w.core 0 c)).drew.laterX w 12 .unit d (manifestField 5 c.manifest)

def execRedPut (sw : Bool) (d a b : XReg) (s : State) : Host.Outcome State Fault Refusal :=
  issue { Form.of (.redPut sw d a b) sw [.x a, .x b] [.x d] with inTask := false } (fun l s =>
    let w := s.who
    let ident := op0 l
    let va := op1 l
    match s.treeOf (s.core w.core).lid (bits ident.toNat 62 48) with
    | none => .trap s { cause := .illegal, val := ident }
    | some t =>
      if !ident.getLsbD 63 || decide (t.nchunk ≤ bits ident.toNat 47 20) then .trap s { cause := .illegal, val := ident }
      else if va.toNat % 512 ≠ 0 then .trap s { cause := .misaligned, val := va }
      else if !inOwn va.toNat 512 then .trap s { cause := .protection, val := va }
      else if bits ident.toNat 19 0 ≠ t.step % 2 ^ 20 then .done (s.laterX w 12 .unit d 0)
      else if s.tileReadable w.core va.toNat then
        match s.readOwn w va 512 true with
        | (s, some e) => .trap s e
        | (s, none) => .done (s.sendContribution w ident va d)
      else match s.resolve w.core .read va 512 with
        | (s, .error e) => .trap s { cause := e, val := va }
        | (s, .ok _) => .park (s.reserveX w d) (.redPut ident va d sw)) s

/-- A `red.put` whose tile was not valid: once it is, the word completes. -/
def State.pollRedPut (s : State) (w : CtxId) : State :=
  match (s.ctx w).park with
  | .redPut ident va d sw =>
    if s.tileReadable w.core va.toNat then
      match s.readOwn w va 512 true with
      | (s, some e) => s.raiseParked w d e
      | (s, none) => ((s.unreserveX w d).sendContribution w ident va d).finishPark w sw (s.cycle + 1)
    else s
  | _ => s

/-! ### Steps (09 R229, R230; 23 R414) -/

def failedChunks (m : KMap TreeChunk) : Nat := (m.filter (fun c => decide (c.2.state = 2))).length

/-- Every parked `red.wait` of a tree is answered when its step ends (09 R230). -/
def State.answerWaits (s : State) (ident root lid failed : Nat) : State :=
  s.cores.foldl (fun s e =>
    if e.2.lid = lid then
      (List.finRange 11).foldl (fun s c =>
        let w : CtxId := { core := e.1, ctx := c }
        match (s.ctx w).park with
        | .redWait t Option.none d sw =>
          if t = ident then (s.modCtx w (fun x => { x with park := .redWait t (some (s.cycle + s.linkDelay root e.1, failed)) d sw })).drew else s
        | _ => s) s
    else s) s

/-- The tree's step advances once every chunk is complete or failed (09 R229). -/
def State.endTreeStep (s : State) (die slot : Nat) : State :=
  match kget slot (s.die die).trees with
  | none => s
  | some t =>
    if (t.chunks.filter (fun c => decide (c.2.state ≠ 0))).length = t.nchunk then
      (s.modTree die slot (fun t => { t with step := t.step + 1, last := t.chunks, chunks := [], fresh := false })).answerWaits
        (die * 1024 + slot) t.root t.lid (failedChunks t.chunks)
    else s

def State.modChunk (s : State) (die slot chunk : Nat) (f : TreeChunk → TreeChunk) : State :=
  s.modTree die slot (fun t => { t with chunks := kset chunk (f (chunkIn t.chunks chunk)) t.chunks })

/-- The chunk has merged COUNT contributions, or more where a merged one has carried the count past it. -/
def TreeChunk.full (k : TreeChunk) (count : Nat) : Bool := match k.acc with | some a => decide (count ≤ a.count) | none => false

/-- A chunk of the current step fails (23 R414): the HOP of the first notice stands; of those of one core cycle, the lower ROUTER's. -/
def State.failChunk (s : State) (die slot chunk : Nat) (hop : BitVec 32) : State :=
  (s.modChunk die slot chunk (fun c => { c with state := 2, hop := hop, failedAt := s.cycle, acc := none })).endTreeStep die slot

/-- A notice that is not the first changes the HOP only where it came in the same core cycle from a lower ROUTER. -/
def TreeChunk.second (c : TreeChunk) (cycle : Nat) (hop : BitVec 32) : TreeChunk :=
  if c.state = 2 && decide (c.failedAt = cycle) && decide (bits hop.toNat 17 0 < bits c.hop.toNat 17 0) && !c.hop.getLsbD 28 then { c with hop := hop }
  else c

def execFailureNotice (die slot chunk step : Nat) (hop : BitVec 32) (s : State) : Host.Outcome State Fault Refusal :=
  .next (match kget slot (s.die die).trees with
  | none => s
  | some t =>
    if step = t.step % 2 ^ 20 then
      let c := chunkIn t.chunks chunk
      if c.state = 0 && !c.full t.count then s.failChunk die slot chunk hop
      else s.modChunk die slot chunk (fun c => c.second s.cycle hop)
    else if (step + 1) % 2 ^ 20 = t.step % 2 ^ 20 then
      s.modTree die slot (fun t => { t with last := t.last.map (fun c => if c.1 = chunk then (c.1, c.2.second s.cycle hop) else c) })
    else s)

/-- A record of a tree's contribution at a router (23 R416). -/
def State.logContribution (s : State) (router type : Nat) (c : Contribution) (seg : BitVec 32) : State :=
  match kget c.slot (s.die c.die).trees with
  | none => s
  | some t =>
    s.logFault (dieOf router) { FaultRecord.blank with
      tenant := (match s.launch t.lid with | some l => l.tenant | none => 0), type := type, lid := t.lid
      ident := treeIdentity c.die c.slot c.chunk c.step, seg := seg, unit := 7, core := router }

/-- A failed check (23 R412): the contribution is dropped, a notice goes to the root, and a record of type 6 is made. -/
def State.blame (s : State) (router port root : Nat) (c : Contribution) : State :=
  let hop := BitVec.ofNat 32 (port * 2 ^ 29 + router)
  let due := if router = root then s.cycle else s.cycle + s.linkDelay router root
  ((s.logContribution router 6 c hop).post due (.failureNotice c.die c.slot c.chunk c.step hop)).drew

/-- Forwards a contribution (14 R303): one of equal identity that stands in the same output queue in this core cycle merges with it. -/
def State.forwardContribution (s : State) (router root : Nat) (c : Contribution) : State :=
  let (next, port) := nextRouter router root
  let same (e : Nat × Instr) : Bool := match e.2 with
    | .contributionArrival r p c' => decide (r = next) && decide (p = port) && c.sameChunk c' && decide (s.cycle + hopDelay router next ≤ e.1)
    | _ => false
  match s.agenda.find? same with
  | some (due, .contributionArrival r p c') =>
    let m := c.merge c'
    let s := { s with agenda := s.agenda.erase (due, .contributionArrival r p c') }
    if m.good then s.post due (.contributionArrival next port m) else s.blame router 6 root m
  | _ => (s.post (s.cycle + hopDelay router next + Config.contention s.free) (.contributionArrival next port c)).drew

/-- Accumulators that the root's router holds (14 R303). -/
def Die.accumulators (d : Die) (root : Nat) : Nat :=
  (d.trees.map (fun t => if t.2.root = root then (t.2.chunks.filter (fun c => c.2.acc.isSome)).length else 0)).foldl (· + ·) 0

/-- A good contribution at the root (09 R229; 14 R303; 23 R412, R414). -/
def State.rootMerge (s : State) (c : Contribution) (t : Tree) : State :=
  let k := chunkIn t.chunks c.chunk
  if c.step ≠ t.step % 2 ^ 20 || k.state ≠ 0 || k.full t.count then s.logContribution t.root 9 c 0
  else if k.acc.isNone && decide (64 ≤ (s.die c.die).accumulators t.root) then s.post (s.cycle + 1) (.contributionArrival t.root 0 c)
  else
    let m := match k.acc with | some a => a.merge c | none => c
    if !m.good then
      ((s.modChunk c.die c.slot c.chunk (fun k => { k with merged := m.count })).logContribution t.root 6 c (BitVec.ofNat 32 (6 * 2 ^ 29 + t.root))).failChunk
        c.die c.slot c.chunk (BitVec.ofNat 32 (6 * 2 ^ 29 + t.root))
    else
      let s := s.modChunk c.die c.slot c.chunk (fun k => { k with merged := m.count, acc := some m })
      if t.count ≤ m.count then s.post (s.cycle + 1) (.chunkComplete c.die c.slot c.chunk) else s

/-- A contribution arrives at a router by a port: its check, and its merge or its way on (14 R303; 23 R411, R412). -/
def execContributionArrival (router port : Nat) (c : Contribution) (s : State) : Host.Outcome State Fault Refusal :=
  .next (match kget c.slot (s.die c.die).trees with
  | none => s
  | some t =>
    let s := if router = t.root && decide (c.step = t.step % 2 ^ 20) then s.modTree c.die c.slot (fun t => { t with fresh := true }) else s
    if !c.good then s.blame router port t.root c
    else if router = t.root then s.rootMerge c t
    else s.forwardContribution router t.root c)

/-- The 512 bytes that the root delivers (03 R76). -/
def contributionResult (c : Contribution) : List Byte :=
  (List.range 128).flatMap (fun i =>
    leBytes 4 (accRoot (c.accs.getD i 0) (c.nanf.getD i false) (c.pinf.getD i false) (c.ninf.getD i false)))

/-- The root checks its final accumulator (23 R412) and writes a chunk's results (09 R229): an engine write, which waits for a tracked tile
to be consumed (14 R289, R303). A write that fails leaves the earlier bytes and fails the chunk (23 R414). -/
def execChunkComplete (die slot chunk : Nat) (s : State) : Host.Outcome State Fault Refusal :=
  .next (match kget slot (s.die die).trees with
  | none => s
  | some t =>
    match (chunkIn t.chunks chunk).acc with
    | none => s
    | some c =>
      if c.count < t.count then s
      else if !c.good then
        (s.logContribution t.root 6 c (BitVec.ofNat 32 (6 * 2 ^ 29 + t.root))).failChunk die slot chunk (BitVec.ofNat 32 (6 * 2 ^ 29 + t.root))
      else
        let va := t.dst + 512 * chunk
        if !s.tagReady [] (spansOf t.root va 512) then s.post (s.cycle + 1) (.chunkComplete die slot chunk)
        else match s.engineWrite t.root va (contributionResult c) with
          | (s, none) => (s.modChunk die slot chunk (fun k => { k with state := 1, acc := none })).endTreeStep die slot
          | (s, some (cause, a)) =>
            (s.logProgramFault t.root cause a.toNat).failChunk die slot chunk (BitVec.ofNat 32 (2 ^ 28 + t.root)))

/-! ### red.wait, stat, man -/

def execRedWait (sw : Bool) (d a : XReg) (s : State) : Host.Outcome State Fault Refusal :=
  issue { Form.of (.redWait sw d a) sw [.x a] [.x d] with inTask := false } (fun l s =>
    let w := s.who
    let ident := bits (op0 l).toNat 14 0
    match s.treeOf (s.core w.core).lid ident with
    | none => .trap s { cause := .illegal, val := op0 l }
    | some _ => .park (s.reserveX w d) (.redWait ident none d sw)) s

/-- The root's answer has come. -/
def State.pollRedWait (s : State) (w : CtxId) : State :=
  match (s.ctx w).park with
  | .redWait _ (some (t, v)) d sw => if t ≤ s.cycle then s.completeX w d (BitVec.ofNat 64 v) sw s.cycle else s
  | _ => s

/-- The status of a chunk in the step in force (09 R230, 23 R414). -/
def Tree.chunkStatus (t : Tree) (chunk : Nat) : Nat :=
  let c := chunkIn (if t.fresh then t.chunks else t.last) chunk
  (if c.state = 2 then c.hop.toNat * 2 ^ 32 else 0) + c.merged * 4 + c.state

def execRedStat (sw : Bool) (d a b : XReg) (s : State) : Host.Outcome State Fault Refusal :=
  issue (Form.of (.redStat sw d a b) sw [.x a, .x b] [.x d]) (fun l s =>
    let w := s.who
    match s.treeOf (s.core w.core).lid (bits (op0 l).toNat 14 0) with
    | none => .trap s { cause := .illegal, val := op0 l }
    | some t =>
      let chunk := bits (op1 l).toNat 15 0
      if t.nchunk ≤ chunk then .trap s { cause := .illegal, val := op1 l }
      else .done ((s.laterX w (s.linkDelay w.core t.root) .unit d (BitVec.ofNat 64 (t.chunkStatus chunk))).drew)) s

/-- The image of an element in memory (03 R77, 09 R231). -/
def elementImage (kind v : Nat) : Nat := if kind = 5 then accImage (accOf v).1 else v

/-- The size of an element of a manifest kind (09 R231). -/
def manifestSize (kind : Nat) : Size := match kind with | 1 => .b | 2 => .h | 4 => .d | _ => .w

/-- Reads n elements as relaxed loads in the three windows; what fails traps with the address that the word takes (09 R203, R231). -/
def State.readElements (s : State) (w : CtxId) (va : Word) (sz : Size) (n : Nat) : State × Except Trap (List Nat) :=
  (List.range n).foldl (fun acc i =>
    match acc with
    | (s, .error e) => (s, .error e)
    | (s, .ok es) =>
      let a := va + BitVec.ofNat 64 (sz.bytes * i)
      if !inGroupWindow w.core a.toNat then (s, .error { cause := .protection, val := va })
      else match s.readScalar w a sz false with
        | (s, .error e) => (s, .error { cause := e, val := va })
        | (s, .ok (_, v, _)) => (s, .ok (v.toNat :: es))) (s, .ok [])

def execRedMan (sw : Bool) (d a b : XReg) (s : State) : Host.Outcome State Fault Refusal :=
  issue (Form.of (.redMan sw d a b) sw [.x a, .x b] [.x d]) (fun l s =>
    let w := s.who
    let va := op0 l
    let desc := (op1 l).toNat
    let kind := bits desc 63 61
    let n := bits desc 11 0
    if bits desc 60 12 ≠ 0 || kind = 0 || 5 < kind || n = 0 || 2048 < n then .trap s { cause := .illegal, val := op1 l }
    else if va.toNat % (manifestSize kind).bytes ≠ 0 then .trap s { cause := .misaligned, val := va }
    else match s.readElements w va (manifestSize kind) n with
      | (s, .error e) => .trap s e
      | (s, .ok es) =>
        let end_ (s : State) : Body :=
          .done (s.laterX w (4 + (n + 15) / 16) .load d (manifestField kind (manifestSum (es.reverse.map (elementImage kind)) 0)))
        match s.resolve w.core .read va (manifestSize kind).bytes with
        | (s, .ok a) => withPort w.core a s end_
        | (s, .error _) => end_ s) s

end Sys2Proof.Machine
end

