-- ==== Sys2Proof/Machine/Lanes.lean ====
section
/-! DEFINITION. Lane arithmetic of the vector unit as functions of register values: lanes and masks (05 R95, R97), vop
(05 R100), vfma (05 R101), vcmp (05 R102), vred (05 R103) and vcvt (05 R105). -/

namespace Sys2Proof

/-- The lane width (05 R95). -/
def LaneTy.width : LaneTy → Nat
  | .f32 | .i32 => 32 | .bf16 | .f16 | .i16 => 16 | .i8 => 8 | .i64 => 64
/-- The lane count (05 R95). -/
def LaneTy.count (t : LaneTy) : Nat := 512 / t.width

end Sys2Proof

namespace Sys2Proof.Machine

/-- The float format of a lane type. -/
def fmtOf : LaneTy → Option Fmt
  | .f32 => some fp32 | .bf16 => some bf16 | .f16 => some fp16 | _ => none

/-- Lane i of width w (05 R95). -/
def lane (w : Nat) (v : Vec) (i : Nat) : Nat := v.toNat / 2 ^ (w * i) % 2 ^ w
/-- Lanes of width w from lane 0 upwards. -/
def packLanes (w : Nat) (ls : List Nat) : Vec := BitVec.ofNat 512 (ls.foldr (fun x acc => acc * 2 ^ w + x % 2 ^ w) 0)
/-- Whether the mask makes lane i active (05 R95). -/
def laneActive (ty : LaneTy) (m : BitVec 32) (i : Nat) : Bool := m.getLsbD (if ty = .i8 then i / 2 else i)

/-- A lanewise result: value, the bits kept, the flags of the active lanes (05 R97, R98). -/
structure LaneOut where
  value : Vec
  keep : Vec
  flags : FFlags
  deriving DecidableEq, Repr

/-- Applies a lane function under the mask. -/
def mapLanes (ty : LaneTy) (m : BitVec 32) (f : Nat → FRes) : LaneOut :=
  let w := ty.width
  let rs := (List.range ty.count).map (fun i => if laneActive ty m i then some (f i) else none)
  { value := packLanes w (rs.map (fun r => match r with | some r => r.bits | none => 0))
    keep := packLanes w (rs.map (fun r => match r with | some _ => 0 | none => 2 ^ w - 1))
    flags := rs.foldl (fun a r => match r with | some r => a.union r.flags | none => a) .none }

/-- The scalar operand as a lane value (05 R97). -/
def bcastLane (ty : LaneTy) (x : Word) : Nat := x.toNat % 2 ^ ty.width

/-! ### vop (05 R100) -/

def arithLane (ff : Fmt → Rounding → FVal → FVal → FRes) (fi : Int → Int → Int) (ty : LaneTy) (sat : Bool) (a b : Nat) : FRes :=
  match fmtOf ty with
  | some f => ff f (rneOf sat) (f.decode a) (f.decode b)
  | none => .exact (narrowInt ty.width sat (fi (sintN ty.width a) (sintN ty.width b)))

def addLane (ty : LaneTy) (sat : Bool) (a b : Nat) : FRes := arithLane Fmt.add (· + ·) ty sat a b
def subLane (ty : LaneTy) (sat : Bool) (a b : Nat) : FRes := arithLane Fmt.sub (· - ·) ty sat a b
def mulLane (ty : LaneTy) (sat : Bool) (a b : Nat) : FRes := arithLane Fmt.mul (· * ·) ty sat a b
def divLane (ty : LaneTy) (sat : Bool) (a b : Nat) : FRes := arithLane Fmt.div (fun x _ => x) ty sat a b
def minMaxLane (isMax : Bool) (ty : LaneTy) (a b : Nat) : FRes :=
  match fmtOf ty with
  | some f => .exact (f.minMax isMax a b)
  | none =>
    let x := sintN ty.width a
    let y := sintN ty.width b
    .exact (if isMax then (if x < y then b else a) else (if y < x then b else a))
/-- Float `abs` and `neg` act on the sign bit alone (05 R100, 03 R54). -/
def absLane (ty : LaneTy) (sat : Bool) (a : Nat) : FRes :=
  match fmtOf ty with
  | some f => .exact (a % 2 ^ (f.width - 1))
  | none => .exact (narrowInt ty.width sat (sintN ty.width a).natAbs)
def negLane (ty : LaneTy) (sat : Bool) (a : Nat) : FRes :=
  match fmtOf ty with
  | some f => .exact (a ^^^ 2 ^ (f.width - 1))
  | none => .exact (narrowInt ty.width sat (-(sintN ty.width a)))
def sqrtLane (ty : LaneTy) (a : Nat) : FRes :=
  match fmtOf ty with
  | some f => f.sqrt (f.decode a)
  | none => .exact a
def andLane (a b : Nat) : FRes := .exact (a &&& b)
def orLane (a b : Nat) : FRes := .exact (a ||| b)
def xorLane (a b : Nat) : FRes := .exact (a ^^^ b)
/-- Shifts by the low log2(N) bits of B (05 R100). -/
def sllLane (ty : LaneTy) (a b : Nat) : FRes := .exact (a * 2 ^ (b % ty.width) % 2 ^ ty.width)
def srlLane (ty : LaneTy) (a b : Nat) : FRes := .exact (a / 2 ^ (b % ty.width))
def sraLane (ty : LaneTy) (a b : Nat) : FRes := .exact (wrapN ty.width (sintN ty.width a / (2 ^ (b % ty.width) : Nat)))
/-- Bits 2N − 1 : N of the signed product. -/
def mulhLane (ty : LaneTy) (a b : Nat) : FRes :=
  .exact (wrapN ty.width (sintN ty.width a * sintN ty.width b / (2 ^ ty.width : Nat)))

/-! ### vfma (05 R101) -/

/-- ±(A × B) ± C, rounded once. -/
def fmaLane (negP negC : Bool) (ty : LaneTy) (sat : Bool) (a b c : Nat) : FRes :=
  match fmtOf ty with
  | some f =>
    let p := (f.decode a).mul (f.decode b)
    let z := f.decode c
    f.deliver (rneOf sat) ((f.decode a).isNan || (f.decode b).isNan || z.isNan)
      ((if negP then p.negate else p).add (if negC then z.negate else z))
  | none =>
    let p := sintN ty.width a * sintN ty.width b
    let z := sintN ty.width c
    .exact (narrowInt ty.width sat ((if negP then -p else p) + (if negC then -z else z)))

/-- One FP32 lane of `dot2`: C + A0 × B0 + A1 × B1, rounded once. -/
def dot2Lane (f : Fmt) (sat : Bool) (a0 b0 a1 b1 c : Nat) : FRes :=
  let vs := [f.decode a0, f.decode b0, f.decode a1, f.decode b1]
  let z := fp32.decode c
  fp32.deliver (rneOf sat) (vs.any (·.isNan) || z.isNan)
    ((z.add ((f.decode a0).mul (f.decode b0))).add ((f.decode a1).mul (f.decode b1)))

/-! ### vcmp (05 R102) -/

/-- The condition on two lanes, and whether it sets NV. -/
def vcmpLane (ty : LaneTy) (c : VCond) (a b : Nat) : Bool × Bool :=
  match fmtOf ty with
  | some f =>
    let x := f.decode a
    let y := f.decode b
    let nan := x.isNan || y.isNan
    match c with
    | .un => (nan, false)
    | .cond .eq => (x.eqNum y, false)
    | .cond .ne => (!x.eqNum y, false)
    | .cond .lt => (!nan && x.ltNum y, nan)
    | .cond .ge => (!nan && !x.ltNum y, nan)
    | .cond .gt => (!nan && y.ltNum x, nan)
    | .cond .le => (!nan && !y.ltNum x, nan)
    | .cond _ => (false, false)
  | none =>
    let x := sintN ty.width a
    let y := sintN ty.width b
    match c with
    | .un => (false, false)
    | .cond .eq => (decide (a = b), false)
    | .cond .ne => (decide (a ≠ b), false)
    | .cond .lt => (decide (x < y), false)
    | .cond .ge => (decide (y ≤ x), false)
    | .cond .gt => (decide (y < x), false)
    | .cond .le => (decide (x ≤ y), false)
    | .cond .ltu => (decide (a < b), false)
    | .cond .geu => (decide (b ≤ a), false)
    | .cond .gtu => (decide (b < a), false)
    | .cond .leu => (decide (a ≤ b), false)
    | .cond .any => (decide (a &&& b ≠ 0), false)
    | .cond .none => (decide (a &&& b = 0), false)

/-- The destination mask and the flags of a compare (05 R102). -/
def vcmpMask (ty : LaneTy) (c : VCond) (m : BitVec 32) (a b : Nat → Nat) : BitVec 32 × FFlags :=
  let act := (List.range ty.count).filter (laneActive ty m)
  (BitVec.ofNat 32 (act.foldl (fun acc i => acc + (if (vcmpLane ty c (a i) (b i)).1 then 2 ^ i else 0)) 0),
   if act.any (fun i => (vcmpLane ty c (a i) (b i)).2) then .invalid else .none)

/-! ### vred (05 R103) -/

/-- The active lanes' values, in lane order. -/
def activeLanes (ty : LaneTy) (m : BitVec 32) (v : Vec) : List Nat :=
  ((List.range ty.count).filter (laneActive ty m)).map (lane ty.width v)

def sumLanes (ty : LaneTy) (sat : Bool) (ls : List Nat) : FRes :=
  match fmtOf ty with
  | some f =>
    match ls.map f.decode with
    | [] => .exact (f.zero false)
    | x :: xs => f.deliver (rneOf sat) (x.isNan || xs.any (·.isNan)) (xs.foldl FVal.add x)
  | none => .exact (narrowInt ty.width sat (ls.foldl (fun a b => a + sintN ty.width b) 0))

/-- The least or greatest lane value; the identity with no active lane. -/
def minMaxLanes (isMax : Bool) (ty : LaneTy) (ls : List Nat) : FRes :=
  let ident := match fmtOf ty with
    | some f => f.inf isMax
    | none => if isMax then 2 ^ (ty.width - 1) else 2 ^ (ty.width - 1) - 1
  .exact (ls.foldl (fun a b => (minMaxLane isMax ty a b).bits) ident)

/-- Lane 0 of a zeroed register (05 R103). -/
def lane0 (r : FRes) : LaneOut := { value := BitVec.ofNat 512 r.bits, keep := 0, flags := r.flags }

/-! ### vcvt (05 R105) -/

/-- One value converted from one lane type to another. -/
def cvtLane (src dst : LaneTy) (sat : Bool) (a : Nat) : FRes :=
  match fmtOf src, fmtOf dst with
  | some f, some g => g.narrow (rneOf sat) (f.decode a)
  | some f, none => floatToInt dst.width sat (f.decode a)
  | none, some g => g.narrow .rne (FVal.ofInt (sintN src.width a))
  | none, none => .exact (narrowInt dst.width sat (sintN src.width a))

/-- The source value of a destination lane (05 R105): same width lane by lane, narrowing va then vb, widening one half. -/
def cvtSource (src dst : LaneTy) (high : Bool) (va vb : Vec) (i : Nat) : Nat :=
  match cvtKind src dst with
  | some .narrow => if i < src.count then lane src.width va i else lane src.width vb (i - src.count)
  | some .widen => lane src.width va (if high then i + dst.count else i)
  | _ => lane src.width va i

end Sys2Proof.Machine
end

