-- ==== Sys2Proof/Machine/Matrix.lean ====
section
/-! DEFINITION. Matrix operations: mx (07 R157 to R168), drained rows and their timing (12 R263, R264), the arithmetic of the array
(03 R61), and the current-slew limiter (01 R28 to R31). -/

namespace Sys2Proof.Machine

/-! ### The operation descriptor (07 R158) -/

def opCheck (i d : Nat) : Option Cause :=
  let epat := bits d 15 14
  let bpat := bits d 13 12
  let planes := bits d 11 8
  let k := bits d 6 0
  match i with
  | 3 => refuse (bitAt d 63) (decide (bits d 62 42 % 4 ≠ 0) || decide (bits d 41 21 % 4 ≠ 0) || decide (bits d 20 0 % 4 ≠ 0))
  | 7 => refuse (decide (bits d 63 43 ≠ 0) || bitAt d 7) (decide (bits d 17 16 = 3) || decide (2 ≤ epat) || decide (bpat = 3) || decide (planes = 1)
      || decide (9 ≤ planes) || decide (k = 0) || decide (64 < k)
      || ((decide (bpat ≠ 0) || decide (epat ≠ 0)) && (decide (k ≠ 64) || !bitAt d 19)))
  | _ => refuse (decide (bits d 63 48 ≠ 0)) false

/-- The operation that nine doublewords describe. -/
def opOf (ds : List Word) : MatrixOp :=
  let g (n : Nat) : Nat := (ds.getD n 0).toNat
  let w := g 7
  { abase := bits (g 0) 47 0, bbase := bits (g 1) 47 0, cbase := bits (g 2) 47 0, astride := bits (g 3) 20 0, bstride := bits (g 3) 41 21
    cstride := bits (g 3) 62 42, scaleA := bits (g 4) 47 0, scaleB := bits (g 5) 47 0, metaA := bits (g 6) 47 0
    terms := BitVec.ofNat 16 (bits w 42 27), arm := bitAt w 26, tagen := bitAt w 25, tag := bits w 24 21, drain := bitAt w 20, bt := bitAt w 19
    acc := bitAt w 18, outf := bits w 17 16, epat := bits w 15 14, bpat := bits w 13 12, planes := bits w 11 8, k := bits w 6 0
    handler := BitVec.ofNat 64 (bits (g 8) 47 0) }

/-! ### mx.gang (07 R160) -/

/-- The core holds an arrival, or is on its way to one. -/
def State.gangHeld (s : State) (core : Nat) : Bool :=
  bitGet (s.cluster (clusterOf core)).gangArrivals (Fin.ofNat 8 (posOf core))
    || (s.core core).ctxs.toList.any (fun c => c.live && (match c.park with | .mxRead .. => true | _ => false))

/-- Records a core's arrival (07 R160, R168); with the eighth, the wired barrier consumes them (12 R263). -/
def State.gangArrive (s : State) (core : Nat) (op : Option MatrixOp) (due : Nat) : State :=
  let cl := clusterOf core
  let k := s.cluster cl
  let arr := bitSet k.gangArrivals (Fin.ofNat 8 (posOf core)) true
  let s := s.setCluster cl { k with gangArrivals := arr, gangOp := op.or k.gangOp }
  let s := s.modCore core (fun k => { k with slice := { k.slice with state := if k.slice.state = 2 then 2 else 1 } })
  if arr = BitVec.allOnes 8 then s.post due (.gangBarrierConsume cl) else s

def execMxGang (sw : Bool) (d a : XReg) (s : State) : Host.Outcome State Fault Refusal :=
  issue { Form.of (.mxGang sw d a) sw [.x a] [.x d] with inTask := false, held := s.gangHeld s.who.core } (fun l s =>
    let w := s.who
    let va := op0 l
    if posOf w.core ≠ 0 then .park ((s.reserveX w d).gangArrive w.core none (s.cycle + 1)) (.mxGang d false sw)
    else if va.toNat % 64 ≠ 0 then .trap s { cause := .misaligned, val := va }
    else if !inClusterWindow w.core va.toNat || !inClusterWindow w.core (va.toNat + 71) then .trap s { cause := .protection, val := va }
    else match s.readOwn w va 72 with
    | (s, some t) => .trap s { t with val := va }
    | (s, none) => .park (s.reserveX w d) (.mxRead va (s.cycle + s.windowLat w.core va.toNat + 1) [] d sw)) s

/-- The descriptor is read, a doubleword in a core cycle; at the end, its checks, and the arrival of position 0 (07 R160). -/
def State.pollMatrix (s : State) (w : CtxId) : State :=
  match (s.ctx w).park with
  | .mxRead va t got d sw =>
    match s.readCard w va 9 t got with
    | (s, .error e) => s.raiseParked w d e
    | (s, .ok ds) =>
      if ds.length < 9 then s.modCtx w (fun c => { c with park := .mxRead va t ds d sw })
      else match dwFault va opCheck ds with
        | some e => s.raiseParked w d e
        | none => (s.modCtx w (fun c => { c with park := .mxGang d false sw })).gangArrive w.core (some (opOf ds)) s.cycle
  | _ => s

/-- The wired cluster barrier consumes the eight arrivals and offers the operation (07 R160), once the queue has answered the one before. -/
def execGangBarrierConsume (cl : Nat) (s : State) : Host.Outcome State Fault Refusal :=
  let k := s.cluster cl
  if k.gangOffer.isSome then .next (s.post (s.cycle + 1) (.gangBarrierConsume cl))
  else if k.gangArrivals = BitVec.allOnes 8 then
    let s := s.setCluster cl { k with gangArrivals := 0, gangOffer := k.gangOp.map (fun op => (s.cycle, op)), gangOp := none }
    .next ((coresOfCluster cl).foldl (fun s core => s.modCore core (fun k => { k with
      ctxs := k.ctxs.map (fun c => match c.park with | .mxGang d _ sw => { c with park := .mxGang d true sw } | _ => c) })) s)
  else .next s

/-! ### Operand elements (03 R61, R69, R70; 07 R161, R162) -/

/-- The format class of an operand page. -/
def operandBad (f : Nat) : Bool := decide (f = 5) || decide (f = 6) || decide (f = 7)

/-- One element of a format as an operand value (03 R69). -/
def operandValue (f b : Nat) : FVal :=
  match f with
  | 1 | 0xA => bf16.decode (cvtLane .f32 .bf16 false b).bits
  | 2 => bf16.decode (cvtLane .f16 .bf16 false b).bits
  | 4 => FVal.ofInt (sintN 8 b)
  | _ => bf16.decode b

/-- The effective planes of a PL8 operand (03 R64). -/
def effPlanes (attr : Attr) (planes : Nat) : Nat := if planes = 0 then attr.planesn + 1 else min planes (attr.planesn + 1)

/-- The K-block length of a PL8 page. -/
def blockLen (attr : Attr) : Nat := 32 * 2 ^ attr.blockg

/-- Element k of a PL8 row from the first p planes of its records and its scale bytes (03 R65, R67). -/
def planeElement (attr : Attr) (p : Nat) (recs scales : List Byte) (k : Nat) : FVal :=
  let B := blockLen attr
  let e := (scales.getD (k / B) 0).toNat
  planeValue p (planeBits (recs.drop (k / B * (p * B / 8))) B p (k % B)) e

/-- The plane bytes of a PL8 row of k elements that are read: offset and length of each plane's part of each block record, the first p
planes of it, up to the last present element (03 R64, R67). -/
def planePieces (attr : Attr) (p k : Nat) : List (Nat × Nat) :=
  let B := blockLen attr
  (List.range ((k + B - 1) / B)).flatMap (fun b =>
    (List.range p).map (fun j => ((b * (attr.planesn + 1) + j) * (B / 8), (min B (k - b * B) + 7) / 8)))

/-- Reads the pieces of a row; each fills `n` bytes of the answer, with zeros for what is not read. -/
def State.enginePieces (s : State) (core va n : Nat) : List (Nat × Nat) → State × Except EngineFault (List Byte)
  | [] => (s, .ok [])
  | p :: ps =>
    match s.engineRead core (va + p.1) p.2 with
    | (s, .error e) => (s, .error e)
    | (s, .ok bs) =>
      match s.enginePieces core va n ps with
      | (s, .error e) => (s, .error e)
      | (s, .ok rest) => (s, .ok (bs ++ List.replicate (n - p.2) 0 ++ rest))

/-- Why an operand that begins in a page cannot be decoded: an integer format that 03 R69 does not allow, or one that the operation refuses (07 R161).
Where the manual says `the operand's address`, the model gives the address of the first element of the row in that page, when the row is read:
DESIGN CHOICE (notes/assumptions/115). -/
def operandFault (va : Nat) (bars : Attr → Bool) (attr : Attr) : Option EngineFault :=
  if operandBad attr.format then some (.translation, BitVec.ofNat 64 va)
  else if bars attr then some (.illegal, BitVec.ofNat 64 va)
  else none

/-- Reads k elements that follow one another from an address, each in the format of the page or region that holds its first byte (03 R69; 21 R381); one
in a PL8 page has the format of the element before it, `fmt` (notes/assumptions/115). -/
def State.operandRun (s : State) (core : Nat) (bars : Attr → Bool) : Nat → Nat → Nat → Attr → State × Except EngineFault (List FVal)
  | 0, _, _, _ => (s, .ok [])
  | fuel + 1, va, k, fmt =>
    if k = 0 then (s, .ok [])
    else match s.attrAt core va with
      | (s, .error e) => (s, .error e)
      | (s, .ok attr) =>
        match operandFault va bars attr with
        | some e => (s, .error e)
        | none =>
          let fmt := if attr.format = 8 then fmt else attr
          let w := rowBytes fmt 1
          let n := min k ((512 - va % 512 + w - 1) / w)
          match s.engineRead core va (n * w) with
          | (s, .error e) => (s, .error e)
          | (s, .ok bs) =>
            match s.operandRun core bars fuel (va + n * w) (k - n) fmt with
            | (s, .error e) => (s, .error e)
            | (s, .ok rest) => (s, .ok ((elements w n bs).map (operandValue fmt.format) ++ rest))

/-- Reads k elements of an operand row at an address, element by element in the formats of their pages (03 R69); a row that begins in a PL8 page is one of
planes, and `scaleOf` gives the address of its scale bytes for the page's block length (03 R65). -/
def State.operandRow (s : State) (core va k planes : Nat) (scaleOf : Nat → Nat) (bars : Attr → Bool) : State × Except EngineFault (List FVal) :=
  match s.attrAt core va with
  | (s, .error e) => (s, .error e)
  | (s, .ok attr) =>
    match operandFault va bars attr with
    | some e => (s, .error e)
    | none =>
    if attr.format = 8 then
      let p := effPlanes attr planes
      let B := blockLen attr
      match s.enginePieces core va (B / 8) (planePieces attr p k) with
      | (s, .error e) => (s, .error e)
      | (s, .ok bs) =>
        match s.engineRead core (scaleOf B) ((k + B - 1) / B) with
        | (s, .error e) => (s, .error e)
        | (s, .ok sc) => (s, .ok ((List.range k).map (planeElement attr p bs sc)))
    else s.operandRun core bars k va k attr

/-- The K indices that a sparsity record keeps for a column, in ascending order (07 R162); none where it breaks its rules. -/
def keptIndices (bpat epat : Nat) (lo hi : Nat) : Option (List Nat) :=
  let bmap := bits hi 3 0
  let count := (List.range 4).countP (fun b => bitAt bmap b)
  let blocks := (List.range 4).filter (fun b => bitAt bmap b)
  let bok := match bpat with
    | 0 => decide (bmap = 0xF)
    | 1 => (bitAt bmap 0 != bitAt bmap 1) && (bitAt bmap 2 != bitAt bmap 3)
    | _ => decide (count = 2)
  let nib (k g : Nat) : Nat := lo / 2 ^ (16 * k + 4 * g) % 16
  let eok := if epat = 0 then decide (lo = 0) else
    (List.range 4).all (fun k => if k < count then (List.range 4).all (fun g => decide (nib k g % 4 < nib k g / 4))
      else decide (lo / 2 ^ (16 * k) % 2 ^ 16 = 0))
  if bits hi 63 4 = 0 && bok && eok then
    some (blocks.zipIdx.flatMap (fun (b, k) => (List.range 4).flatMap (fun g =>
      if epat = 0 then (List.range 4).map (fun e => 16 * b + 4 * g + e)
      else [16 * b + 4 * g + nib k g % 4, 16 * b + 4 * g + nib k g / 4])))
  else none

/-- A page format that B may not have: plane integers across the columns, plane or int8 elements under sparsity (07 R161). -/
def MatrixOp.barsB (op : MatrixOp) (attr : Attr) : Bool :=
  let sparse := decide (op.bpat ≠ 0) || decide (op.epat ≠ 0)
  (decide (attr.format = 8) && !op.bt) || (sparse && (decide (attr.format = 8) || decide (attr.format = 4)))

/-- Column j of B as pairs (K index, value), where B is stored by columns. -/
def State.operandColumn (s : State) (core : Nat) (op : MatrixOp) (j : Nat) : State × Except EngineFault (List (Nat × FVal)) :=
  match s.operandRow core (op.bbase + j * op.bstride) op.kept op.planes (fun blk => op.scaleB + j * ((op.k + blk - 1) / blk)) op.barsB with
  | (s, .error e) => (s, .error e)
  | (s, .ok vs) =>
    if op.bpat = 0 && op.epat = 0 then (s, .ok (vs.zipIdx.map (fun p => (p.2, p.1))))
    else
      match s.engineRead core (op.metaA + 16 * j) 16 with
      | (s, .error e) => (s, .error e)
      | (s, .ok m) =>
        match keptIndices op.bpat op.epat (leValue (m.take 8)) (leValue (m.drop 8)) with
        | none => (s, .error (.illegal, BitVec.ofNat 64 (op.metaA + 16 * j)))
        | some idx => (s, .ok (idx.zip vs))

/-- All columns of B; with BT = 0 row by row. -/
def State.operandB (s : State) (core : Nat) (op : MatrixOp) : State × Except EngineFault (List (List (Nat × FVal))) :=
  if op.bt then
    (List.range 64).foldl (fun acc j =>
      match acc with
      | (s, .error e) => (s, .error e)
      | (s, .ok cols) =>
        match s.operandColumn core op j with
        | (s, .error e) => (s, .error e)
        | (s, .ok c) => (s, .ok (cols ++ [c]))) (s, .ok [])
  else
    match (List.range op.k).foldl (fun (acc : State × Except EngineFault (List (List FVal))) k =>
      match acc with
      | (s, .error e) => (s, .error e)
      | (s, .ok rows) =>
        match s.operandRow core (op.bbase + k * op.bstride) 64 op.planes (fun _ => 0) op.barsB with
        | (s, .error e) => (s, .error e)
        | (s, .ok r) => (s, .ok (rows ++ [r]))) (s, .ok []) with
    | (s, .error e) => (s, .error e)
    | (s, .ok rows) => (s, .ok ((List.range 64).map (fun j => rows.zipIdx.map (fun (r, k) => (k, r.getD j .nan)))))

/-- One element of C (03 R61): the exact sum, rounded once. A zero result is −0 only where C = −0 and the sum of the products is an exact
zero; any other zero is +0, also one that a non-zero sum rounds to. -/
def matrixElement (c : FVal) (a : List FVal) (col : List (Nat × FVal)) : BitVec 32 :=
  let sum := col.foldl (fun acc p => FVal.add acc ((a.getD p.1 (.fin false 0 0)).mul p.2)) (.fin true 0 0)
  let r := (fp32.deliver .rne true (c.add sum)).bits
  BitVec.ofNat 32 (if r % 2 ^ 31 = 0 then fp32.zero (c.isZero && c.neg && sum.isZero) else r)

/-- A pattern of format OUTF as a value (07 R158, R159). -/
def outFmt (outf : Nat) : Fmt := if outf = 0 then fp32 else if outf = 1 then bf16 else fp16

/-- Row i of C as the slice of a core computes it (07 R159). -/
def State.computeRow (s : State) (core : Nat) (op : MatrixOp) (i : Nat) : State × Except EngineFault (List (BitVec 32)) :=
  match s.operandRow core (op.abase + i * op.astride) op.k op.planes (fun blk => op.scaleA + i * ((op.k + blk - 1) / blk)) (fun _ => false) with
  | (s, .error e) => (s, .error e)
  | (s, .ok a) =>
    match s.operandB core op with
    | (s, .error e) => (s, .error e)
    | (s, .ok cols) =>
      if op.acc then
        let w := outWidth op.outf
        match s.engineRead core (op.cbase + i * op.cstride) (64 * w) with
        | (s, .error e) => (s, .error e)
        | (s, .ok bs) =>
          let cs := (elements w 64 bs).map (outFmt op.outf).decode
          (s, .ok (cols.zipIdx.map (fun (col, j) => matrixElement (cs.getD j .nan) a col)))
      else (s, .ok (cols.map (matrixElement (.fin false 0 0) a)))

/-- The bytes of a row narrowed to OUTF by RoundRZ (03 R60). -/
def rowOut (outf : Nat) (vals : List (BitVec 32)) : List Byte :=
  vals.flatMap (fun v => leBytes (outWidth outf)
    (if outf = 0 then v.toNat else ((outFmt outf).narrow .rz (fp32.decode v.toNat)).bits))

/-! ### The run of an operation -/

/-- The row time and the checks of the formats (07 R161): the row time, or why the operation fails. -/
def MatrixOp.mode (op : MatrixOp) (fa fb : Attr) : Except Cause Nat :=
  let sparse := decide (op.bpat ≠ 0) || decide (op.epat ≠ 0)
  if op.barsB fb then .error .illegal
  else if fa.format = 4 && fb.format = 8 && op.bt && !sparse then .ok (8 * effPlanes fb op.planes)
  else if !sparse then .ok 64
  else if op.bpat ≠ 0 && op.epat ≠ 0 then .ok 16
  else .ok 32

/-- The running operation of a cluster. -/
def Cluster.matrixRunning (k : Cluster) : Option (Fin 32 × MatrixOp) :=
  match k.running with
  | some n =>
    match (k.jobs.get (Fin.ofNat 32 n)).job with
    | some (.matrix op) => some (Fin.ofNat 32 n, op)
    | _ => none
  | none => none

def State.modSlice (s : State) (core : Nat) (f : Slice → Slice) : State := s.modCore core (fun k => { k with slice := f k.slice })

/-- A slice that computes or fills a part of an operation, whose end it has not reported to the limiter yet (12 R264). -/
def Slice.counted (sl : Slice) : Bool := sl.rowEnd.isSome || (sl.waiting && !(sl.ready.isSome && decide (sl.rows = 7)))

/-- An operation fails (07 R166): the slices abandon their rows; rows that handlers hold stay theirs. DESIGN CHOICE (notes/assumptions/112): each of
the eight slices reads STATE 3 of ROWPROG then, whatever it was doing. -/
def State.failMatrix (s : State) (cl : Nat) (e : EngineFault) : State :=
  match (s.cluster cl).matrixRunning with
  | none => s
  | some (slot, _) =>
    let ident := ((s.cluster cl).jobs.get slot).ident slot.val
    let s := (coresOfCluster cl).foldl (fun s c => s.modSlice c (fun sl => { sl with
      rowEnd := none, waiting := false, ready := none, startReq := none, state := 3
      stopReq := if sl.counted then some s.cycle else sl.stopReq
      buffers := sl.buffers.filter (fun b => decide (b.job ≠ ident) || b.handler || b.due.isSome) })) s
    (s.modCluster cl (fun k => { k.dropMatrixWaits with running := none })).endJob cl slot 3 (some e)

/-- The array reads the attributes of its operands and every slice raises a start request, in the core cycle given (07 R161); an operand
page that is awaited stalls it. -/
def State.raiseStarts (s : State) (cl : Nat) (op : MatrixOp) (at_ : Nat) : State :=
  let c0 := coreOfCluster cl 0
  match s.attrAt c0 op.abase with
  | (s, .error e) => if s.pends c0 e then s.waitPage cl e .operation else s.failMatrix cl e
  | (s, .ok fa) =>
    match s.attrAt c0 op.bbase with
    | (s, .error e) => if s.pends c0 e then s.waitPage cl e .operation else s.failMatrix cl e
    | (s, .ok fb) =>
      match op.mode fa fb with
      | .error c => s.failMatrix cl (c, BitVec.ofNat 64 op.bbase)
      | .ok t =>
        (coresOfCluster cl).foldl (fun s c => s.modSlice c (fun sl => { sl with startReq := some at_ }))
          (s.modCluster cl (fun k => { k with rowTime := t }))

/-- The slice belongs to an operation, none of whose rows it has computed (07 R168). -/
def Slice.taken (sl : Slice) (ident : BitVec 16) : Slice :=
  { sl with jobId := ident, drained := 0, rows := 0, state := 1, startReq := none, rowEnd := none, waiting := false, ready := none }

/-- The matrix array takes an operation (07 R154, R161). -/
def State.startMatrix (s : State) (cl : Nat) (slot : Fin 32) (op : MatrixOp) (at_ : Nat) : State :=
  let ident := ((s.cluster cl).jobs.get slot).ident slot.val
  ((coresOfCluster cl).foldl (fun s c => s.modSlice c (fun sl => sl.taken ident))
    (s.modCluster cl (fun k => { (k.charge (.matrix op)).modJob slot.val (fun x => { x with state := 1, held := false, started := at_ }) with
      running := some slot.val }))).raiseStarts cl op at_

/-- The engine of a cluster takes its next job, if one may start (07 R154). -/
def State.startJob (s : State) (cl : Nat) (e : Engine) : State :=
  let k := s.cluster cl
  match e with
  | .matrix =>
    if k.running.isSome then s
    else match s.nextJob cl true with
      | some (slot, .matrix op) =>
        -- An operation accepted at the end of the last core cycle, which the array could run in it, became the running job in that cycle (12 R263).
        s.startMatrix cl slot op (if (k.jobs.get slot).accepted = s.cycle && k.gangReady then s.cycle - 1 else s.cycle)
      | _ => s
  | .copy =>
    if k.copying.isSome then s
    else match s.nextJob cl false with
      | some (slot, .copy j) => s.startCopy cl slot j
      | _ => s

/-- Both engines take their next jobs: of two jobs that could take one term, the older is first (07 R173). -/
def State.startJobs (s : State) (cl : Nat) : State :=
  let rank (b : Bool) : Option Nat := (s.nextJob cl b).map (fun j => ((s.cluster cl).jobs.get j.1).rank)
  match rank true, rank false with
  | some m, some c => if c < m then (s.startJob cl .copy).startJob cl .matrix else (s.startJob cl .matrix).startJob cl .copy
  | _, _ => (s.startJob cl .matrix).startJob cl .copy

def execJobStart (cl : Nat) (e : Engine) (s : State) : Host.Outcome State Fault Refusal := .next (s.startJob cl e)

def execOperationFailure (cl : Nat) (e : Engine) (cause : Cause) (va : Word) (s : State) : Host.Outcome State Fault Refusal :=
  match e with
  | .matrix => .next (s.failMatrix cl (cause, va))
  | .copy =>
    match (s.cluster cl).copyRunning with
    | some (slot, _) => .next ((s.modCluster cl (fun k => { k with copying := none })).endJob cl slot 3 (some (cause, va)))
    | none => .next s

/-- The operation completes (07 R165). -/
def execMatrixOperationComplete (cl : Nat) (s : State) : Host.Outcome State Fault Refusal :=
  match (s.cluster cl).matrixRunning with
  | none => .next s
  | some (slot, _) =>
    .next ((coresOfCluster cl).foldl (fun s c => s.restSlice c) ((s.modCluster cl (fun k => { k with running := none })).endJob cl slot 2 none))

/-! ### Rows (07 R161, R163, R164; 12 R264) -/

/-- The stall of a row's operand reads that begin in this core cycle, of quarters of a weight store in their refresh windows (22 R405). -/
def State.rowStall (s : State) (core : Nat) (op : MatrixOp) (i : Nat) : Nat :=
  ((op.abase + i * op.astride) :: (List.range 64).map (fun j => op.bbase + j * op.bstride)).foldl (fun n a =>
    match s.storeCell core a with | some key => max n (refreshStall key s.cycle) | none => n) 0

/-- A slice begins its next row in this core cycle (07 R161): after a row time, and what its reads stall for, the row ends. -/
def State.beginRow (s : State) (core : Nat) : State :=
  let cl := clusterOf core
  let stall := match (s.cluster cl).matrixRunning with | some (_, op) => s.rowStall core op (8 * posOf core + (s.core core).slice.rows) | none => 0
  let t := (s.cluster cl).rowTime + stall
  (s.modSlice core (fun sl => { sl with rowEnd := some (s.cycle + t - 1) })).post (s.cycle + t) (.rowEnd cl (Fin.ofNat 8 (posOf core)))

/-- The latency of the row's write: that of the window that holds its address, or the network's. -/
def State.rowLat (s : State) (core addr : Nat) : Nat := s.windowLat core addr .write

/-- The row of a slice enters a free drain buffer (07 R163), at the end of the core cycle before this one. The stop request of a last row that had to wait
for it was raised as its row time ended (12 R264). -/
def State.enterRow (s : State) (core : Nat) (op : MatrixOp) (vals : List (BitVec 32)) : State :=
  let sl := (s.core core).slice
  let i := 8 * posOf core + sl.rows
  let addr := op.cbase + i * op.cstride
  let lat := s.rowLat core addr
  let row : DrainRow := { row := i, job := sl.jobId, addr := addr, outf := op.outf, vals := vals, age := s.cycle - 1, held := true
                          handler := false, due := if op.drain then none else some (s.cycle + lat + 1), paged := false }
  let last := decide (sl.rows + 1 = 8)
  let s := s.modSlice core (fun sl => { sl with
    rows := sl.rows + 1, buffers := sl.buffers ++ [row], waiting := false, ready := none, rowEnd := none
    stopReq := if last && sl.ready.isNone then some (s.cycle - 1) else sl.stopReq })
  let s := if last then s.restSlice core else s.beginRow core
  if op.drain then s else s.post (s.cycle + lat + 1) (.drainPathWrite (clusterOf core) (Fin.ofNat 8 (posOf core)))

/-- The row of a slice is computed from its start, over a row time (07 R166). -/
def State.restartRow (s : State) (core : Nat) : State := (s.modSlice core (fun sl => { sl with waiting := false })).beginRow core

/-- A drain buffer of the slice is free (07 R163). -/
def Slice.hasBuffer (sl : Slice) : Bool := decide ((sl.buffers.filter (·.held)).length < 2)

/-- The end of a slice's row: computed from memory, it enters a free buffer, or the slice stalls (07 R163); the stop request of its last row is raised in
the row time's last cycle (12 R264). -/
def State.endRow (s : State) (core : Nat) : State :=
  let cl := clusterOf core
  let sl := (s.core core).slice
  match (s.cluster cl).matrixRunning with
  | none => s
  | some (_, op) =>
    match s.computeRow core op (8 * posOf core + sl.rows) with
    | (s, .error e) =>
      if s.pends core e then (s.modSlice core (fun sl => { sl with waiting := true, rowEnd := none })).waitPage cl e (.row (posOf core))
      else s.failMatrix cl e
    | (s, .ok vals) =>
      if sl.hasBuffer then s.enterRow core op vals
      else s.modSlice core (fun sl => { sl with
        waiting := true, ready := some vals, rowEnd := none, stopReq := if sl.rows = 7 then some (s.cycle - 1) else sl.stopReq })

def execRowEnd (cl : Nat) (slice : Fin 8) (s : State) : Host.Outcome State Fault Refusal :=
  let core := coreOfCluster cl slice.val
  match (s.core core).slice.rowEnd with
  | some e => .next (if e + 1 ≤ s.cycle then s.endRow core else s)
  | none => .next s

/-- The oldest row whose write is due. -/
def Slice.dueRow (sl : Slice) (cycle : Nat) : Option DrainRow :=
  sl.buffers.foldl (fun best b =>
    match b.due with
    | some t => if t ≤ cycle && (match best with | some (c : DrainRow) => decide (t < c.due.getD 0) | none => true) then some b else best
    | none => best) none

/-- The write of a row to C (07 R163, R164): the row leaves the drain path and counts as drained. -/
def execDrainPathWrite (cl : Nat) (slice : Fin 8) (s : State) : Host.Outcome State Fault Refusal :=
  let core := coreOfCluster cl slice.val
  match (s.core core).slice.dueRow s.cycle with
  | none => .next s
  | some b =>
    match s.engineWrite core b.addr (rowOut b.outf b.vals) with
    | (s, some e) =>
      if s.pends core e then
        .next ((s.modSlice core (fun sl => { sl with
          buffers := sl.buffers.map (fun x => if x.row = b.row && x.job = b.job then { x with due := none, paged := true } else x) })).waitPage cl e (.write slice.val b.row))
      else
      let s := s.modSlice core (fun sl => sl.freeRow b.row b.job)
      .next (if (s.core core).slice.jobId = b.job then s.failMatrix cl e else s)
    | (s, none) => .next ((s.modSlice core (fun sl => sl.freeRow b.row b.job)).drained core b.job s.cycle)

/-- The 64 columns of v0 to v3 as FP32 patterns (07 R163). -/
def rowOfRegs (c : Ctx) : List (BitVec 32) :=
  (List.range 64).map (fun j => BitVec.ofNat 32 (lane 32 (c.v.get (Fin.ofNat 8 (j / 16))) (j % 16)))

/-- `mx.rowout` (07 R164): the row of v0 to v3 is on its way to C, and the buffer frees. -/
def execMxRowout (sw : Bool) (s : State) : Host.Outcome State Fault Refusal :=
  issue (Form.of (.mxRowout sw) sw [.v 0, .v 1, .v 2, .v 3] []) (fun _ s =>
    let w := s.who
    let home := (s.ctx w).origin
    match (s.ctx w).role with
    | .drainRow row job addr outf false =>
      let lat := s.rowLat home addr
      let b : DrainRow := { row := row, job := job, addr := addr, outf := outf, vals := rowOfRegs (s.ctx w), age := s.cycle, held := false
                            handler := true, due := some (s.cycle + lat + 1), paged := false }
      let s := s.modSlice home (fun sl => { sl.freeRow row job with buffers := (sl.freeRow row job).buffers ++ [b] })
      let s := s.modCtx w (fun c => { c with role := .drainRow row job addr outf true })
      .done (s.post (s.cycle + lat + 1) (.drainPathWrite (clusterOf home) (Fin.ofNat 8 (posOf home))))
    | _ => .trap s { cause := .illegal, val := wordOf (.mxRowout sw) }) s

/-- A slice whose row waits for a buffer goes on once one has freed (07 R163). -/
def State.unstall (s : State) (core : Nat) : State :=
  let sl := (s.core core).slice
  match sl.ready, (s.cluster (clusterOf core)).matrixRunning with
  | some vals, some (_, op) => if sl.waiting && sl.hasBuffer then s.enterRow core op vals else s
  | _, _ => s

/-! ### The current-slew limiter (01 R28 to R31) -/

/-- Starts and stops granted at most (01 R28). -/
def rampStarts (l : Nat) : Nat := if l < 16 then 4 else if l < 32 then 8 else 16
def rampStops (l : Nat) : Nat := if l < 8 then 2 else if l < 16 then 4 else if l < 32 then 8 else 16

/-- The requests of one kind at a boundary: the oldest first, ties to the lower slice number, at most n (01 R29). -/
def State.slewRequests (s : State) (g : Nat) (req : Slice → Option Nat) : List Nat :=
  let l := (coresOfGroup g).zipIdx.filterMap (fun (c, i) =>
    match req (s.core c).slice with
    | some r => if r < s.cycle && !(s.core c).down then some (r, i, c) else none
    | none => none)
  (l.mergeSort (fun a b => decide (a.1 < b.1) || (decide (a.1 = b.1) && decide (a.2.1 ≤ b.2.1)))).map (fun x => x.2.2)

/-- A granted slice begins its part of the operation (01 R29). -/
def State.sliceStart (s : State) (core : Nat) : State :=
  (s.modSlice core (fun sl => { sl with startWait := min 65535 (s.cycle - sl.startReq.getD s.cycle), startReq := none, state := 2 })).beginRow core

/-- A granted stop (01 R29). DESIGN CHOICE (notes/assumptions/110): FILLCYC (01 R32) counts every core cycle from the one after the stop request up to
the grant, those before the first step boundary included. -/
def State.sliceStop (s : State) (core : Nat) : State :=
  s.modSlice core (fun sl => { sl with fillCyc := min 255 (s.cycle - 1 - sl.stopReq.getD s.cycle), stopReq := none })

/-- One step of a group's limiter (01 R28, R29). DESIGN CHOICE (notes/assumptions/110): `the level at the most recent step boundary`, which LEVEL of
SLEWSTAT gives (01 R32), is the level after the boundary's grants. -/
def State.limiter (s : State) (g : Nat) : State :=
  let l := (s.group g).level
  let pass := (coresOfGroup g).filter (fun c =>
    let sl := (s.core c).slice
    (match sl.startReq with | some r => decide (r < s.cycle) | none => false)
      && (match sl.stopReq with | some r => decide (r < s.cycle) | none => false))
  let s := pass.foldl (fun s c => (s.modSlice c (fun sl => { sl with
    fillCyc := min 255 (s.cycle - 1 - sl.stopReq.getD s.cycle), stopReq := none })).sliceStart c) s
  let starts := (s.slewRequests g (·.startReq)).take (rampStarts l)
  let stops := (s.slewRequests g (·.stopReq)).take (rampStops l)
  let s := stops.foldl (fun s c => s.sliceStop c) (starts.foldl (fun s c => s.sliceStart c) s)
  s.modGroup g (fun k => { k with level := l + starts.length - stops.length })

def execLimiterStep (g : Nat) (s : State) : Host.Outcome State Fault Refusal := .next (s.limiter g)

/-- SLEWSTAT.STATE (01 R32): 0 idle, 1 waiting for a start, 2 computing, 3 filling. DESIGN CHOICE (notes/assumptions/110): a slice that fills
while a start request of its stands is both 1 and 3 in the manual's words, and reads 1. -/
def Slice.slewState (sl : Slice) : Nat :=
  if sl.startReq.isSome then 1 else if sl.stopReq.isSome || (sl.waiting && sl.counted) then 3 else if sl.rowEnd.isSome then 2 else 0

end Sys2Proof.Machine
end

