-- ==== Sys2Proof/Machine/Records.lean ====
section
/-! DEFINITION. The context record (20 R365), which a swap-out writes and a save image holds. -/

namespace Sys2Proof.Machine

/-- Areas of bytes at ascending offsets, zeros between them and behind them up to a size. -/
def laidOut (size : Nat) (areas : List (Nat × List Byte)) : List Byte :=
  let bs := areas.foldl (fun (acc : List Byte) a => acc ++ List.replicate (a.1 - acc.length) 0 ++ a.2) []
  bs ++ List.replicate (size - bs.length) 0

def le8 (l : List Nat) : List Byte := l.flatMap (leBytes 8)
def le4 (l : List Nat) : List Byte := l.flatMap (leBytes 4)

/-- The park of a record, and what belongs to it. -/
def Ctx.parkFields (c : Ctx) (swapped : Bool) : Nat × Nat :=
  match c.park with
  | .barrier p _ => (1, p.toNat)
  | .wired t _ => (2, t.val)
  | .watch va _ _ _ _ _ _ _ => (3, va.toNat)
  | .joining va _ _ => (4, va.toNat)
  | _ => (if swapped then 5 else 0, 0)

/-- A context record; CORE of CTXSTAT is berth-relative. -/
def ctxRecord (c : Ctx) (w : CtxId) (monitor swapped : Bool) (gang : Gang) : List Byte :=
  let hint (h : Option (BitVec 23)) (sw : Bool) : Nat := match h with | some d => d.toNat + bitIf sw 23 | none => 0
  let h := c.hints
  laidOut 1024 [
    (0, le8 ((List.finRange 32).map (fun r => (c.getX r).toNat))), (0x100, (List.finRange 8).flatMap (fun r => leBytes 64 (c.getV r).toNat)),
    (0x300, le4 ((List.finRange 4).map (fun r => (c.getM r).toNat))),
    (0x310, le8 [c.pc.toNat, (ctxstat w monitor c).toNat, bitIf c.trapHints 8 + c.trapCause.toNat, c.trapPc.toNat, c.trapVal.toNat, c.trapVec.toNat,
      if h.pending then h.first.toNat else 0,
      bitIf h.imm.isSome 0 + bitIf h.imx.isSome 1 + bitIf h.mod.isSome 2 + bitIf h.reg.isSome 3 + bitIf c.live 8 + bitIf c.registered 9]),
    (0x350, le4 [hint h.imm false, hint h.imx false, hint h.mod h.modSw, hint h.reg h.regSw]),
    (0x360, le8 [(c.parkFields swapped).1, (c.parkFields swapped).2,
      match c.role with | .drainRow row _ _ _ out => 1 + bitIf out 1 + row % 64 * 2 ^ 16 | _ => 0,
      if gang.active && decide (gang.ctx = w.ctx) then
        gang.mask.toNat + gang.leader.val * 2 ^ 8 + bitIf gang.attached 11 + (match gang.rendezvous with | some r => r.toNat * 2 ^ 12 | none => 0)
      else 0])]

end Sys2Proof.Machine
end

