-- ==== Sys2Proof/Machine/Stages.lean ====
section
/-! DEFINITION. The stage router: sr (09 R214 to R221) and its draws and deliveries (16 R333 to R337). -/

namespace Sys2Proof.Machine

/-! ### The fields of a record header (09 R215) -/

def headerSet (h : Word) : Fin 4 := Fin.ofNat 4 (h.toNat / 2 ^ 62)
def headerDone (h : Word) (i : Nat) : Bool := h.getLsbD (54 + i)
def headerRej (h : Word) : Bool := h.getLsbD 53
def headerFault (h : Word) : Bool := h.getLsbD 52
def headerCur (h : Word) : Nat := bits h.toNat 50 48
def setCur (h : Word) (i : Nat) : Word := (h &&& ~~~(7#64 <<< 48)) ||| (BitVec.ofNat 64 i <<< 48)

def Cluster.setSet (k : Cluster) (i : Fin 4) (g : StageSet) : Cluster := { k with sets := k.sets.set i.val g i.isLt }
/-- Records of a set in flight. -/
def Cluster.inSet (k : Cluster) (i : Fin 4) : Nat := (k.records.filter (fun r => decide (headerSet r.2.header = i))).length

/-! ### sr.def (09 R216) -/

/-- The check of one doubleword of a set card. -/
def setCardCheck (s : State) (core : Nat) (i d : Nat) : Option Cause :=
  match i with
  | 0 => refuse (decide (bits d 63 12 ≠ 0) || decide (bits d 7 6 ≠ 0)) (decide (bits d 11 8 < 4) || decide (bits d 3 0 = 0) || decide (8 < bits d 3 0))
  | 1 => refuse (decide (bits d 63 48 ≠ 0)) false
  | _ => refuse (decide (bits d 63 53 ≠ 0)) (decide (bits d 49 48 = 3) || !s.inBerth core (coreOfCluster (clusterOf core) (bits d 52 50)))

/-- A stage as it is defined: every filter and transform has weight 256 (16 R336). -/
def stageOf (d : Word) : Stage :=
  let cls := bits d.toNat 49 48
  { entry := BitVec.ofNat 64 (bits d.toNat 47 0), cls := cls, pos := bits d.toNat 52 50, weight := if cls = 2 then 0 else 256, passed := 0, rejects := 0
    passedNow := 0, rejectsNow := 0 }

/-- Defines a set from the doublewords of its card. -/
def Cluster.defineSet (k : Cluster) (ds : List Word) : Cluster :=
  let h := (ds.headD 0).toNat
  k.setSet (Fin.ofNat 4 (bits h 5 4)) { defined := true, wexp := bits h 11 8, exit := BitVec.ofNat 64 (bits (ds.getD 1 0).toNat 47 0)
                                        stages := (ds.drop 2).map stageOf, left := 0, windowLeft := 0 }

/-- How many doublewords of a card there are to read, by its first. -/
def setCardLength (d : Nat) : Nat := if 1 ≤ bits d 3 0 ∧ bits d 3 0 ≤ 8 then bits d 3 0 + 2 else 1

def execSrDef (sw : Bool) (a : XReg) (s : State) : Host.Outcome State Fault Refusal :=
  issue { Form.of (.srDef sw a) sw [.x a] [] with inTask := false } (fun l s =>
    let n := setCardLength (s.peek (spadCell s.who.core ((op0 l).toNat % 2 ^ 17)) 8)
    cardBody 8 n (op0 l) s (fun s from_ => .park s (.srDef (op0 l) from_ [] sw))) s

/-- A definition from the doublewords of a card: the cluster's set is replaced, or the trap (09 R216). -/
def State.defineStages (s : State) (w : CtxId) (va : Word) (ds : List Word) : State × Option Trap :=
  match dwFault va (setCardCheck s w.core) ds with
  | some e => (s, some e)
  | none =>
    let k := s.cluster (clusterOf w.core)
    if k.inSet (Fin.ofNat 4 (bits (ds.headD 0).toNat 5 4)) ≠ 0 then (s, some { cause := .illegal, val := va })
    else (s.setCluster (clusterOf w.core) (k.defineSet ds), none)

/-- The card is read, as long as its first doubleword says, and then defines its set. -/
def State.pollSrDef (s : State) (w : CtxId) : State :=
  match (s.ctx w).park with
  | .srDef va t got sw =>
    let n (l : List Word) : Nat := match l with | hd :: _ => setCardLength hd.toNat | [] => 1
    match s.readCard w va (n got) t got with
    | (s, .error e) => s.raise w e
    | (s, .ok ds) =>
      if !inOwn va.toNat (8 * n ds) then s.raise w { cause := .protection, val := va }
      else if ds.length < n ds then s.modCtx w (fun c => { c with park := .srDef va t ds sw })
      else match s.defineStages w va ds with
        | (s, some e) => s.raise w e
        | (s, none) => s.finishPark w sw s.cycle
  | _ => s

/-! ### sr.put, done, rej, stat, drain -/

def execSrPut (sw : Bool) (d a b : XReg) (s : State) : Host.Outcome State Fault Refusal :=
  issue { Form.of (.srPut sw d a b) sw [.x a, .x b] [.x d] with inTask := false } (fun l s =>
    let w := s.who
    let h := op0 l
    let k := s.cluster (clusterOf w.core)
    if bits h.toNat 61 48 ≠ 0 || !(k.sets.get (headerSet h)).defined then .trap s { cause := .illegal, val := h }
    else match (List.range 256).find? (fun n => (kget n k.records).isNone) with
      | none => .done (s.laterX w 4 .unit d 0)
      | some n =>
        let r : Record := { header := h, payload := op1 l, injector := w.core, draw := some s.cycle, queued := none, delivering := false }
        .done ((s.modCluster (clusterOf w.core) (fun k => { k with records := kset n r k.records })).laterX w 4 .unit d 1)) s

/-- The next effect of a set after a header's DONE bits, or the exit, which stands as stage 8 (09 R218). -/
def StageSet.effectOrExit (g : StageSet) (h : Word) : Nat :=
  match g.stages.zipIdx.find? (fun (t, i) => decide (t.cls = 2) && !headerDone h i) with | some (_, i) => i | none => 8

/-- Counts a delivery of a stage that ended with `sr.done` or `sr.rej` (16 R336). -/
def StageSet.counted (g : StageSet) (i : Nat) (rej : Bool) : StageSet :=
  { g with stages := g.stages.zipIdx.map (fun (t, j) =>
      if j = i then { t with passedNow := if rej then t.passedNow else t.passedNow + 1, rejectsNow := if rej then t.rejectsNow + 1 else t.rejectsNow } else t) }

/-- The end of a delivery (09 R219): DONE or REJ, and where the record goes next. What is decided in cycle d is a pending start from
d + 1 (18 R344). -/
def Cluster.endStage (k : Cluster) (n : Nat) (rej : Bool) (cycle : Nat) : Cluster :=
  match kget n k.records with
  | none => k
  | some r =>
    let cur := headerCur r.header
    let i := headerSet r.header
    let g := (k.sets.get i).counted cur rej
    let h := r.header ||| (if rej then 1#64 <<< 53 else 1#64 <<< (54 + cur))
    let effect := match g.stages[cur]? with | some t => decide (t.cls = 2) | none => false
    let r := { r with header := h, delivering := false }
    let r := if rej then { r with queued := some (8, cycle + 2) }
             else if effect then { r with queued := some (g.effectOrExit h, cycle + 2) }
             else { r with draw := some cycle }
    { k.setSet i g with records := kset n r k.records }

/-- Both forms: the checks of 09 R219. -/
def stageEnd (i : Instr) (sw : Bool) (a : XReg) (rej : Bool) (s : State) : Host.Outcome State Fault Refusal :=
  issue { Form.of i sw [.x a] [] with inTask := false } (fun l s =>
    let w := s.who
    let c := s.ctx w
    match c.role with
    | .stage n header false =>
      let k := s.cluster (clusterOf c.origin)
      let filter := match (k.sets.get (headerSet header)).stages[headerCur header]? with | some t => decide (t.cls = 0) | none => false
      if op0 l ≠ header || (rej && !filter) then .trap s { cause := .illegal, val := op0 l }
      else
        .done ((s.setCluster (clusterOf c.origin) (k.endStage n rej s.cycle)).modCtx w (fun c => { c with role := .stage n header true }))
    | _ => .trap s { cause := .illegal, val := op0 l }) s

def execSrDone (sw : Bool) (a : XReg) (s : State) : Host.Outcome State Fault Refusal := stageEnd (.srDone sw a) sw a false s
def execSrRej (sw : Bool) (a : XReg) (s : State) : Host.Outcome State Fault Refusal := stageEnd (.srRej sw a) sw a true s

def execSrStat (sw : Bool) (d a : XReg) (s : State) : Host.Outcome State Fault Refusal :=
  issue (Form.of (.srStat sw d a) sw [.x a] [.x d]) (fun l s =>
    let k := s.cluster (clusterOf s.who.core)
    let i : Fin 4 := Fin.ofNat 4 (op0 l).toNat
    let st := bits (op0 l).toNat 4 2
    let g := k.sets.get i
    if bits (op0 l).toNat 63 5 ≠ 0 || !g.defined then .trap s { cause := .illegal, val := op0 l }
    else match g.stages[st]? with
      | none => .trap s { cause := .illegal, val := op0 l }
      | some t =>
        .done (s.laterX s.who 4 .unit d (BitVec.ofNat 64 (min 65535 t.weight * 2 ^ 48 + min 65535 t.rejects * 2 ^ 32
          + min 65535 (k.qdepthAt i.val st s.cycle) * 2 ^ 16 + min 65535 t.passed)))) s

def execSrDrain (sw : Bool) (d a : XReg) (s : State) : Host.Outcome State Fault Refusal :=
  issue { Form.of (.srDrain sw d a) sw [.x a] [.x d] with inTask := false } (fun l s =>
    let i : Fin 4 := Fin.ofNat 4 (op0 l).toNat
    if !((s.cluster (clusterOf s.who.core)).sets.get i).defined then .trap s { cause := .illegal, val := op0 l }
    else .park (s.reserveX s.who d) (.srDrain i d sw)) s

def State.pollDrain (s : State) (w : CtxId) : State :=
  match (s.ctx w).park with
  | .srDrain i d sw =>
    let k := s.cluster (clusterOf w.core)
    if k.inSet i = 0 then s.completeX w d (BitVec.ofNat 64 (k.sets.get i).left) sw s.cycle else s
  | _ => s

/-! ### Draws (16 R334, R335) -/

/-- A step of the LFSR (16 R335). -/
def lfsrStep (v : BitVec 32) : BitVec 32 := if v.getLsbD 0 then (v >>> 1) ^^^ 0x80200003#32 else v >>> 1

/-- The candidates of a draw: the filters and transforms not done, with their weights. -/
def StageSet.candidates (g : StageSet) (h : Word) : List (Nat × Nat) :=
  g.stages.zipIdx.filterMap (fun (t, i) => if t.cls ≠ 2 && !headerDone h i then some (i, t.weight) else none)

/-- The first stage whose running sum of weights exceeds the ticket. -/
def walkTicket (ticket : Nat) : List (Nat × Nat) → Nat → Nat
  | [], _ => 8
  | [(i, _)], _ => i
  | (i, w) :: rest, sum => if ticket < sum + w then i else walkTicket ticket rest (sum + w)

/-- The stage that a draw chooses, and the LFSR after it. -/
def StageSet.draw (g : StageSet) (h : Word) (lfsr : BitVec 32) : Nat × BitVec 32 :=
  match g.candidates h with
  | [] => (g.effectOrExit h, lfsr)
  | [(i, _)] => (i, lfsr)
  | cs =>
    let v := lfsrStep lfsr
    (walkTicket (v.toNat * (cs.map (·.2)).sum / 2 ^ 32) cs 0, v)

/-- The record whose draw comes first: since when it needs one, set, RID. -/
def Cluster.nextDraw (k : Cluster) (cycle : Nat) : Option (Nat × Record) :=
  let rank (r : Record) : List Nat := [r.draw.getD 0, r.header.toNat / 2 ^ 62, bits r.header.toNat 47 0]
  k.records.foldl (fun best e =>
    match e.2.draw with
    | some c =>
      if c < cycle && (match best with | some (b : Nat × Record) => decide (rank e.2 < rank b.2) | none => true) then some e else best
    | none => best) none

/-- One draw of a cluster's router in a core cycle (16 R334). -/
def Cluster.drawOne (k : Cluster) (cycle : Nat) : Cluster :=
  match k.nextDraw cycle with
  | none => k
  | some (n, r) =>
    let (st, v) := (k.sets.get (headerSet r.header)).draw r.header k.lfsr
    { k with lfsr := v, records := kset n { r with draw := none, queued := some (st, cycle + 1) } k.records }

def execStageDraw (cl : Nat) (s : State) : Host.Outcome State Fault Refusal := .next (s.modCluster cl (fun k => k.drawOne s.cycle))

/-! ### Deliveries (09 R218) -/

/-- The core on which a queued record's delivery starts. -/
def Cluster.deliveryCore (k : Cluster) (cl : Nat) (r : Record) (st : Nat) : Nat :=
  match (k.sets.get (headerSet r.header)).stages[st]? with
  | some t => coreOfCluster cl t.pos
  | none => r.injector

/-- The delivery that a core's selector would take: age, stage, record number. -/
def State.nextDelivery (s : State) (core : Nat) : Option (Nat × Nat × Nat) :=
  let cl := clusterOf core
  let k := s.cluster cl
  (k.records.foldl (fun (best : Option (List Nat × Nat)) e =>
    match e.2.queued with
    | some (st, age) =>
      let rank := [age, st, e.2.header.toNat / 2 ^ 62, bits e.2.header.toNat 47 0]
      if age ≤ s.cycle && k.deliveryCore cl e.2 st = core && (match best with | some b => decide (rank < b.1) | none => true) then some (rank, e.1) else best
    | none => best) none).map (fun b => (b.1.headD 0, b.1.tail.headD 0, b.2))

/-- Starts a delivery in a slot: CUR is set, x10 the header, x11 the payload address. The exit keeps CUR (notes/assumptions/48). -/
def State.startDelivery (s : State) (w : CtxId) (n : Nat) : State :=
  let cl := clusterOf w.core
  let k := s.cluster cl
  match kget n k.records with
  | none => s
  | some r =>
    let st := match r.queued with | some (st, _) => st | none => 8
    let g := k.sets.get (headerSet r.header)
    let h := if st < 8 then setCur r.header st else r.header
    let entry := match g.stages[st]? with | some t => t.entry | none => g.exit
    let s := s.setCluster cl { k with records := kset n { r with header := h, queued := none, delivering := true } k.records }
    s.startIn w (s.entryState w.core entry h r.payload 8 (if st < 8 then .stage n h false else .exit n) (s.cycle + 1))

end Sys2Proof.Machine
end

