-- ==== Sys2Proof/Machine/Selector.lean ====
section
/-! DEFINITION. The start selector and the task dispatcher (13 R266 to R270, R275), swap-out and restore (13 R272, R273; 08 R183), and
stealing (13 R271). -/

namespace Sys2Proof.Machine

/-! ### Pending starts (13 R266) -/

/-- A pending start, by what takes it up. -/
inductive Pending where
  | drain (row : Nat) (job : BitVec 16)
  | ring (i : Fin 8)
  | arrival (i : Nat)
  | task (key : Nat)
  | delivery (record : Nat)
  | tile (entry : Fin 16)
  | deque
  | stolen
  | resume (i : Nat)
  deriving DecidableEq, Repr

/-- The class at which a swapped-out context resumes (13 R273). -/
def resumeClass (src : BitVec 4) : Nat :=
  match src.toNat with | 5 => 1 | 3 | 9 => 2 | 6 => 3 | 7 => 4 | 8 => 5 | 4 => 6 | _ => 7

/-- Which tasks of a core's die it may run (13 R267). -/
def State.mayRun (s : State) (core : Nat) (key : Nat) (t : OTask) : Bool :=
  decide (key / 512 = (s.core core).lid) && decide (t.state = 0) && (t.crossing.isNone || decide (t.cluster = clusterOf core))

/-- The waiting task of a class with the least (TS, KEY) that a core may run (13 R267). -/
def State.waitingTask (s : State) (core : Nat) (crossing : Bool) : Option (Nat × OTask) :=
  (s.die (dieOf core)).tasks.foldl (fun best e =>
    if s.mayRun core e.1 e.2 && e.2.crossing.isSome == crossing
        && (match best with | some (b : Nat × OTask) => tsLess e.2.order b.2.order | none => true) then some e else best) none

/-- The pending starts of a core with their ranks: class, age, and what decides equal ages (13 R268, R275). -/
def State.pending (s : State) (core : Nat) : List (List Nat × Pending) :=
  let k := s.core core
  let drains := k.slice.buffers.filterMap (fun b =>
    if b.held && !b.handler && b.due.isNone && !b.paged then some ([1, b.age, 0, b.row], Pending.drain b.row b.job) else none)
  let rings := (List.finRange 8).filterMap (fun i =>
    let r := k.rings.get i
    match r.readyAge with
    | some a => if !r.running && decide (0 < r.used) && !bitGet k.hold i then some ([2, a, 0, (i.val + 7 - k.ringLast) % 8], Pending.ring i) else none
    | none => none)
  let arrivals := (k.arrivals.zipIdx.filterMap (fun (m, i) =>
    match m.arrived with | some a => some ([2, a, 1, i], Pending.arrival i) | none => none)).take 4
  let task (crossing : Bool) (cls : Nat) := match s.waitingTask core crossing with
    | some (key, t) => [([cls, t.age, 0, 0], Pending.task key)]
    | none => []
  let delivery := match s.nextDelivery core with
    | some (age, st, n) => [([5, age, 0, st], Pending.delivery n)]
    | none => []
  let tiles := (List.finRange 16).filterMap (fun i =>
    match (k.tileReady.get i).fired with | (age, _, _) :: _ => if age < s.cycle then some ([6, age, 0, i.val], Pending.tile i) else none | [] => none)
  let deque := match k.deque.getLast? with
    | some t => if t.pushed < s.cycle then [([7, t.pushed, 0, 0], Pending.deque)] else []
    | none => []
  let stolen := match k.stolen with | t :: _ => [([7, t.pushed, 0, 1], Pending.stolen)] | [] => []
  let resumes := if k.mover = .idle then
      k.swapped.zipIdx.filterMap (fun (x, i) => match x.resume with
        | some a => if a < s.cycle then some ([resumeClass x.ctx.src, a, 2, x.slot.val], Pending.resume i) else none
        | none => none)
    else []
  drains ++ rings ++ arrivals ++ task false 3 ++ task true 4 ++ delivery ++ tiles ++ deque ++ stolen ++ resumes

/-- The free slot that a pending start would take (13 R268, R269). -/
def State.slotFor (s : State) (core : Nat) (p : Pending) : Option CtxNo :=
  match p with | .drain .. => s.freeDrainSlot core | _ => s.freeSlot core

/-- The candidate of the lowest rank. -/
def firstPending (l : List (List Nat × Pending)) : Option Pending :=
  (l.foldl (fun (best : Option (List Nat × Pending)) p =>
    match best with | some b => if p.1 < b.1 then some p else best | none => some p) none).map (·.2)

/-! ### Taking a start -/

/-- The address of the oldest message of a ring (13 R275). -/
def State.oldestMessage (s : State) (core : Nat) (r : Ring) : Ring × Word :=
  let r := s.skipPads core r 2
  (r, BitVec.ofNat 64 (r.base + r.tail))

/-- The row's values as v0 to v3 (07 R163). -/
def rowVec (vals : List (BitVec 32)) (j : Nat) : Vec :=
  (List.range 16).foldl (fun (v : Vec) i => v ||| ((vals.getD (16 * j + i) 0).setWidth 512 <<< (32 * i))) 0

/-- The handler entry of a slice's operation. -/
def State.drainEntry (s : State) (core : Nat) (job : BitVec 16) : Word :=
  match ((s.cluster (clusterOf core)).jobs.get (Fin.ofNat 32 (job.toNat % 32))).job with | some (.matrix op) => op.handler | _ => 0

/-- A drained row's handler starts (07 R163). -/
def State.startDrain (s : State) (w : CtxId) (row : Nat) (job : BitVec 16) : State :=
  match (s.core w.core).slice.buffers.find? (fun b => decide (b.row = row) && decide (b.job = job)) with
  | none => s
  | some b =>
    let s := s.modCore w.core (fun k => { k with slice := { k.slice with
      buffers := k.slice.buffers.map (fun x => if x = b then { x with handler := true } else x) } })
    let c := s.entryState w.core (s.drainEntry w.core job) (BitVec.ofNat 64 row) (job.setWidth 64) 5 (.drainRow row job b.addr b.outf false) (s.cycle + 1)
    s.startIn w ((((c.setV 0 (rowVec b.vals 0)).setV 1 (rowVec b.vals 1)).setV 2 (rowVec b.vals 2)).setV 3 (rowVec b.vals 3))

/-- A swapped-out context is restored into a slot: its record is read in this core cycle and the 31 after it, and a new window opens (13 R273). One
whose record's overflow lines do not translate is killed (14 R292). -/
def State.restoreSwapped (s : State) (w : CtxId) (i : Nat) : State :=
  match (s.core w.core).swapped[i]? with
  | none => s
  | some x =>
    let (s, ok) := s.spillAccess w.core .read x.space.far
    let s := s.modCore w.core (fun k => { (k.freeSpill x.space) with swapped := k.swapped.eraseIdx i, mover := .back w.ctx (s.cycle + 32) })
    let s := s.setCtx w { x.ctx with
      readyAt := s.cycle + 32, outstanding := x.ctx.outstanding.map (fun o => { o with past := true })
      park := if x.ctx.outstanding.isEmpty && decide (x.ctx.park = .marker) then .none else x.ctx.park }
    if !ok then (s.modCore w.core (fun k => { k with mover := .idle })).endCtx w true else
    let s := match x.ctx.park with | .trap _ => s | _ => s.returnCredits w
    match x.ctx.role with
    | .task key => s.modDie (dieOf w.core) (fun d => d.modTask key (fun t => { t with running := some w }))
    | _ => s

/-- A taken start begins in its slot (13 R268). -/
def State.takeStart (s : State) (w : CtxId) (p : Pending) : State :=
  let k := s.core w.core
  let plain (s : State) (entry a b : Word) (src : BitVec 4) : State := s.startIn w (s.entryState w.core entry a b src .plain (s.cycle + 1))
  match p with
  | .drain row job => s.startDrain w row job
  | .ring i =>
    let (r, addr) := s.oldestMessage w.core (k.rings.get i)
    let s := s.setCore w.core { (k.setRing i { r with running := true, readyAge := none }) with ringLast := i.val }
    s.startIn w (s.entryState w.core r.handler (BitVec.ofNat 64 i.val) addr 3 (.ring i) (s.cycle + 1))
  | .arrival i =>
    match k.arrivals[i]? with
    | some m => (s.setCore w.core { k with arrivals := k.arrivals.eraseIdx i }).settle w m
    | none => s
  | .task key =>
    match kget key (s.die (dieOf w.core)).tasks with
    | some t => if t.crossing.isSome then s.startCrossing w key t else s.startTask w key t
    | none => s
  | .delivery n => s.startDelivery w n
  | .tile i =>
    let e := k.tileReady.get i
    match e.fired with
    | (_, entry, arg) :: rest =>
      plain (s.setCore w.core { k with tileReady := k.tileReady.set i.val { e with fired := rest } i.isLt }) entry arg (BitVec.ofNat 64 i.val) 4
    | [] => s
  | .deque =>
    match k.deque.getLast? with
    | some t => plain (s.setCore w.core { k with deque := k.deque.dropLast }) t.entry t.arg0 t.arg1 2
    | none => s
  | .stolen =>
    match k.stolen with
    | t :: rest => plain (s.setCore w.core { k with stolen := rest }) t.entry t.arg0 t.arg1 2
    | [] => s
  | .resume i => s.restoreSwapped w i

/-- The selector of a core takes at most one pending start in a core cycle (13 R268). -/
def State.select (s : State) (core : Nat) : State :=
  match firstPending ((s.pending core).filter (fun p => (s.slotFor core p.2).isSome)) with
  | none => s
  | some p => match s.slotFor core p with | some c => s.takeStart { core := core, ctx := c } p | none => s

def execStartSelector (core : Nat) (s : State) : Host.Outcome State Fault Refusal := .next (s.select core)

/-- The dispatcher of a die answers its cores in ascending order (13 R267): those whose selector would take an ordered task. -/
def execTaskDispatch (die : Nat) (s : State) : Host.Outcome State Fault Refusal :=
  .next (((s.cores.map (·.1)).filter (fun c => decide (dieOf c = die))).foldl (fun s core =>
    match firstPending ((s.pending core).filter (fun p => (s.slotFor core p.2).isSome)) with
    | some (.task _) => s.select core
    | _ => s) s)

def execResumeRestore (core : Nat) (s : State) : Host.Outcome State Fault Refusal :=
  match firstPending ((s.pending core).filter (fun p => (s.slotFor core p.2).isSome)) with
  | some (.resume _) => .next (s.select core)
  | _ => .next s

/-! ### Swap-out (13 R272) -/

/-- A start, or a resume whose wait is satisfied, that no free slot could take. -/
def State.starved (s : State) (core : Nat) : List Pending :=
  ((s.pending core).filter (fun p => (s.slotFor core p.2).isNone)).map (·.2)

/-- The helper in a slot may be swapped out (13 R272). -/
def State.swappable (s : State) (w : CtxId) : Bool :=
  let c := s.ctx w
  let k := s.core w.core
  decide (w.ctx ≠ 0) && c.live && k.mover.clear w.ctx && decide (c.readyAt ≤ s.cycle) && !k.inGang w
    && (match c.park with | .watch .. | .joining .. | .yielding _ => true | _ => false)

/-- The helper that is swapped out: the one parked longest, in a slot that a starved start could take. -/
def State.victim (s : State) (core : Nat) : Option CtxNo :=
  let starved := s.starved core
  let reserved := s.slotReserved core
  let could (c : CtxNo) : Bool := starved.any (fun p => match p with | .drain .. => true | _ => openSlot reserved c)
  ((List.finRange 11).foldl (fun (best : Option (Nat × CtxNo)) c =>
    let w : CtxId := { core := core, ctx := c }
    if could c && s.swappable w && (match best with | some b => decide ((s.ctx w).parkedAt < b.1) | none => true) then some ((s.ctx w).parkedAt, c)
    else best) none).map (·.2)

/-- A helper leaves its slot for a context record: the write takes this core cycle and the 31 after it. Results on their way are in the record,
answers not yet known come to it, and its accesses stay its own. -/
def State.swapOut (s : State) (w : CtxId) : State :=
  match s.takeSpill w.core 1024 with
  | (s, none) => s.endCtx w true
  | (s, some sp) =>
    let (s, results) := s.takeResults w
    let s := s.hurry w
    let c : Ctx := results.foldl (fun c r => c.land r.2) (s.ctx w)
    let (c, resume) := match c.park with
      | .yielding sw => (c.retire s.cycle sw (seqNext c.pc) false, some s.cycle)
      | _ => (c, none)
    let x : Swapped := { ctx := c, slot := w.ctx, resume := resume, space := sp }
    let s := s.fillSpill w.core sp (ctxRecord c w (decide ((s.core w.core).mode = .monitor)) true Gang.reset)
    s.modCore w.core (fun k => { k with
      swapped := k.swapped ++ [x], mover := .out w.ctx (s.cycle + 32)
      ctxs := k.ctxs.set w.ctx.val { Ctx.reset with readyAt := s.cycle + 32 } w.ctx.isLt })

/-- A core swaps one helper out when a start cannot be taken for want of a slot (13 R272). -/
def State.swapStep (s : State) (core : Nat) : State :=
  if (s.core core).mover = .idle && decide (1024 ≤ (s.core core).spillRoom) then
    match s.victim core with
    | some c => s.swapOut { core := core, ctx := c }
    | none => s
  else s

def execSwapOut (core : Nat) (s : State) : Host.Outcome State Fault Refusal := .next (s.swapStep core)

/-- The end of a swap-out or a restore. A context restored with a trap pending takes it. -/
def State.moverEnd (s : State) (core : Nat) : State :=
  match (s.core core).mover with
  | .idle => s
  | .out _ e => if e ≤ s.cycle then s.modCore core (fun k => { k with mover := .idle }) else s
  | .back c e => if e ≤ s.cycle then ((s.modCore core (fun k => { k with mover := .idle })).takeTrap { core := core, ctx := c }).resultsHome { core := core, ctx := c } else s

def execSwapOutComplete (core : Nat) (s : State) : Host.Outcome State Fault Refusal := .next (s.moverEnd core)

/-- Pending starts that no free slot could take; a resume is none (08 R183, 13 R272). -/
def State.startsWait (s : State) (core : Nat) : Bool := (s.starved core).any (fun p => match p with | .resume _ => false | _ => true)

/-- `work.yield` (08 R183): a helper gives up its slot while a start waits for one; otherwise only the issue slot is used. -/
def execWorkYield (sw : Bool) (s : State) : Host.Outcome State Fault Refusal :=
  issue (Form.of (.workYield sw) sw [] []) (fun _ s =>
    let w := s.who
    let k := s.core w.core
    if decide (w.ctx ≠ 0) && !k.inGang w && s.startsWait w.core && decide (1024 ≤ k.spillRoom) then
      .park s (.yielding sw)
    else .done s) s

/-- A yield whose reason has gone goes on. -/
def State.pollYield (s : State) (w : CtxId) : State :=
  match (s.ctx w).park with
  | .yielding sw => if !s.startsWait w.core then s.finishPark w sw s.cycle else s
  | _ => s

/-! ### Stealing (13 R271) -/

/-- The level of a victim: cluster, group, die, module. -/
def stealLevel (core victim : Nat) : Nat :=
  if clusterOf core = clusterOf victim then 0 else if groupOf core = groupOf victim then 1 else if dieOf core = dieOf victim then 2 else 3

/-- The next victim of a scan at its level: ascending, beginning after the last one tried there, wrapping. -/
def Steal.nextVictim (t : Steal) (core : Nat) (b : Berth) : Option Nat :=
  let l := b.cores.filter (fun c => decide (c ≠ core) && decide (stealLevel core c = t.level) && !t.tried.contains c)
  let last := t.last.getD t.level 0
  match l.find? (fun c => decide (last < c)) with | some c => some c | none => l.head?

/-- The next victim of a scan, level by level within reach; none once every one has been tried. `fuel` bounds the levels. -/
def Steal.next (t : Steal) (core : Nat) (b : Berth) (reach : Nat) : Nat → Steal × Option Nat
  | 0 => (t, none)
  | fuel + 1 =>
    if reach < t.level then (t, none)
    else match t.nextVictim core b with
      | some v => (t, some v)
      | none => Steal.next { t with level := t.level + 1, tried := [] } core b reach fuel

/-- A scan has failed: the next one begins 64 core cycles later (13 R271). -/
def Steal.failed (t : Steal) (cycle : Nat) : Steal := { t with attempt := none, backoff := some (cycle + 64), level := 0, tried := [] }

/-- One attempt begins: a request to one victim, whose answer comes after twice the latency (13 R271). -/
def State.stealTry (s : State) (core : Nat) (b : Berth) (reach : Nat) : State :=
  match (s.core core).steal.next core b reach 5 with
  | (t, none) => s.modCore core (fun k => { k with steal := t.failed s.cycle })
  | (t, some v) =>
    let one := s.linkDelay core v
    (s.modCore core (fun k => { k with steal := { t with
      attempt := some { victim := v, there := s.cycle + one, back := s.cycle + 2 * one, got := none }
      tried := t.tried ++ [v], last := t.last.set t.level v } })).drew

/-- A core begins an attempt when it may steal (13 R271). -/
def State.stealStep (s : State) (core : Nat) : State :=
  let k := s.core core
  match s.launchOf core with
  | some { berth := some b, desc := some d, state := .running, .. } =>
    if k.steal.attempt.isNone && k.steal.backoff.isNone && k.deque.isEmpty && (s.freeSlot core).isSome && (s.pending core).isEmpty then
      s.stealTry core b d.steal
    else s
  | _ => s

def execStealAttempt (core : Nat) (s : State) : Host.Outcome State Fault Refusal := .next (s.stealStep core)

/-- The wait after a scan that found nothing is over (13 R271). -/
def State.backoffEnd (s : State) (core : Nat) : State :=
  match (s.core core).steal.backoff with
  | some t => if t ≤ s.cycle then s.modCore core (fun k => { k with steal := { k.steal with backoff := none } }) else s
  | none => s

def execStealBackoffExpiry (core : Nat) (s : State) : Host.Outcome State Fault Refusal := .next (s.backoffEnd core)

/-- An attempt in flight: at the victim it takes the top task, if one is left; its answer ends it, and the scan, if no victim is left. -/
def State.stealMove (s : State) (core : Nat) : State :=
  match (s.core core).steal.attempt with
  | none => s
  | some a =>
    let s :=
      if a.there = s.cycle then
        match (s.core a.victim).deque with
        | t :: rest =>
          if t.pushed < s.cycle then
            (s.modCore a.victim (fun k => { k with deque := rest })).modCore core (fun k => { k with steal := { k.steal with attempt := some { a with got := some t } } })
          else s
        | [] => s
      else s
    if a.back ≤ s.cycle then
      s.modCore core (fun k =>
        match k.steal.attempt with
        | some { got := some t, .. } => { k with stolen := k.stolen ++ [t], steal := { k.steal with attempt := none, level := 0, tried := [] } }
        | _ =>
          let t := { k.steal with attempt := none }
          { k with steal := match s.launchOf core with
            | some { berth := some b, desc := some d, .. } => (match t.next core b d.steal 5 with | (_, none) => t.failed s.cycle | _ => t)
            | _ => t })
    else s

end Sys2Proof.Machine
end

