-- ==== Sys2Proof/Machine/Launches.lean ====
section
/-! DEFINITION. Launches at the die controllers (08 R185, R186; 11 R252; 20 R350 to R359): the pending-launch store, acceptance, berths
and priority, the quantum, the choice of a launch to pre-empt, the completion ring and ACTFC; `work.launch`. -/

namespace Sys2Proof.Machine

/-! ### Completion (20 R353) -/

/-- A completion entry, and LAUNCHSTAT: kind 0 ended, 1 failed, 2 saved. -/
def State.complete (s : State) (die lid kind cause value : Nat) : State :=
  let d := s.die die
  let s := s.setDie die { d with lastLid := lid, lastCause := cause }
  if d.cqTail - d.cqHead = d.cqSize then s.modDie die (fun d => { d with lost := true })
  else
    (s.modDie die (fun d => { d with cqTail := d.cqTail + 1 })).writeMem (hostBase + d.cqBase.toNat + 16 * (d.cqTail.toNat % d.cqSize.toNat))
      (leBytes 8 (lid % 2 ^ 21 + cause % 2 ^ 6 * 2 ^ 24 + kind % 4 * 2 ^ 32) ++ leBytes 8 value)

/-! ### The pending-launch store (20 R350) -/

/-- The lowest slot of the store that no entry's LID names. -/
def Die.storeSlot (d : Die) : Option (Fin 128) := (List.finRange 128).find? (fun n => !d.store.any (fun l => decide (l % 128 = n.val)))

/-- The generation of a slot when it is taken: 1 to 511. -/
def nextStoreGen (g : Nat) : Nat := if g = 511 then 1 else g + 1

/-- A request enters the store of a die: the launch with its LID, or 0 when there is no entry for it. -/
def State.enterLaunch (s : State) (die tenant : Nat) (desc : Word) (own : Bool) (arg0 arg1 : Word) (prio : Nat) : State × Nat :=
  let d := s.die die
  if 128 ≤ d.store.length || !d.reentries.isEmpty then (s, 0)
  else match d.storeSlot with
    | none => (s, 0)
    | some n =>
      let gen := nextStoreGen (natAt d.storeGen n)
      let lid := die * 2 ^ 16 + gen * 2 ^ 7 + n.val
      let l : Launch := { lid := lid, tenant := tenant, die := die, descAddr := desc, own := own, reqArg0 := arg0, reqArg1 := arg1, reqPrio := prio
                          desc := none, prio := if own then prio else 0, age := s.cycle, state := .pending, berth := none, quantum := 0, begun := none, rooms := []
                          placedAt := 0, issueAt := none, wentAt := none, timetable := none, requested := 0, haltAt := 0, spent := 0, cancel := false, saved := false }
      ((((s.setDie die { d with store := d.store ++ [lid], storeGen := natSet d.storeGen n gen }).setLaunch l).post (s.cycle + 1)
        (.launchAcceptCheck die lid)), lid)

/-- Re-entries take freed entries in the order of their pre-emptions. -/
def State.refill (s : State) (die : Nat) : State :=
  let d := s.die die
  match d.reentries with
  | l :: rest =>
    if d.store.length < 128 then
      let s := s.setDie die { d with store := d.store ++ [l], reentries := rest }
      match s.launch l with | some x => s.setLaunch { x with state := .pending } | none => s
    else s
  | [] => s

/-- An entry leaves the store. -/
def State.leaveStore (s : State) (die lid : Nat) : State :=
  (s.modDie die (fun d => { d with store := d.store.filter (fun l => decide (l ≠ lid)), reentries := d.reentries.filter (fun l => decide (l ≠ lid)) })).refill die

/-- A pre-empted launch enters the store of its entering die again, or waits outside it, in the order of the pre-emptions' requests. -/
def State.reenterStore (s : State) (l : Launch) (age : Nat) : State :=
  let d := s.die l.die
  let l := { l with age := age, berth := none, begun := none, rooms := [], issueAt := none, timetable := none, cancel := false }
  if d.store.length < 128 && d.reentries.isEmpty then (s.setDie l.die { d with store := d.store ++ [l.lid] }).setLaunch { l with state := .pending }
  else
    let older (x : Nat) : Bool := match s.launch x with | some x => decide (x.age ≤ age) | none => true
    (s.setDie l.die { d with reentries := d.reentries.filter older ++ l.lid :: d.reentries.filter (fun x => !older x) }).setLaunch { l with state := .waiting }

/-! ### Acceptance (20 R352; 11 R252) -/

/-- The fields of a description, by its doublewords. -/
def descOf (ds : List Nat) : LaunchDesc :=
  let g (n : Nat) : Nat := ds.getD n 0
  let w (n : Nat) : Word := BitVec.ofNat 64 (g n)
  { entry := w 0, trapVec := wordAddress48 (g 1), whtrap := bitAt (g 2) 25, steal := bits (g 2) 24 23, prio := bits (g 2) 22 21, h := bits (g 2) 20 14
    w := bits (g 2) 13 6, dies := bits (g 2) 5 0, quantum := bits (g 3) 31 0, spill := bits (g 4) 16 0, stormS := BitVec.ofNat 16 (bits (g 5) 47 32)
    stormW := BitVec.ofNat 6 (bits (g 5) 21 16), tick := BitVec.ofNat 6 (bits (g 5) 5 0), seed := BitVec.ofNat 32 (g 6)
    wbartag := BitVec.ofNat 8 (bits (g 7) 39 32), barrect := BitVec.ofNat 28 (g 7), htab := w 8, hcount := bits (g 9) 8 0, arg0 := w 10, arg1 := w 11
    tables := w 12 }
where wordAddress48 (n : Nat) : Word := BitVec.ofNat 64 (bits n 47 2 * 4)

/-- The reserved bits of a description are zero. -/
def descReserved (ds : List Nat) : Bool :=
  let g (n : Nat) : Nat := ds.getD n 0
  decide (bits (g 0) 63 48 = 0) && decide (bits (g 1) 63 48 = 0) && decide (bits (g 2) 63 26 = 0) && decide (bits (g 3) 63 32 = 0)
    && decide (bits (g 4) 63 17 = 0) && decide (bits (g 5) 63 48 = 0) && decide (bits (g 5) 31 22 = 0) && decide (bits (g 5) 15 6 = 0)
    && decide (bits (g 6) 63 32 = 0) && decide (bits (g 7) 63 40 = 0) && decide (bits (g 7) 31 28 = 0) && decide (bits (g 8) 63 48 = 0)
    && decide (bits (g 9) 63 9 = 0) && decide (bits (g 12) 63 48 = 0) && decide (g 13 = 0) && decide (g 14 = 0) && decide (g 15 = 0)

/-- The fields of a description lie in their ranges. -/
def LaunchDesc.ok (d : LaunchDesc) : Bool :=
  decide (1 ≤ d.h) && decide (d.h ≤ 64) && decide (1 ≤ d.w) && decide (d.w ≤ 128) && decide (1 ≤ d.dies) && decide (d.dies ≤ 32)
    && decide (1 ≤ d.quantum) && decide (d.spill % 512 = 0) && decide (d.spill ≤ 65536) && decide (d.hcount ≤ 256)

/-- Doublewords of a run of bytes. -/
def dwords (bs : List Byte) (n : Nat) : List Nat := (List.range n).map (fun i => leValue ((bs.drop (8 * i)).take 8))

/-- A directory entry of a load list (11 R260): kind, count, the rows' virtual address. -/
def dirEntries (bs : List Byte) : List (Nat × Nat × Nat) :=
  ((List.range (bs.length / 16)).map (fun i =>
    (leValue ((bs.drop (16 * i)).take 2), leValue ((bs.drop (16 * i + 4)).take 4), leValue ((bs.drop (16 * i + 8)).take 8)))).takeWhile (fun e => decide (e.1 ≠ 0))

/-- A row of a load list (11 R259, R260): its kind, CORE (none: every core), the card's virtual address, the body. -/
structure LoadRow where
  kind : Nat
  core : Option Nat
  va : Nat
  body : List Byte
  deriving DecidableEq, Repr

def rowsOf (kind count : Nat) (bs : List Byte) : List LoadRow :=
  (List.range count).map (fun i =>
    let r := (bs.drop (rowSize kind * i)).take (rowSize kind)
    let core := leValue ((r.drop 4).take 4)
    { kind := kind, core := if core = 0xFFFFFFFF then none else some core, va := leValue ((r.drop 8).take 8), body := r.drop 16 })

/-- Reads n bytes as the die controllers read: for a tenant, page by page. -/
def State.controllerRead (s : State) (tenant va n : Nat) : State × Except EngineFault (List Byte) := s.ferryRead tenant va (n / 4096 + 2) n

/-- Reads the directory of a load list, entry by entry to the one of KIND 0. -/
def State.readDirectory (s : State) (tenant va : Nat) : Nat → State × Except EngineFault (List (Nat × Nat × Nat))
  | 0 => (s, .ok [])
  | fuel + 1 =>
    match s.controllerRead tenant va 16 with
    | (s, .error e) => (s, .error e)
    | (s, .ok bs) =>
      match dirEntries bs with
      | [] => (s, .ok [])
      | e :: _ =>
        match s.readDirectory tenant (va + 16) fuel with
        | (s, .ok rest) => (s, .ok (e :: rest))
        | r => r

/-- Reads a load list: its rows in directory order. -/
def State.readTables (s : State) (tenant va : Nat) : State × Except EngineFault (List LoadRow) :=
  if va = 0 then (s, .ok [])
  else match s.readDirectory tenant va 32 with
    | (s, .error e) => (s, .error e)
    | (s, .ok dir) => dir.foldl (fun acc e =>
        match acc with
        | (s, .error f) => (s, .error f)
        | (s, .ok rows) =>
          match s.controllerRead tenant e.2.2 (rowSize e.1 * e.2.1) with
          | (s, .error f) => (s, .error f)
          | (s, .ok bs) => (s, .ok (rows ++ rowsOf e.1 e.2.1 bs))) (s, .ok [])

/-! ### Berths (20 R354; 23 R418) -/

/-- Two berths share a cluster. -/
def Berth.meets (a b : Berth) : Bool :=
  decide (a.die0 < b.die0 + b.dies) && decide (b.die0 < a.die0 + a.dies)
    && decide (a.col / 4 < (b.col + b.w + 3) / 4) && decide (b.col / 4 < (a.col + a.w + 3) / 4)
    && decide (a.row / 2 < (b.row + b.h + 1) / 2) && decide (b.row / 2 < (a.row + a.h + 1) / 2)

/-- No row pair of the berth is failing, and every die of it is in service and has replayed its kept records (23 R417, R418; 24 R425). -/
def State.serves (s : State) (b : Berth) : Bool :=
  (List.range b.dies).all (fun i =>
    let d := s.die (b.die0 + i)
    d.ready && !d.outOfService && !d.failing.any (fun p => decide (b.row / 2 ≤ p) && decide (p < (b.row + b.h + 1) / 2)))

/-- The placements of W × H on DIES dies, in the order of the search: the entering die upwards and then from 0, rows, columns. `pick`
answers for one placement. -/
def searchBerth {α : Type} (die w h dies : Nat) (pick : Berth → Option α) : Option α :=
  ((List.range (32 - die)).map (die + ·) ++ List.range die).findSome? (fun d0 =>
    if 32 < d0 + dies then none
    else (List.range ((64 - h) / 2 + 1)).findSome? (fun r => (List.range ((128 - w) / 4 + 1)).findSome? (fun c =>
      pick { die0 := d0, dies := dies, col := 4 * c, row := 2 * r, w := w, h := h })))

/-- The launches that hold clusters of a placement. -/
def State.holders (s : State) (b : Berth) : List Launch :=
  s.launches.filterMap (fun e => match e.2.berth with | some x => if x.meets b then some e.2 else none | none => none)

/-- The first free placement of a launch. -/
def State.findBerth (s : State) (die : Nat) (d : LaunchDesc) : Option Berth :=
  searchBerth die d.w d.h d.dies (fun b => if s.serves b && (s.holders b).isEmpty then some b else none)

/-! ### Failure -/

/-- A launch that has not run ends with a CAUSE (20 R352, R353). -/
def State.failLaunch (s : State) (l : Launch) (cause : Nat) : State :=
  let s := s.leaveStore l.die l.lid
  { s with launches := kdel l.lid s.launches, images := s.images.filter (fun i => decide (i.lid ≠ l.lid)) }.complete l.die l.lid 1 cause l.spent

/-- The checks of an accepted launch (20 R352): the description and the tables it names, its fields, a placement. A saved launch has its
image's checks behind it. -/
def State.acceptCheck (s : State) (lid : Nat) : State :=
  match s.launch lid with
  | none => s
  | some l =>
    if l.state ≠ .pending || l.desc.isSome then s
    else match s.controllerRead l.tenant l.descAddr.toNat 128 with
      | (s, .error _) => s.failLaunch l 1
      | (s, .ok bs) =>
        let ds := dwords bs 16
        let d := descOf ds
        let d := if l.own then { d with arg0 := l.reqArg0, arg1 := l.reqArg1, prio := l.reqPrio } else d
        match s.controllerRead l.tenant d.htab.toNat (if d.htab = 0 then 0 else 2048) with
        | (s, .error _) => s.failLaunch l 1
        | (s, .ok _) =>
          match s.readTables l.tenant d.tables.toNat with
          | (s, .error _) => s.failLaunch l 1
          | (s, .ok _) =>
            if !descReserved ds || !d.ok then s.failLaunch l 2
            else if (searchBerth l.die d.w d.h d.dies (fun b => if s.serves b then some b else none)).isNone then s.failLaunch l 3
            else s.setLaunch { l with desc := some d, prio := d.prio }

def execLaunchAcceptCheck (_die lid : Nat) (s : State) : Host.Outcome State Fault Refusal := .next (s.acceptCheck lid)

/-! ### work.launch (08 R185, R186) -/

/-- The check of one doubleword of a launch request. -/
def requestCheck (i d : Nat) : Option Cause :=
  match i with
  | 0 => refuse (decide (bits d 63 48 ≠ 0)) false
  | 3 => refuse (decide (bits d 63 9 ≠ 0) || decide (bits d 7 2 ≠ 0)) false
  | _ => none

def execWorkLaunch (sw : Bool) (d a : XReg) (s : State) : Host.Outcome State Fault Refusal :=
  issue { Form.of (.workLaunch sw d a) sw [.x a] [.x d] with inTask := false } (fun l s =>
    cardBody 32 4 (op0 l) s (fun s _ => .park (s.reserveX s.who d) (.launching (op0 l) none [] d sw))) s

/-- The launch waits as `fence.rel.mod` does, then reads its request, one doubleword per core cycle, and enters the store. -/
def State.pollLaunch (s : State) (w : CtxId) : State :=
  match (s.ctx w).park with
  | .launching va none got d sw =>
    if fenceMet .rel (s.ctx w) then s.modCtx w (fun c => { c with park := .launching va (some (s.cycle + 1)) got d sw }) else s
  | .launching va (some t) got d sw =>
    match s.readCard w va 4 t got with
      | (s, .error e) => s.raiseParked w d e
      | (s, .ok ds) =>
        if ds.length < 4 then s.modCtx w (fun c => { c with park := .launching va (some t) ds d sw })
        else match dwFault va requestCheck ds with
        | some e => s.raiseParked w d e
        | none =>
          let g (n : Nat) : Word := ds.getD n 0
          let (s, lid) := s.enterLaunch (dieOf w.core) (s.tenantOf w.core) (g 0) (bitAt (g 3).toNat 8) (g 1) (g 2) (bits (g 3).toNat 1 0)
          s.completeX w d (BitVec.ofNat 64 lid) sw s.cycle
  | _ => s

/-! ### The head and pre-emption (20 R355, R356) -/

/-- The entry a goes before b: the highest priority, the oldest, the lower LID. -/
def Launch.before (a b : Launch) : Bool :=
  decide (b.prio < a.prio) || (decide (a.prio = b.prio) && (decide (a.age < b.age) || (decide (a.age = b.age) && decide (a.lid < b.lid))))

/-- The entries of a die's store that have passed their checks. -/
def State.checkedEntries (s : State) (die : Nat) : List Launch :=
  (s.die die).store.filterMap (fun l => match s.launch l with
    | some x => if x.desc.isSome && decide (x.state = .pending) then some x else none
    | none => none)

/-- The head of a die. -/
def State.head (s : State) (die : Nat) : Option Launch :=
  (s.checkedEntries die).foldl (fun best l => match best with | some b => if l.before b then some l else best | none => some l) none

/-- A launch that a head may displace: of lower priority, or of equal priority and exhausted. -/
def Launch.eligible (h l : Launch) : Bool := decide (l.prio < h.prio) || (decide (l.prio = h.prio) && decide (l.quantum = 0) && decide (l.state = .running))

/-- The candidates among the launches: those of a placement whose holders are all eligible, or on their way out already. -/
def State.candidates (s : State) (h : Launch) (d : LaunchDesc) : List Launch :=
  let placements : List (List Launch) :=
    ((List.range 32).filter (fun d0 => decide (d0 + d.dies ≤ 32))).flatMap (fun d0 => (List.range ((64 - d.h) / 2 + 1)).flatMap (fun r =>
      (List.range ((128 - d.w) / 4 + 1)).map (fun c =>
        let b : Berth := { die0 := d0, dies := d.dies, col := 4 * c, row := 2 * r, w := d.w, h := d.h }
        if s.serves b then (s.holders b).filter (fun l => decide (l.state ≠ .preempting)) else [])))
  ((placements.filter (fun l => l.all (fun x => h.eligible x))).flatMap id).dedup

/-- The candidate that goes: the lowest priority, the one loaded longest ago, the lower LID. -/
def Launch.goesBefore (a b : Launch) : Bool :=
  decide (a.prio < b.prio) || (decide (a.prio = b.prio) && (decide (a.placedAt < b.placedAt) || (decide (a.placedAt = b.placedAt) && decide (a.lid < b.lid))))

def firstToGo (l : List Launch) : Option Launch :=
  l.foldl (fun best x => match best with | some b => if x.goesBefore b then some x else best | none => some x) none

/-! ### ACTFC (20 R359) -/

/-- The cores of a berth on a die. -/
def Berth.coresOn (b : Berth) (die : Nat) : Nat := if b.die0 ≤ die && die < b.die0 + b.dies then b.w * b.h else 0

/-- The slices of a berth on a die whose clusters hold a queued or running matrix operation. -/
def State.matrixSlices (s : State) (b : Berth) (die : Nat) : Nat :=
  (b.cores.filter (fun c => decide (dieOf c = die) && (s.cluster (clusterOf c)).jobs.toList.any (fun j =>
    j.taken && decide (j.state < 2) && (match j.job with | some job => job.isMatrix | none => false)))).length

/-- The pending entries of a die, in the order in which they become the head. -/
def State.headOrder (s : State) (die : Nat) : List Launch := (s.checkedEntries die).mergeSort (fun a b => a.before b || decide (a = b))

/-- Some pending head could take the clusters of a running launch. -/
def State.couldTake (s : State) (die : Nat) (l : Launch) : Bool :=
  (s.headOrder die).any (fun h => match h.desc, l.berth with
    | some d, some lb => (searchBerth die d.w d.h d.dies (fun b =>
        if s.serves b && b.meets lb && (s.holders b).all (fun x => decide (x.prio ≤ h.prio) && decide (x.quantum ≤ 4200)) then some b else none)).isSome
    | _, _ => false)

/-- The berths forecast for 4,200 core cycles ahead: no entry is placed past a head that is not (20 R355). -/
def State.forecast (s : State) (die : Nat) : List Berth :=
  let kept := s.launches.filterMap (fun e =>
    if 4200 < e.2.quantum || !s.couldTake die e.2 then e.2.berth else none)
  let found (held : List Berth) (h : Launch) : Option Berth :=
    match h.desc with
    | some d => searchBerth die d.w d.h d.dies (fun b => if s.serves b && !held.any (fun x => x.meets b) then some b else none)
    | none => none
  ((s.headOrder die).foldl (fun (acc : List Berth × Bool) h =>
    if acc.2 then match found acc.1 h with | some b => (acc.1 ++ [b], true) | none => (acc.1, false) else acc) (kept, true)).1

/-- ACTFC is written (20 R359). -/
def State.writeActfc (s : State) (die : Nat) : State :=
  let held := s.forecast die
  s.modDie die (fun d => { d with
    actPend := d.store.length, actActive := (held.map (fun b => b.coresOn die)).sum, actMatrix := (held.map (fun b => s.matrixSlices b die)).sum
    actAt := s.cycle })

def execActfcUpdate (die : Nat) (s : State) : Host.Outcome State Fault Refusal := .next (s.writeActfc die)

end Sys2Proof.Machine
end

