-- ==== Sys2Proof/Machine/System.lean ====
section
/-! DEFINITION. The sys group (10 R232 to R242): state registers, breakpoint, trap return, self-gating, lookaside invalidation and
the return from monitor mode; and the stall watchdog (14 R298, R299). -/

namespace Sys2Proof

/-- SN of a state register (10 R233). -/
def SReg.number : SReg → Nat
  | .pc => 0 | .ctxstat => 1 | .trapcause => 2 | .trappc => 3 | .trapval => 4 | .trapvec => 5
  | .barrect => 0x10 | .barphase => 0x11 | .wbartag => 0x12 | .qmap => 0x13 | .spillbase => 0x14 | .spillovf => 0x15 | .rowprog => 0x16
  | .slewstat => 0x17 | .vfstat => 0x18 | .prot n => 0x20 + n.val
  | .cxtick => 0x40 | .cxstorm => 0x41 | .srseed => 0x42
  | .frspeed => 0x80 | .frlap => 0x81 | .wsref => 0x82 | .actfc => 0x83 | .launchstat => 0x84

/-- The registers of a context (10 R233). -/
def SReg.ofContext : SReg → Bool
  | .pc | .ctxstat | .trapcause | .trappc | .trapval | .trapvec => true
  | _ => false

/-- The registers that hold an MW field (10 R234, 22 R397). -/
def SReg.monitorWrite : SReg → Bool | .frspeed => true | _ => false

end Sys2Proof

namespace Sys2Proof.Machine

/-! ### State registers (10 R233, R234) -/

/-- BOUND of QMAP (06 R141). -/
def boundMask (k : Core) : Nat := (List.finRange 8).foldl (fun n p => n + bitIf (k.ports.get p).bound p.val) 0

/-- BARPHASE (06 R148). -/
def barphase (b : Barriers) : Nat :=
  b.wph.toNat * 2 ^ 32 + b.phase.toNat * 2 ^ 16 + b.reg % 16 * 2 ^ 12 + b.arr % 16 * 2 ^ 8 + bitIf b.mis 1 + bitIf b.wd 0

/-- Rows of the current operation that wait in a buffer for a handler (07 R167). -/
def Slice.unhanded (sl : Slice) : Nat :=
  (sl.buffers.filter (fun b => decide (b.job = sl.jobId) && b.held && !b.handler && b.due.isNone && !b.paged)).length

/-- ROWPROG (07 R168); ROWS counts the rows handed to the drain path. -/
def rowprog (sl : Slice) : Nat := sl.jobId.toNat * 2 ^ 32 + sl.drained % 16 * 2 ^ 8 + (sl.rows - sl.unhanded) % 16 * 2 ^ 4 + sl.state % 4

/-- The filler cycles that have followed the slice's last operation end (01 R32): while it fills, those up to now. -/
def Slice.filled (sl : Slice) (cycle : Nat) : Nat := match sl.stopReq with | some r => cycle - 1 - r | none => sl.fillCyc

/-- SLEWSTAT (01 R32). -/
def slewstat (sl : Slice) (level cycle : Nat) : Nat :=
  min 65535 sl.startWait * 2 ^ 32 + min 255 (sl.filled cycle) * 2 ^ 24 + level % 2 ^ 7 * 2 ^ 9 + sl.slewState

/-- LAUNCHSTAT of a die (20 R353). -/
def launchstat (d : Die) : Nat :=
  bitIf d.lost 43 + d.lastLid % 2 ^ 21 * 2 ^ 22 + d.lastCause % 2 ^ 6 * 2 ^ 16 + d.store.length % 2 ^ 8

/-- ACTFC of a die in a core cycle (20 R359). -/
def actfc (d : Die) (cycle : Nat) : Nat :=
  d.actPend % 2 ^ 8 * 2 ^ 48 + d.actActive % 2 ^ 14 * 2 ^ 32 + d.actMatrix % 2 ^ 14 * 2 ^ 16 + (cycle - d.actAt) % 2 ^ 11

/-- The value of a state register as a context reads it (10 R234). -/
def State.readReg (s : State) (w : CtxId) (r : SReg) : Word :=
  let c := s.ctx w
  let k := s.core w.core
  let cl := s.cluster (clusterOf w.core)
  let d := s.die (dieOf w.core)
  match r with
  | .pc => c.pc
  | .ctxstat => ctxstat w (decide (k.mode = .monitor)) c
  | .trapcause => BitVec.ofNat 64 (bitIf c.trapHints 8 + c.trapCause.toNat)
  | .trappc => c.trapPc
  | .trapval => c.trapVal
  | .trapvec => c.trapVec
  | .barrect => k.bar.rect.setWidth 64
  | .barphase => BitVec.ofNat 64 (barphase k.bar)
  | .wbartag => k.bar.member.setWidth 64
  | .qmap => BitVec.ofNat 64 (boundMask k)
  | .spillbase => BitVec.ofNat 64 (k.spillUsed * 2 ^ 32 + k.spillBase)
  | .spillovf => k.spillOvf
  | .rowprog => BitVec.ofNat 64 (rowprog k.slice)
  | .slewstat => BitVec.ofNat 64 (slewstat k.slice (s.group (groupOf w.core)).level s.cycle)
  | .vfstat => let n := (s.core (lowerCore w.core)).vfifo.length; BitVec.ofNat 64 (n * 16 + (8 - n))
  | .prot n => k.prot.get n
  | .cxtick => cl.cxTick.setWidth 64
  | .cxstorm => BitVec.ofNat 64 (cl.stormW.toNat * 2 ^ 16 + cl.stormS.toNat)
  | .srseed => cl.lfsr.setWidth 64
  | .frspeed => BitVec.ofNat 64 (frspeed s.ferry)
  | .frlap => BitVec.ofNat 64 (frlap s.ferry)
  | .wsref => BitVec.ofNat 64 (wsref s.cycle (Config.freeWord s.free).toNat)
  | .actfc => BitVec.ofNat 64 (actfc d s.cycle)
  | .launchstat => BitVec.ofNat 64 (launchstat d)

def execSysGets (sw : Bool) (d : XReg) (sn : SReg) (s : State) : Host.Outcome State Fault Refusal :=
  issue (Form.of (.sysGets sw d sn) sw [] [.x d]) (fun _ s =>
    let v := s.readReg s.who sn
    .done ((match sn with | .wsref => s.drew | _ => s).writeX s.who d v)) s

/-- The bits of PROT0 to PROT7 that hold fields (21 R380). -/
def protMask : Word := 0xFFF0000000FF00FF

/-- A region register that 21 R380 refuses. -/
def protBad (v : Word) : Bool :=
  bitAt v.toNat 63 && (decide (bits v.toNat 23 16 ≤ bits v.toNat 7 0) || decide (192 < bits v.toNat 23 16))

/-- SRSEED loads the LFSR at the end of a core cycle; 0 loads 1 (09 R221). -/
def State.writeSrseed (s : State) (cl : Nat) (v : Word) : State :=
  s.modCluster cl (fun k => { k with lfsr := if v.setWidth 32 = (0 : BitVec 32) then 1 else v.setWidth 32 })

/-- A write of BARRECT, ignored while an arrival that the core has sent stands (06 R147). -/
def State.writeBarrect (s : State) (core : Nat) (v : Word) : State :=
  s.modBar core (fun b => if b.sent then { b with mis := true } else { b with rect := v.setWidth 28 })

/-- A tag that the write of WBARTAG adds counts the contexts then registered; one that it removes loses the core's count (06 R148). -/
def Core.retag (k : Core) (member : BitVec 8) : Core :=
  let n := k.ctxs.toList.countP (fun c => c.live && c.registered) + k.swapped.countP (fun x => x.ctx.registered)
  let b := k.bar
  { k with bar := { b with
      member := member
      tagReg := Vector.ofFn (fun t => if bitGet member t then (if bitGet b.member t then natAt b.tagReg t else n) else 0) } }

/-- A write of WBARTAG, ignored while an arrival on a wired tag stands (06 R148). A tag whose members it changes may be complete: every member left
has arrived, or the core joins with a count of 0 (06 R143). -/
def State.writeWbartag (s : State) (core : Nat) (v : Word) : State :=
  let b := (s.core core).bar
  if b.tagSent ≠ 0 || b.tagArr.toList.any (fun n => decide (n ≠ 0)) || (List.finRange 8).any (fun t => bitGet b.member t && decide (natAt b.tagReg t = 0)) then s.modBar core (fun b => { b with mis := true })
  else
    let changed := (List.finRange 8).filter (fun t => bitGet b.member t != v.getLsbD t.val)
    changed.foldl (fun s t => s.tagComplete (dieOf core) t) (s.modCore core (fun k => k.retag (v.setWidth 8)))

/-- A write of a state register, field by field (10 R234). Registers that more than one core reads in a core cycle take their value at
its end. -/
def State.writeReg (s : State) (w : CtxId) (r : SReg) (v : Word) : State :=
  match r with
  | .pc | .trapcause | .qmap | .spillbase | .rowprog | .slewstat | .vfstat | .frlap | .wsref | .actfc => s
  | .ctxstat => s.modCtx w (fun c => c.writeStat v)
  | .trappc => s.modCtx w (fun c => { c with trapPc := wordAddress v })
  | .trapval => s.modCtx w (fun c => { c with trapVal := v })
  | .trapvec => s.modCtx w (fun c => { c with trapVec := wordAddress v })
  | .barrect | .wbartag | .srseed | .frspeed | .launchstat => s.addLate w.core (.write r v)
  | .barphase => s.modBar w.core (fun b => { b with mis := b.mis && !v.getLsbD 1, wd := b.wd && !v.getLsbD 0 })
  | .spillovf => s.modCore w.core (fun k => if k.ovfUsed.isEmpty then { k with spillOvf := v &&& 0xFFFFFFFFFFFFF000 } else k)
  | .prot n => if protBad v then s else s.modCore w.core (fun k => { k with prot := k.prot.set n.val (v &&& protMask) n.isLt })
  | .cxtick | .cxstorm => if (s.cluster (clusterOf w.core)).cxRunning then s else s.addLate w.core (.write r v)

/-- A noted write of a barrier, cluster, die or module register. -/
def State.writeLate (s : State) (core : Nat) (sn : SReg) (v : Word) : State :=
  match sn with
  | .barrect => s.writeBarrect core v
  | .wbartag => s.writeWbartag core v
  | .srseed => s.writeSrseed (clusterOf core) v
  | .frspeed => s.writeFrspeed v
  | .cxtick => s.modCluster (clusterOf core) (fun k => { k with cxTick := v.setWidth 6 })
  | .cxstorm => s.modCluster (clusterOf core) (fun k => { k with stormS := v.setWidth 16, stormW := (v >>> 16).setWidth 6 })
  | .launchstat => s.modDie (dieOf core) (fun d => { d with lost := d.lost && !v.getLsbD 43 })
  | _ => s

def execSysSets (sw : Bool) (d : XReg) (sn : SReg) (s : State) : Host.Outcome State Fault Refusal :=
  issue { Form.of (.sysSets sw d sn) sw [.x d] [] with inTask := sn.ofContext } (fun l s =>
    if sn.monitorWrite && decide ((s.core s.who.core).mode = .tenant) then .trap s { cause := .privilege, val := BitVec.ofNat 64 sn.number }
    else .done (s.writeReg s.who sn (op0 l))) s

def execSrseedWrite (cl : Nat) (v : Word) (s : State) : Host.Outcome State Fault Refusal := .next (s.writeSrseed cl v)

def execBarrectWrite (core : Nat) (v : Word) (s : State) : Host.Outcome State Fault Refusal := .next (s.writeBarrect core v)

def execWbartagWrite (core : Nat) (v : Word) (s : State) : Host.Outcome State Fault Refusal := .next (s.writeWbartag core v)

/-! ### brk, ret, mret -/

/-- `sys.brk` traps BREAK at its sequential successor (10 R238, R239). -/
def execSysBrk (sw : Bool) (a : XReg) (s : State) : Host.Outcome State Fault Refusal :=
  issue (Form.of (.sysBrk sw a) sw [.x a] []) (fun l s =>
    let w := s.who
    let t := (s.modCtx w (fun c => { c with pc := seqNext c.pc })).forward w (s.core w.core) (s.ctx w).intrap (.sysBrk sw a)
    .trap t { cause := .brk, val := op0 l }) s

/-- `sys.ret` waits for the outstanding results (01 R20) and returns (10 R237). -/
def execSysRet (sw : Bool) (s : State) : Host.Outcome State Fault Refusal :=
  issue (Form.of (.sysRet sw) sw [] []) (fun _ s =>
    if (s.ctx s.who).outstanding.isEmpty then .ended (s.trapReturn s.who) else .park s .ret) s

/-- `sys.mret` leaves monitor mode and lets the core's contexts issue (10 R240). -/
def execSysMret (sw : Bool) (s : State) : Host.Outcome State Fault Refusal :=
  issue { Form.of (.sysMret sw) sw [] [] with monitor := true } (fun _ s =>
    .done (s.modCore s.who.core (fun k => { k with mode := .tenant, halted := false }))) s

/-! ### gate -/

/-- F and M of a gate (10 R241). -/
def State.gateWord (s : State) (core n seen : Nat) : Word :=
  BitVec.ofNat 64 (bitIf (decide (1 ≤ n) && decide (n ≤ (s.core (lowerCore core)).vfifo.length)) 0 + bitIf (decide (seen < (s.core core).messages)) 1)

def execSysGate (sw : Bool) (d a : XReg) (s : State) : Host.Outcome State Fault Refusal :=
  issue (Form.of (.sysGate sw d a) sw [.x a] [.x d]) (fun l s =>
    let n := (op0 l).toNat
    let most := if isUpper s.who.core then 8 else 0
    if most < n then .trap s { cause := .illegal, val := op0 l }
    else .park (s.reserveX s.who d) (.gate n (s.core s.who.core).messages d sw)) s

/-- A gate ends once a condition holds, on a core that is up (10 R241, 24 R422). -/
def State.pollGate (s : State) (w : CtxId) : State :=
  match (s.ctx w).park with
  | .gate n seen d sw =>
    let v := s.gateWord w.core n seen
    if v = 0 || (s.core w.core).down then s else s.completeX w d v sw s.cycle
  | _ => s

/-! ### Invalidation (10 R242, 21 R378) -/

/-- Accesses of a tenant to a page, or to any, are still to be performed (21 R378). -/
def State.pageBusy (s : State) (tenant : Nat) (page : Option Nat) : Bool :=
  let there (core va key : Nat) : Bool := decide (s.tenantOf core = tenant) && decide (key < 2 ^ 50) && (match page with | some p => decide (va / 4096 = p) | none => true)
  s.agenda.any (fun e => match e.2 with
    | .amoHomeApply r => there r.who.slot.core r.va.toNat r.addr
    | .lockResend r => there r.who.core r.va.toNat r.addr
    | .lineFetched core _ => decide (s.tenantOf core = tenant)
    | _ => false)

/-- Drops, at every die, the lookaside entries of a tenant that map a page, or all of them; with all of them LOG comes into force (21 R378). -/
def State.dropEntries (s : State) (tenant : Nat) (page : Option Nat) : State :=
  let stays (e : LookEntry) : Bool :=
    decide (e.tenant ≠ tenant) || (match page with | some p => decide (p * 4096 < e.base) || decide (e.limit ≤ p * 4096) | none => false)
  { s with dies := s.dies.map (fun d => (d.1, { d.2 with
      ranges := d.2.ranges.filter stays, pages := d.2.pages.filter stays
      logs := if page.isSome then d.2.logs
        else d.2.logs.filter (fun t => decide (t ≠ tenant)) ++ (if bitAt (s.tenantWord d.1 tenant 2) 0 then [tenant] else []) })) }

/-- How long every die takes to report: the way to the far die and back (14 R285), with contention. -/
def State.invalidateLat (s : State) : Nat := 176 + Config.contention s.free

def execSysInvp (sw : Bool) (a b : XReg) (s : State) : Host.Outcome State Fault Refusal :=
  issue { Form.of (.sysInvp sw a b) sw [.x a, .x b] [] with monitor := true } (fun l s =>
    if bits (op0 l).toNat 63 48 ≠ 0 then .trap s { cause := .illegal, val := op0 l }
    else if bits (op1 l).toNat 63 16 ≠ 0 then .trap s { cause := .illegal, val := op1 l }
    else .park s.drew (.invalidating (op1 l).toNat (some ((op0 l).toNat / 4096)) (s.cycle + s.invalidateLat) sw)) s

def execSysInva (sw : Bool) (b : XReg) (s : State) : Host.Outcome State Fault Refusal :=
  issue { Form.of (.sysInva sw b) sw [.x b] [] with monitor := true } (fun l s =>
    if bits (op0 l).toNat 63 16 ≠ 0 then .trap s { cause := .illegal, val := op0 l }
    else .park s.drew (.invalidating (op0 l).toNat none (s.cycle + s.invalidateLat) sw)) s

/-- The word completes once every die has reported, the accesses are performed, and the context's earlier stores too. -/
def State.pollInvalidate (s : State) (w : CtxId) : State :=
  match (s.ctx w).park with
  | .invalidating tenant page t sw =>
    if t ≤ s.cycle && decide ((s.ctx w).unacked = 0) && !s.pageBusy tenant page then (s.dropEntries tenant page).finishPark w sw s.cycle else s
  | _ => s

/-! ### The stall watchdog (14 R298, R299) -/

/-- An engine of a group's clusters moves data: a copy that waits for no page, a slice that computes or writes rows, a landing, a read of
`red.put` or the write of a result (14 R289). -/
def State.enginesMove (s : State) (group : Nat) : Bool :=
  decide ((s.group group).moved = some s.cycle)
    || s.dies.any (fun d => d.2.dock.any (fun e => e.busy.isSome && decide (e.dests.head?.map (fun x => groupOf x.core) = some group)))
    || (coresOfGroup group).any (fun c =>
      let k := s.cluster (clusterOf c)
      (k.copying.isSome && !k.paged.any (fun p => decide (p.2.2 = .copy))) || (s.core c).slice.rowEnd.isSome
        || (s.core c).slice.buffers.any (fun b => b.due.isSome))

/-- The FIFOs whose credits the blocked pushes lack: capacity, receiving core, port, with the sender. -/
def State.lackingFifos (s : State) (group : Nat) : List ((Nat × Nat × Fin 8) × (Nat × Fin 8)) :=
  (s.group group).blocked.filterMap (fun e =>
    let q := (s.core e.1).ports.get e.2
    if q.paired then some ((((s.core q.peerCore).ports.get q.peerPort).capacity, q.peerCore, q.peerPort), e) else none)

/-- (capacity, core, port) order. -/
def fifoLess (a b : Nat × Nat × Fin 8) : Bool :=
  decide (a.1 < b.1) || (decide (a.1 = b.1) && (decide (a.2.1 < b.2.1) || (decide (a.2.1 = b.2.1) && decide (a.2.2 < b.2.2))))

/-- A trip enlarges one FIFO by 8 entries, in a 64-byte line of its core's spill space (14 R299). -/
def State.trip (s : State) (group : Nat) : State :=
  let best := (s.lackingFifos group).foldl (fun (best : Option ((Nat × Nat × Fin 8) × (Nat × Fin 8))) f =>
    match best with | none => some f | some b => if fifoLess f.1 b.1 then some f else best) none
  match best with
  | none => s
  | some ((cap, core, p), (sender, n)) =>
    if 1024 < cap + 8 || (s.core core).spillRoom < 64 then s
    else match s.takeSpill core 64 with
      | (s, none) => s
      | (s, some sp) =>
        (s.modCore core (fun k => let q := k.ports.get p; k.setPort p { q with capacity := cap + 8, spill := q.spill.join sp })).modCore sender
          (fun k => k.setPort n { k.ports.get n with credits := (k.ports.get n).credits + 8 })

def execStallWatchdogTrip (group : Nat) (s : State) : Host.Outcome State Fault Refusal := .next (s.trip group)

/-- What the watchdog of a group sees of the core cycle that ends. -/
def State.watchdog (s : State) (group : Nat) : State :=
  let g := s.group group
  let idle := !g.blocked.isEmpty && !s.enginesMove group && (coresOfGroup group).all (fun c => decide ((s.core c).issuedAt ≠ some s.cycle))
  if !idle then (if g.blocked.isEmpty && decide (g.idleRun = 0) then s else s.setGroup group { g with idleRun := 0, blocked := [] })
  else if g.idleRun + 1 = 256 then (s.trip group).modGroup group (fun g => { g with idleRun := 0, blocked := [] })
  else s.setGroup group { g with idleRun := g.idleRun + 1, blocked := [] }

end Sys2Proof.Machine
end

