-- ==== Sys2Proof/Machine/Load.lean ====
section
/-! DEFINITION. The load of a berth (11 R244, R252, R253, R260, R261; 20 R357, R363; 12 R262, R263; 17 R338): fresh cores and clusters,
the steps of the die controller, the end of the load, and a load that fails or is stopped. -/

namespace Sys2Proof.Machine

/-! ### Berth-relative cores (11 R244) -/

/-- The berth-relative number of a core, and the core of a number. -/
def Berth.rel (b : Berth) (core : Nat) : Nat := (dieOf core - b.die0) * (b.w * b.h) + (rowOf core - b.row) * b.w + (colOf core - b.col)
def Berth.abs (b : Berth) (rel : Nat) : Nat :=
  coreAt (b.die0 + rel / (b.w * b.h)) (b.col + rel % b.w) (b.row + rel % (b.w * b.h) / b.w)

/-- The cores that a row names: one, or every core of the berth; none where it lies outside. -/
def Berth.coresNamed (b : Berth) (core : Option Nat) : List Nat :=
  match core with
  | some c => if c < b.w * b.h * b.dies then [b.abs c] else []
  | none => b.cores

/-- The first core of each cluster, or of each die, of a list in berth-relative order. -/
def firstsBy (key : Nat → Nat) (l : List Nat) : List Nat :=
  (l.foldl (fun (acc : List Nat × List Nat) c => if acc.2.contains (key c) then acc else (acc.1 ++ [c], key c :: acc.2)) ([], [])).1

/-! ### Traffic of a launch -/

/-- The core whose traffic or wait a dated event is. -/
def eventCore : Instr → Option Nat
  | .amoHomeApply r => some r.who.slot.core
  | .lockResend r => some r.who.core
  | .storeAcknowledge w _ _ | .postedPoisonTrap w _ | .sendOutcome w _ _ => some w.slot.core
  | .resultWrite w _ | .cancelRequest w _ _ | .sampleCapture w => some w.core
  | .messageArrival m => some m.who.slot.core
  | .queueEntryArrival c _ _ | .creditReturn c _ | .forwardedWordArrival c _ _ | .migrationArrival { core := c, .. } | .barrectWrite c _ | .wbartagWrite c _
  | .lineFetched c _ => some c
  | .boardingRequest r => some r.who.core
  | .drainPathWrite cl p | .rowEnd cl p => some (coreOfCluster cl p.val)
  | .matrixOperationComplete cl | .copyJobComplete cl | .srseedWrite cl _ => some (coreOfCluster cl 0)
  | _ => none

/-- A release of a berth's mesh barrier. -/
def releaseIn (b : Berth) (i : Instr) : Bool := match i with | .meshPhaseRelease d col row _ _ => b.holds (coreAt d col row) | _ => false

/-- The launch that a reduction event belongs to. -/
def State.eventLaunch (s : State) (i : Instr) : Option Nat :=
  let of (die slot : Nat) : Option Nat := (kget slot (s.die die).trees).map (·.lid)
  match i with
  | .contributionArrival _ _ c => of c.die c.slot
  | .chunkComplete d n _ => of d n
  | .failureNotice d n _ _ _ => of d n
  | _ => none

/-- An event is traffic that must be answered or performed before a launch halts or ends (20 R358, R360). -/
def State.traffic (s : State) (l : Launch) (i : Instr) : Bool :=
  match i with
  | .lineFetched .. | .rowEnd .. | .copyJobComplete .. => false
  | i =>
    (match eventCore i, l.berth with | some c, some b => b.holds c | _, _ => false)
      || decide (s.eventLaunch i = some l.lid)

/-! ### Clearing a berth -/

/-- A core as it is left to the next launch: what the limiter still owes its slice stays (01 R29), and so does the mesh barrier, whose
phase may still be on its way to its release (17 R343). -/
def Core.cleared (k : Core) : Core :=
  { Core.reset with bar := { k.bar with member := 0 }, mode := k.mode, halted := true, slice := { Slice.reset with stopReq := k.slice.stopReq }, down := k.down, quiet := k.quiet, waking := k.waking }

/-- What a die keeps of a launch is dropped: its tasks, commits, trees and boardings (20 R358). -/
def Die.dropLaunch (d : Die) (lid : Nat) : Die :=
  { d with
    tasks := d.tasks.filter (fun t => decide (t.1 / 512 ≠ lid)), commits := kdel lid d.commits, trees := d.trees.filter (fun t => decide (t.2.lid ≠ lid))
    boardings := d.boardings.map (fun b => if b.2.lid = lid && b.2.live then (b.1, { b.2 with live := false }) else b)
    dock := (d.dock.map (fun e => { e with dests := e.dests.filter (fun x =>
      !(match kget (x.ident % 1024) d.boardings with | some b => decide (b.lid = lid) | none => true)) })).filter (fun e => !e.dests.isEmpty) }

/-- The ring gives up a launch's timetable, at the next lap boundary, or one that waits (22 R403; 20 R363). -/
def Ferry.dropOwner (f : Ferry) (lid : Nat) : Ferry :=
  { f with
    leaving := f.leaving || (f.running && decide (f.owner = lid))
    incoming := match f.incoming with | some t => if t.lid = lid then none else some t | none => none }

/-- A launch leaves its berth. -/
def State.clearBerth (s : State) (l : Launch) : State :=
  match l.berth with
  | none => s
  | some b =>
    let s := { s with
      agenda := s.agenda.filter (fun e => !((match eventCore e.2 with | some c => b.holds c | none => false) || decide (s.eventLaunch e.2 = some l.lid)))
      ferry := s.ferry.dropOwner l.lid
      dies := s.dies.map (fun d => (d.1, d.2.dropLaunch l.lid)) }
    let s := b.cores.foldl (fun s c => s.modCore c Core.cleared) s
    b.clusters.foldl (fun s c => { s with clusters := kdel c s.clusters }) s

/-- What is left of the barrier phases of a berth's last launch goes with the load of the next (20 R357). -/
def State.dropSweeps (s : State) (b : Berth) : State :=
  { s with
    agenda := s.agenda.filter (fun e => !releaseIn b e.2)
    dies := s.dies.map (fun d => (d.1, { d.2 with sweeps := d.2.sweeps.filter (fun t => !b.holds t.core) })) }

/-! ### Fresh cores and clusters (11 R253) -/

/-- The berth's rectangle as BARRECT. -/
def Berth.rect (b : Berth) : BitVec 28 := BitVec.ofNat 28 (b.h * 2 ^ 21 + b.w * 2 ^ 13 + b.col * 2 ^ 6 + b.row)

/-- A core at the load of a fresh launch. -/
def Core.fresh (k : Core) (lid : Nat) (d : LaunchDesc) (b : Berth) : Core :=
  { k.cleared with
    mode := .tenant, lid := lid, spillBase := 0x18000 - d.spill, down := false, quiet := 0, waking := none
    bar := { Barriers.reset with
      rect := if d.barrect = 0 then b.rect else d.barrect, member := d.wbartag, reg := 1
      tagReg := Vector.ofFn (fun t => if bitGet d.wbartag t then 1 else 0) } }

def freshCluster (d : LaunchDesc) : Cluster :=
  { Cluster.reset with cxTick := d.tick, stormS := d.stormS, stormW := d.stormW, lfsr := if d.seed = 0 then 1 else d.seed }

def State.freshBerth (s : State) (l : Launch) (d : LaunchDesc) (b : Berth) : State :=
  let s := b.cores.foldl (fun s c => s.modCore c (fun k => k.fresh l.lid d b)) s
  b.clusters.foldl (fun s c => s.setCluster c (freshCluster d)) s

/-! ### Step 1: sections (11 R244, R258, R261) -/

/-- Writes bytes for the die controller at a tenant's virtual address, page by page; whether every page translates. -/
def State.controllerWrite (s : State) (tenant va : Nat) : Nat → List Byte → State × Bool
  | 0, bs => (s, bs.isEmpty)
  | fuel + 1, bs =>
    if bs.isEmpty then (s, true)
    else
      let m := min bs.length (4096 - va % 4096)
      match s.lookup (homeDie va) (homeDie va) tenant .read va with
      | (s, .error _) => (s, false)
      | (s, .ok e) =>
        let pa := e.frame + (va - e.base)
        (s.writePage e.attr (if e.loc = 2 then hostBase + pa else pa) (bs.take m)).controllerWrite tenant (va + m) fuel (bs.drop m)

/-- Every page of n bytes translates, to an entry and a physical address as they should be. -/
def State.pagesAs (s : State) (tenant va : Nat) (good : LookEntry → Nat → Bool) : Nat → Nat → State × Bool
  | 0, n => (s, decide (n = 0))
  | fuel + 1, n =>
    if n = 0 then (s, true)
    else
      let m := min n (4096 - va % 4096)
      match s.lookup (homeDie va) (homeDie va) tenant .read va with
      | (s, .error _) => (s, false)
      | (s, .ok e) => if good e va then s.pagesAs tenant (va + m) good fuel (n - m) else (s, false)

/-- An entry as a section's kind asks (11 R244): read, written only `data` and `zero`, executed only `code`, in the DRAM of a die's stack. -/
def sectionPage (kind die : Nat) (e : LookEntry) (va : Nat) : Bool :=
  let pa := e.frame + (va - e.base)
  e.r && decide (e.w = decide (3 ≤ kind)) && decide (e.x = decide (kind = 1)) && decide (e.loc ≠ 2) && isDram pa && decide (pa / 2 ^ 36 = die / 2)

/-- Places one section; false where a limit is broken.
DESIGN CHOICE (notes/assumptions/122): an address, a place or an access right that is not as 11 R244 has it makes the load fail. -/
def State.placeSection (s : State) (l : Launch) (d : LaunchDesc) (b : Berth) (x : Section) : State × Bool :=
  if d.dies ≤ x.home then (s, false)
  else if x.kind = 5 then
    let cores := b.coresNamed x.core
    if cores.isEmpty || 0x18000 - d.spill < x.addr + x.data.length then (s, false)
    else (cores.foldl (fun s c => s.writeMem (spadCell c x.addr) x.data) s, true)
  else if x.addr % x.align ≠ 0 then (s, false)
  else match s.pagesAs l.tenant x.addr (sectionPage x.kind (b.die0 + x.home)) (x.data.length / 4096 + 2) x.data.length with
    | (s, false) => (s, false)
    | (s, true) => s.controllerWrite l.tenant x.addr (x.data.length / 4096 + 2) x.data

/-- The module files of a launch. -/
def State.filesOf (s : State) (l : Launch) : List ModuleFile :=
  match s.modules.find? (fun m => decide (m.tenant = l.tenant) && decide (m.desc = l.descAddr)) with | some m => m.files | none => []

/-- The first cell of the weight store of a die (22 R404). -/
def weightStore (die : Nat) : Nat := die / 2 * 2 ^ 36 + 0xF00000000 + die % 2 * 2 ^ 28

/-- The `wstore` sections of a berth-relative die, with their offsets in its weight store, and where they end (22 R404). -/
def storeSections (ms : List Module) (home : Nat) : List (Nat × Section) × Nat :=
  (ms.flatMap (fun m => m.sections.filter (fun x => decide (x.kind = 6) && decide (x.home = home)))).foldl (fun acc x =>
    (acc.1 ++ [(alignUp acc.2 x.align, x)], alignUp acc.2 x.align + x.data.length)) ([], 0)

/-- An entry as a `wstore` section asks (22 R404): read only, at the place of its weight store that its address names. -/
def storePage (die : Nat) (e : LookEntry) (va : Nat) : Bool :=
  e.r && !e.w && !e.x && decide (e.loc = 0) && decide (e.frame + (va - e.base) = weightStore die + va % 2 ^ 28)

/-- Places one section at an offset of a weight store, with which its address agrees. -/
def State.placeStore (s : State) (tenant die off : Nat) (x : Section) : State × Bool :=
  if x.addr % 2 ^ 28 ≠ off then (s, false)
  else match s.pagesAs tenant x.addr (storePage die) (x.data.length / 4096 + 2) x.data.length with
    | (s, false) => (s, false)
    | (s, true) => (s.writeMem (weightStore die + off) x.data, true)

/-- The `wstore` sections are placed, where they fit (22 R404). -/
def State.placeStores (s : State) (tenant : Nat) (d : LaunchDesc) (b : Berth) (ms : List Module) : State × Bool :=
  if ms.any (fun m => m.sections.any (fun x => decide (x.kind = 6) && decide (d.dies ≤ x.home))) then (s, false)
  else (List.range d.dies).foldl (fun acc i =>
    let (l, end_) := storeSections ms i
    if end_ ≤ 2 ^ 28 then l.foldl (fun acc x => if acc.2 then acc.1.placeStore tenant (b.die0 + i) x.1 x.2 else acc) acc else (acc.1, false)) (s, true)

def State.placeSections (s : State) (l : Launch) (d : LaunchDesc) (b : Berth) : State × Bool :=
  match linkModules (s.filesOf l) with
  | none => (s, false)
  | some ms =>
    (ms.flatMap (fun m => m.sections.filter (fun x => decide (x.kind ≠ 6)))).foldl (fun acc x => if acc.2 then acc.1.placeSection l d b x else acc)
      (s.placeStores l.tenant d b ms)

/-- What the loader writes for the module files of a launch (11 R260): the load list, and HTAB, HCOUNT and TABLES of each launch description. -/
def State.loaderWrites (s : State) (tenant : Nat) (files : List ModuleFile) : State :=
  match files, linkModules files with
  | f :: _, some ms =>
    let list := loadList ms f.tables.toNat
    let s := (s.controllerWrite tenant f.tables.toNat (list.length / 4096 + 2) list).1
    ms.foldl (fun s m => (m.rows.filter (fun r => decide (r.kind = 12) && r.card.isSome)).foldl (fun s r =>
      let s := (s.controllerWrite tenant (m.cardOf r + 64) 2 (leBytes 8 f.htab.toNat ++ leBytes 8 (handlerRows ms).length)).1
      (s.controllerWrite tenant (m.cardOf r + 96) 2 (leBytes 8 f.tables.toNat)).1) s) s
  | _, _ => s

/-- Step 5: the handler table of the module files; two rows that name one index fail the launch (11 R252, R261). -/
def State.installHandlers (s : State) (l : Launch) (d : LaunchDesc) : State × Bool :=
  match linkModules (s.filesOf l) with
  | none => (s, false)
  | some ms =>
    if !decide ((handlerRows ms).map (·.1)).Nodup then (s, false)
    else if (s.filesOf l).isEmpty || d.htab = 0 then (s, true)
    else s.controllerWrite l.tenant d.htab.toNat 2 (handlerTable ms)

/-! ### Steps 2 to 10: rows (11 R259, R261) -/

def LoadRow.nat (r : LoadRow) (off n : Nat) : Nat := fileNat r.body off n

/-- A page that a format declares to be held in zero-map form is encoded (03 R71, R72). -/
def State.encodePage (s : State) (tenant va : Nat) (a : Attr) : State :=
  match s.lookup (homeDie va) (homeDie va) tenant .read va with
  | (s, .error _) => s
  | (s, .ok e) => let pa := e.frame + (va - e.base); s.zeroMap a (if e.loc = 2 then hostBase + pa else pa) 4096

/-- The format attributes of a leaf are set (step 2). -/
def State.setPageAttr (s : State) (tenant page : Nat) (a : Attr) : State × Bool :=
  let va := page * 4096
  let home := homeDie va
  match s.walk va (bits (s.tenantWord home tenant 0) 39 12 * 4096) 4 with
  | none => (s, false)
  | some leaf =>
    let w := leaf.raw
    let w := bits w 63 62 * 2 ^ 62 + a.format * 2 ^ 58 + a.blockg * 2 ^ 56 + a.planesn * 2 ^ 53 + bits w 52 0
    (((s.writeMem leaf.addr (leBytes 8 w)).dropEntries tenant (some page)).encodePage tenant va a, true)

/-- The submission of a task card in the own window of a core (08 R192): the result, or none where it traps. -/
def State.submitCard (s : State) (w : CtxId) (va : Word) : State × Option Word :=
  if va.toNat % 32 ≠ 0 || !inOwn va.toNat 32 then (s, none)
  else match s.readDws w va 4 with
    | (s, .error _) => (s, none)
    | (s, .ok ds) =>
      let fp := ds.getD 3 0
      if (dwFault va taskCardCheck ds).isSome then (s, none)
      else if fp = 0 then (let (s, v) := s.submitTask w ds []; (s, some v))
      else if fp.toNat % 8 ≠ 0 || !inOwn fp.toNat 8 then (s, none)
      else
        let n := footLength (s.peek (spadCell w.core fp.toNat) 8)
        if !inOwn fp.toNat (8 * n) then (s, none)
        else match s.readDws w fp n with
          | (s, .error _) => (s, none)
          | (s, .ok fs) =>
            if (dwFault fp footCheck fs).isSome then (s, none)
            else (let (s, v) := s.submitTask w ds (footRanges fs.tail); (s, some v))

/-- A stage set from a card in the own window of a core (09 R216); false where it traps. -/
def State.stageRow (s : State) (w : CtxId) (va : Word) : State × Bool :=
  if va.toNat % 8 ≠ 0 || !inOwn va.toNat 8 then (s, false)
  else
    let n := setCardLength (s.peek (spadCell w.core va.toNat) 8)
    if !inOwn va.toNat (8 * n) then (s, false)
    else match s.readDws w va n with
      | (s, .error _) => (s, false)
      | (s, .ok ds) => let r := s.defineStages w va ds; (r.1, r.2.isNone)

/-- A variable from a card in the own window of a core (09 R208); false where it traps or finds no slot. -/
def State.variableRow (s : State) (w : CtxId) (va : Word) : State × Bool :=
  if va.toNat % 32 ≠ 0 || !inOwn va.toNat 32 then (s, false)
  else match s.readDws w va 4 with
    | (s, .error _) => (s, false)
    | (s, .ok ds) => match s.defineVar w va ds with | (s, .ok n) => (s, decide (n ≠ 0)) | (s, .error _) => (s, false)

/-- Carries out one row at one core; false where the step traps, returns 0 or breaks a limit. -/
def State.rowAt (s : State) (l : Launch) (d : LaunchDesc) (r : LoadRow) (core : Nat) : State × Bool :=
  let w : CtxId := { core := core, ctx := 0 }
  let va := BitVec.ofNat 64 r.va
  match r.kind with
  | 1 =>
    let n := r.nat 0 8
    let a : Attr := { format := r.nat 8 1, blockg := r.nat 9 1, planesn := r.nat 10 1 }
    if n = 0 then (s, true)
    else if !a.ok then (s, false)
    else (List.range ((r.va + n - 1) / 4096 - r.va / 4096 + 1)).foldl (fun acc i =>
      if acc.2 then acc.1.setPageAttr l.tenant (r.va / 4096 + i) a else acc) (s, true)
  | 2 =>
    let n := r.nat 0 4
    if r.va % 512 ≠ 0 || 192 < r.va / 512 + n || 1 < r.nat 4 4 then (s, false)
    else ((List.range n).foldl (fun s i =>
      s.setTagAt core (r.va / 512 + i) { track := true, poison := false, valid := decide (r.nat 4 4 = 1), consumed := decide (r.nat 4 4 = 0) } s.ofEngine) s, true)
  | 3 =>
    let n := r.nat 4 4
    if 7 < r.nat 0 1 || n % 64 ≠ 0 || n < 128 || 65536 < n || r.va % 64 ≠ 0 || 0x18000 - d.spill < r.va + n then (s, false)
    else (s.modCore core (fun k => k.setRing (Fin.ofNat 8 (r.nat 0 1)) { Ring.reset with base := r.va, size := n, handler := BitVec.ofNat 64 (r.nat 8 8) }), true)
  | 5 => s.stageRow w va
  | 6 => s.variableRow w va
  | 10 => match s.submitCard w va with | (s, some v) => (s, decide (1 < v.toNat)) | (s, none) => (s, false)
  | _ => (s, true)

/-- Appends a dependant (step 8): the variable's die is the first of the berth that holds it. -/
def State.depRow (s : State) (b : Berth) (r : LoadRow) : State × Bool :=
  match (List.range b.dies).findSome? (fun i => s.findVar (coreAt (b.die0 + i) b.col b.row) (r.nat 0 2)) with
  | none => (s, false)
  | some (cl, slot, v) =>
    if (s.findVar (coreOfCluster cl 0) (r.nat 2 2)).isNone then (s, false)
    else (let (s, n) := s.appendDep cl slot v (r.nat 2 2); (s, decide (n ≠ 0)))

/-- A layer row (11 R251, R259). -/
def LoadRow.layer (r : LoadRow) : Layer :=
  { n := r.nat 0 2, pier := r.nat 2 1, ret := decide (r.nat 3 1 = 1), pl8 := decide (r.nat 4 1 = 1), planes := r.nat 5 1, chunks := r.nat 8 4, source := r.va
    start := 0 }

/-- The source of a layer lies in a `data`, `rodata` or `wstore` section of one of the two dies of its pier's stack (11 R251); of a launch
whose sections are not known to the die controllers, in an address homed there. -/
def sourceOk (ms : List Module) (b : Berth) (x : Layer) : Bool :=
  if ms.isEmpty then decide (homeDie x.source / 2 = x.pier / 2)
  else ms.any (fun m => m.sections.any (fun y =>
    (decide (y.kind = 2) || decide (y.kind = 3) || decide (y.kind = 6)) && decide (y.addr ≤ x.source) && decide (x.source < y.addr + y.data.length)
      && decide ((b.die0 + y.home) / 2 = x.pier / 2)))

/-- DIR and FORMAT of a layer row are codes 0 and 1 (11 R251). -/
def LoadRow.layerOk (r : LoadRow) : Bool := decide (r.nat 3 1 ≤ 1) && decide (r.nat 4 1 ≤ 1)

/-- The timetable of a load list, if it has one; none where a limit is broken (step 9). -/
def timetableOf (ms : List Module) (b : Berth) (lid tenant : Nat) (rows : List LoadRow) : Option (Option Timetable) :=
  match rows.find? (fun r => decide (r.kind = 8)) with
  | none => some none
  | some t =>
    let layers := (rows.filter (fun r => decide (r.kind = 9))).map (fun r => r.layer)
    let speed := t.nat 0 1
    if 16 < speed || !(rows.filter (fun r => decide (r.kind = 9))).all (fun r => r.layerOk) || !layers.all (fun x => x.ok && sourceOk ms b x) || !(decide ((layers.map (·.n)).Nodup)) then none
    else
      let (placed, len) := layout layers
      if 2 ^ 32 ≤ len then none
      else some (some { lid := lid, tenant := tenant, layers := placed, lapLen := len, auto := decide (speed = 0), div := if speed = 0 then 1 else speed })

/-- The cores at which a row is carried out (11 R261). -/
def rowCores (b : Berth) (r : LoadRow) : List Nat :=
  match r.kind, r.core with
  | 1, _ => [b.abs 0]
  | 5, none => firstsBy clusterOf b.cores
  | 10, none => firstsBy dieOf b.cores
  | _, c => b.coresNamed c

/-- The rows of one kind, in row order. -/
def State.rowsStep (s : State) (l : Launch) (d : LaunchDesc) (b : Berth) (rows : List LoadRow) (kind : Nat) : State × Bool :=
  (rows.filter (fun r => decide (r.kind = kind))).foldl (fun acc r =>
    if !acc.2 then acc
    else if kind = 7 then acc.1.depRow b r
    else
      let cores := rowCores b r
      if cores.isEmpty then (acc.1, false)
      else cores.foldl (fun acc c => if acc.2 then acc.1.rowAt l d r c else acc) acc) (s, true)

/-- Steps 2 to 8, by the kinds of their rows: kind 4 stands for the handler table. -/
def State.allRows (s : State) (l : Launch) (d : LaunchDesc) (b : Berth) (rows : List LoadRow) : State × Bool :=
  [1, 2, 3, 4, 5, 6, 7].foldl (fun acc k =>
    if !acc.2 then acc else if k = 4 then acc.1.installHandlers l d else acc.1.rowsStep l d b rows k) (s, true)

/-! ### The control contexts (08 R177; 11 R252; 12 R262; 17 R338) -/

/-- The lines that a launch leaves fetched: that of ENTRY, and those of its code section when it has at most 16. -/
def State.entryLines (s : State) (l : Launch) (entry : Word) : List Nat :=
  let of (m : Module) : Option Section := m.sections.find? (fun x =>
    decide (x.kind = 1) && decide (x.addr ≤ entry.toNat) && decide (entry.toNat < x.addr + x.data.length) && decide (x.data.length ≤ 2048))
  match (linkModules (s.filesOf l)).bind (fun ms => ms.findSome? of) with
  | some x => (List.range (x.data.length / 128)).map (fun i => x.addr + 128 * i)
  | none => [lineOf entry]

/-- The control context of a core starts in the entry state, registered at barriers. -/
def State.startControl (s : State) (d : LaunchDesc) (core : Nat) : State :=
  let w : CtxId := { core := core, ctx := 0 }
  s.startIn w { s.entryState core d.entry d.arg0 d.arg1 0 .plain s.cycle with registered := true }

/-! ### The load -/

/-- The next core cycle whose count is a multiple of 4 (12 R263). -/
def nextBoundary (cycle : Nat) : Nat := (cycle + 3) / 4 * 4

/-- A load that fails (20 R352): what it has built is discarded, and the launch ends with the CAUSE; it has held its berth since it was placed (20 R353). -/
def State.failLoad (s : State) (l : Launch) (cause : Nat := 4) : State :=
  (s.clearBerth l).failLaunch { l with spent := l.spent + (s.cycle - l.placedAt + 1) } cause

/-- What a launch leaves fetched, and the step boundary from which on it issues. -/
def State.readyToIssue (s : State) (l : Launch) (d : LaunchDesc) (b : Berth) : State :=
  let lines := s.entryLines l d.entry
  let s := b.cores.foldl (fun s c => lines.foldl (fun s n => s.fetchLine c n) s) s
  s.setLaunch { l with timetable := none, issueAt := some (nextBoundary (s.cycle + 1)) }

/-- The end of a load, once its timetable has been installed: step 10 of 11 R261 and the control contexts, of a fresh launch. -/
def State.finishLoad (s : State) (l : Launch) (d : LaunchDesc) (b : Berth) : State :=
  if l.saved then s.readyToIssue l d b
  else match s.readTables l.tenant d.tables.toNat with
    | (s, .error _) => s.failLoad l
    | (s, .ok rows) =>
      match s.rowsStep l d b rows 10 with
      | (s, false) => s.failLoad l
      | (s, true) => (b.cores.foldl (fun s c => s.startControl d c) s).readyToIssue l d b

/-- The load is done but for the timetable, which waits for the ferry (step 9), and what comes after it. -/
def State.endLoad (s : State) (l : Launch) (d : LaunchDesc) (b : Berth) (t : Option Timetable) : State :=
  match t with
  | none => s.finishLoad l d b
  | some t => s.setLaunch { l with timetable := some t }

/-- Steps 1 to 9 of 11 R261 for a fresh launch. -/
def State.loadFresh (s : State) (l : Launch) (d : LaunchDesc) (b : Berth) : State :=
  match (s.freshBerth l d b).placeSections l d b with
  | (s, false) => s.failLoad l
  | (s, true) =>
    match s.readTables l.tenant d.tables.toNat with
    | (s, .error _) => s.failLoad l
    | (s, .ok rows) =>
      match s.allRows l d b rows with
      | (s, false) => s.failLoad l
      | (s, true) =>
        match timetableOf ((linkModules (s.filesOf l)).getD []) b l.lid l.tenant rows with
        | none => s.failLoad l
        | some t => s.endLoad l d b t

/-- A launch whose timetable has been installed goes on (22 R403). -/
def State.timetableIn (s : State) (l : Launch) (d : LaunchDesc) (b : Berth) : State :=
  if s.ferry.running && !s.ferry.leaving && decide (s.ferry.owner = l.lid) then s.finishLoad l d b else s

/-- The ring takes the timetable of the launch that has waited longest. -/
def State.offerTimetable (s : State) : State :=
  if s.ferry.incoming.isSome then s
  else
    let waits := s.launches.filterMap (fun e => match e.2.timetable with
      | some t => if e.2.state = .loading && e.2.issueAt.isNone && !(s.ferry.running && s.ferry.owner = e.1 && !s.ferry.leaving) then some (e.2.placedAt, t) else none
      | none => none)
    match waits.foldl (fun (best : Option (Nat × Timetable)) x => match best with | some b => if x.1 < b.1 then some x else best | none => some x) none with
    | some (_, t) => { s with ferry := { s.ferry with incoming := some t } }
    | none => s

/-- A load that a pre-emption request stops (20 R363). -/
def State.stopLoad (s : State) (l : Launch) (cancel : Bool) : State :=
  let s := s.clearBerth l
  let l := { l with spent := l.spent + (s.cycle - l.placedAt + 1) }
  if cancel then s.failLaunch l 5 else s.reenterStore l s.cycle

end Sys2Proof.Machine
end

