-- ==== Sys2Proof/Machine/Image.lean ====
section
/-! DEFINITION. The bytes of a save image (20 R364 to R367; 03 R74): its launch, die, cluster and core records as a pre-emption writes them, and
what RESTOREBASE reads from them. Where 20 R366 and R367 give an area without the places in it, the places are the model's
(notes/assumptions/113). -/

namespace Sys2Proof.Machine

/-! ### Records (20 R364) -/

/-- Bytes of a record, rounded to a multiple of 64. -/
def recordSize (n : Nat) : Nat := (n + 63) / 64 * 64

/-- The header of a record, with its CHECK. -/
def recordHeader (kind brel size check : Nat) : List Byte :=
  leBytes 4 0x1A525653 ++ leBytes 2 1 ++ leBytes 2 kind ++ leBytes 4 brel ++ leBytes 4 0 ++ leBytes 8 size ++ leBytes 8 check ++ leBytes 32 0

/-- CHECK: the SM3 hash of a record with the field zero, truncated to 64 bits. -/
def recordCheck (kind brel : Nat) (body : List Byte) : Nat := (Config.sm3 (recordHeader kind brel (64 + body.length) 0 ++ body)).toNat % 2 ^ 64

/-- What a record holds behind its header; areas are given by their offsets in the record. -/
def recordBody (size : Nat) (areas : List (Nat × List Byte)) : List Byte := (laidOut size areas).drop 64

/-- A record, up to the next multiple of 64. -/
def recordBytes (kind brel size : Nat) (areas : List (Nat × List Byte)) : List Byte :=
  let body := recordBody size areas
  recordHeader kind brel (64 + body.length) (recordCheck kind brel body) ++ body ++ List.replicate (recordSize (64 + body.length) - (64 + body.length)) 0

/-- Takes a record off an image: none where MAGIC, VERSION, KIND, BREL, SIZE or CHECK is not as it must be. -/
def takeRecord (kind brel : Nat) (bs : List Byte) : Option (List Byte × List Byte) :=
  let size := fileNat bs 16 8
  let body := (bs.take size).drop 64
  if 64 ≤ size ∧ size ≤ bs.length ∧ bs.take 64 = recordHeader kind brel size (recordCheck kind brel body) then some (bs.take size, bs.drop (recordSize size)) else none

def takeRecords (kind brel : Nat) : Nat → List Byte → Option (List (List Byte) × List Byte)
  | 0, bs => some ([], bs)
  | n + 1, bs =>
    match takeRecord kind brel bs with
    | none => none
    | some (r, rest) => (takeRecords kind (brel + 1) n rest).map (fun p => (r :: p.1, p.2))

/-- The counted areas of a die record: how many entries, then each. -/
def counted (size : Nat) (l : List (List Byte)) : List Byte := leBytes 8 l.length ++ l.flatMap (fun x => laidOut size [(0, x)])

/-- The entries of a counted area at an offset, and where it ends. -/
def countedAt (bs : List Byte) (off size : Nat) : List (List Byte) × Nat :=
  let n := fileNat bs off 8
  ((List.range n).map (fun i => (bs.drop (off + 8 + size * i)).take size), off + 8 + size * n)

/-! ### The launch record (20 R364; 11 R252) -/

/-- The 128 bytes of a description. -/
def LaunchDesc.bytes (d : LaunchDesc) : List Byte :=
  laidOut 128 [(0, le8 [d.entry.toNat, d.trapVec.toNat,
    bitIf d.whtrap 25 + d.steal * 2 ^ 23 + d.prio * 2 ^ 21 + d.h * 2 ^ 14 + d.w * 2 ^ 6 + d.dies, d.quantum, d.spill,
    d.stormS.toNat * 2 ^ 32 + d.stormW.toNat * 2 ^ 16 + d.tick.toNat, d.seed.toNat, d.wbartag.toNat * 2 ^ 32 + d.barrect.toNat, d.htab.toNat, d.hcount,
    d.arg0.toNat, d.arg1.toNat, d.tables.toNat])]

def launchRecord (l : Launch) (d : LaunchDesc) (b : Berth) : List Byte :=
  recordBytes 4 0 256 [(64, d.bytes), (192, le8 [l.lid, l.quantum, l.spent, l.tenant]),
    (224, leBytes 2 b.dies ++ leBytes 2 b.clusters.length ++ leBytes 2 b.cores.length)]

/-! ### Context records (20 R365) -/

/-- What a start gave a context, by SRC and what its record holds: a ring's routine and a stage's helper are known by x10, as they were started. -/
def roleOf (bs : List Byte) (core src : Nat) (job : BitVec 16) (k : Cluster) : Role :=
  let x10 := BitVec.ofNat 64 (fileNat bs 0x50 8)
  match src with
  | 3 => .ring (Fin.ofNat 8 x10.toNat)
  | 5 =>
    let row := bits (fileNat bs 0x370 8) 21 16
    match (k.jobs.get (Fin.ofNat 32 (job.toNat % 32))).job with
    | some (.matrix op) => .drainRow row job (op.cbase + row * op.cstride) op.outf (bitAt (fileNat bs 0x370 8) 1)
    | _ => .plain
  | 8 =>
    match k.records.find? (fun r => r.2.delivering && decide (r.2.header = x10)) with
    | some (n, r) => if decide (r.injector = core) && (headerRej x10 || headerFault x10
        || (List.range (k.sets.get (headerSet x10)).stages.length).all (fun i => headerDone x10 i)) then .exit n else .stage n x10 false
    | none => .plain
  | _ => .plain

/-- The context of a record, on a core. -/
def ctxOf (bs : List Byte) (core : Nat) (role : Role) : Ctx :=
  let g (off n : Nat) : Nat := fileNat bs off n
  let stat := g 0x318 8
  let kinds := g 0x348 8
  let hint (i : Nat) : Option (BitVec 23) := if bitAt kinds i then some (BitVec.ofNat 23 (g (0x350 + 4 * i) 4)) else none
  let sw (i : Nat) : Bool := bitAt (g (0x350 + 4 * i) 4) 23
  { Ctx.reset with
    live := bitAt kinds 8, registered := bitAt kinds 9, x := Vector.ofFn (fun r => BitVec.ofNat 64 (g (8 * r.val) 8))
    v := Vector.ofFn (fun r => BitVec.ofNat 512 (g (0x100 + 64 * r.val) 64)), m := Vector.ofFn (fun r => BitVec.ofNat 32 (g (0x300 + 4 * r.val) 4))
    pc := BitVec.ofNat 64 (g 0x310 8), src := BitVec.ofNat 4 (bits stat 39 36), intrap := bitAt stat 3, whtrap := bitAt stat 1, winhaz := bitAt stat 0
    flags := { nv := bitAt stat 12, dz := bitAt stat 11, ofl := bitAt stat 10, ufl := bitAt stat 9, nx := bitAt stat 8 }
    trapHints := bitAt (g 0x320 8) 8, trapCause := BitVec.ofNat 8 (g 0x320 8), trapPc := BitVec.ofNat 64 (g 0x328 8), trapVal := BitVec.ofNat 64 (g 0x330 8)
    trapVec := BitVec.ofNat 64 (g 0x338 8)
    hints := { imm := hint 0, imx := hint 1, mod := hint 2, reg := hint 3, modSw := sw 2, regSw := sw 3, first := BitVec.ofNat 64 (g 0x340 8) }
    park := (match g 0x360 8 with
      | 1 => .barrier (BitVec.ofNat 16 (g 0x368 8)) false
      | 2 => .wired (Fin.ofNat 8 (g 0x368 8)) false
      | _ => .none)
    newLine := decide (g 0x310 8 % 128 = 4), role := role, origin := core }

/-! ### Core records (20 R366) -/

/-- What a core's spill space holds: the entries by which FIFOs have been enlarged, port by port, then the swapped-out contexts' records, then the lines of
a commit that the halt has cut short. The carve-out holds the first bytes of it, and the overflow area the rest (13 R272). -/
def spilledBytes (k : Core) (rel : Nat → Nat) (core : Nat) (lines : List Byte) : List Byte :=
  let entries := (List.finRange 8).flatMap (fun p => (k.ports.get p).fifo.drop 8)
  let e := le8 (entries.map (·.toNat))
  e ++ List.replicate (recordSize e.length - e.length) 0
    ++ k.swapped.flatMap (fun x => ctxRecord x.ctx { core := rel core, ctx := x.slot } (decide (k.mode = .monitor)) true Gang.reset) ++ lines

/-- A line that a saved commit has still to perform: its address, with bit 63 where it lies in the overflow area, which of its bytes are written, and
the 64 bytes; and the counter of its exit, with no bytes. -/
def savedLine (t : OTask) (l : BufLine) : List Byte :=
  let byte (i : Nat) : Option Byte := kget (l.cell + i) t.buffer
  le8 [l.va.toNat % 2 ^ 48 + bitIf (l.spill.near = 0) 63, ((List.range 64).map (fun i => bitIf (byte i).isSome i)).sum] ++ (List.range 64).map (fun i => (byte i).getD 0)
def savedLines (t : OTask) : List Byte :=
  t.buffered.flatMap (savedLine t) ++ (match t.exitDec with | some (_, va) => laidOut 80 [(0, le8 [va.toNat % 2 ^ 48])] | none => [])

/-- The lines of the saved commits of tasks that a core has run. -/
def coreLines (dies : KMap DieImage) (core : Nat) : List Byte :=
  dies.flatMap (fun d => d.2.tasks.flatMap (fun t => if d.2.commits.busy = some t.1 ∧ t.2.home = core then savedLines t.2 else []))

/-- The core record of a core of an image on berth b; `level` is the group's, `boardings` the core's own. -/
def coreRecord (b : Berth) (scratch : List Host.Cell) (core : Nat) (k : Core) (level cycle : Nat) (boardings : List (Nat × Boarding)) (lines : List Byte) :
    List Byte :=
  let rel := b.rel
  let mask (f : Ctx → Bool) : Nat := ((List.finRange 11).map (fun c => bitIf (f (k.ctxs.get c)) c.val)).sum
  let tag (f : Fin 8 → Nat) (step off : Nat) : Nat := ((List.finRange 8).map (fun t => f t * 2 ^ (step * t.val + off))).sum
  let q := rectOf k.bar.rect
  let rect := q.h * 2 ^ 21 + q.w * 2 ^ 13 + (q.col + 128 - b.col) % 128 * 2 ^ 6 + (q.row + 64 - b.row) % 64
  let tasks := (k.stolen ++ k.deque).take 32
  let fifo := k.vfifo.map (·.2)
  let n := fifo.length
  recordBytes 1 (rel core) (0x1D980 + 8 + 32 * boardings.length) [
    (0x40, (List.finRange 11).flatMap (fun c => ctxRecord (k.ctxs.get c) { core := rel core, ctx := c } (decide (k.mode = .monitor)) false k.gang)),
    (0x2C40, le8 [rect, barphase k.bar, k.bar.member.toNat, boundMask k, k.spillUsed * 2 ^ 32 + k.spillBase, k.spillOvf.toNat]
      ++ le8 ((List.finRange 8).map (fun i => (k.prot.get i).toNat)) ++ le8 [rowprog k.slice, slewstat k.slice level cycle, n * 16 + (8 - n)]),
    (0x2CC8, le8 [k.hold.toNat + k.wn * 2 ^ 16]), (0x2CD0, le4 ((List.finRange 8).map (fun i => (k.rings.get i).overflow))),
    (0x2CF0, leBytes 16 (mask (·.registered) + mask (·.arrivedMesh) * 2 ^ 16 + tag (fun t => mask (fun c => bitGet c.arrivedTags t)) 11 32)),
    (0x2D00, match k.patch with | some p => le8 (p.header.toNat :: p.cells.map (·.toNat)) | none => []), (0x2D88, le8 [bitIf k.patch.isSome 0]),
    (0x2D90, le8 [((List.finRange 16).map (fun i => bitIf (!(k.tileReady.get i).fired.isEmpty) i.val)).sum,
      tag (fun t => natAt k.bar.tagReg t % 16) 4 0, k.bar.falls % 16 + tag (fun t => natAt k.bar.tagFalls t % 16) 4 4]),
    (0x3000, (List.finRange 8).flatMap (fun p =>
      let f := k.ports.get p
      laidOut 128 [(0, le8 [if f.bound then rel f.peerCore + f.peerPort.val * 2 ^ 18 else 0]), (8, le8 ((f.fifo.take 8).map (·.toNat))),
        (72, le8 [min 8 f.fifo.length + min 15 f.credits * 2 ^ 8 + (f.fifo.length - 8) * 2 ^ 16])])),
    (0x3400, if isUpper core then [] else le8 [n] ++ fifo.flatMap (fun v => leBytes 64 v.toNat)),
    (0x3640, le8 (tasks.length :: tasks.flatMap (fun t => [t.entry.toNat, t.arg0.toNat, t.arg1.toNat]))),
    (0x3980, (k.arrivals.take 4).flatMap (fun m => ctxRecord (m.ctx.setX m.dest (BitVec.ofNat 64 m.source)) { core := rel m.source, ctx := 0 } false false Gang.reset)),
    (0x4980, le8 ((List.range 512).map (fun i => match k.controlRead (8 * i) with | some v => v.toNat | none => 0))),
    (0x5980, laidOut 98304 [(0, (List.range k.spillBase).map (fun o => Memory.read scratch (spadCell core o))), (k.spillBase, (spilledBytes k rel core lines).take (98304 - k.spillBase))]),
    (0x1D980, le8 [boardings.length] ++ boardings.flatMap (fun x => leBytes 2 (x.2.gen * 1024 + x.1)
      ++ leBytes 2 ((x.2.landed.map (fun c => 2 ^ c)).sum) ++ leBytes 4 0
      ++ le8 [x.2.lap % 2 ^ 20 * 2 ^ 12 + x.2.layer, x.2.nch * 2 ^ 32 + x.2.chunk0, x.2.tiles]))]

/-- What a core's spill space holds by its record and the bytes of its overflow area, and where in it the contexts stand: the place of each. -/
def spillOf (bs far : List Byte) : List Byte :=
  let base := min 0x18000 (fileNat bs 0x2C60 4)
  ((bs.drop (0x5980 + base)).take (98304 - base)) ++ far
def spilledEntries (bs : List Byte) (p : Nat) : Nat := bits (fileNat bs (0x3000 + 128 * p + 72) 8) 31 16
def swapsAt (bs : List Byte) : Nat := recordSize (8 * ((List.range 8).map (spilledEntries bs)).sum)
def swapsOf (bs far : List Byte) : List (List Byte) :=
  ((List.range 64).map (fun i => ((spillOf bs far).drop (swapsAt bs + 1024 * i)).take 1024)).takeWhile (fun r => bitAt (fileNat r 0x348 8) 8)
def linesOf (bs far : List Byte) : List Byte := (spillOf bs far).drop (swapsAt bs + 1024 * (swapsOf bs far).length)

/-- The core of a record; its rings' routines stand in the launch's tables (`SaveImage.withRoutines`). -/
def coreOf (bs far : List Byte) (b : Berth) (lid core : Nat) (k : Cluster) : Core :=
  let g (off n : Nat) : Nat := fileNat bs off n
  let bar := g 0x2C48 8
  let member := BitVec.ofNat 8 (g 0x2C50 8)
  let bound := g 0x2C58 8
  let base := min 0x18000 (g 0x2C60 4)
  let prog := g 0x2CA8 8
  let slew := g 0x2CB0 8
  let job := BitVec.ofNat 16 (bits prog 47 32)
  let arr := g 0x2CF0 16
  let ctx (off : Nat) : Ctx := let r := (bs.drop off).take 1024; ctxOf r core (roleOf r core (bits (fileNat r 0x318 8) 39 36) job k)
  let ctxs : Vector Ctx 11 := Vector.ofFn (fun c => { ctx (0x40 + 0x400 * c.val) with
    arrivedMesh := bitAt arr (16 + c.val)
    arrivedTags := BitVec.ofNat 8 (((List.range 8).map (fun t => bitIf (bitAt arr (32 + 11 * t + c.val)) t)).sum) })
  let spilled := spilledEntries bs
  let before (p : Nat) : Nat := ((List.range p).map spilled).sum
  let carve := spillOf bs far
  -- The lines of n at a place of the spill space that the carve-out holds.
  let near (at_ n : Nat) : Nat := min n ((98304 - base - at_) / 64)
  let swap (e : List Byte × Nat) : Swapped :=
    { ctx := ctxOf e.1 core (roleOf e.1 core (bits (fileNat e.1 0x318 8) 39 36) job k), slot := Fin.ofNat 11 (bits (fileNat e.1 0x318 8) 45 42), resume := some 0
      space := { near := near (swapsAt bs + 1024 * e.2) 16, far := [] } }
  let depth := min 32 (g 0x3640 8)
  let fired := g 0x2D90 8
  { Core.reset with
    mode := .monitor, halted := true, lid := lid, ctxs := ctxs
    bar := { Barriers.reset with
      rect := BitVec.ofNat 28 (g 0x2C40 8), phase := BitVec.ofNat 16 (bits bar 31 16), wph := BitVec.ofNat 8 (bits bar 39 32), mis := bitAt bar 1, wd := bitAt bar 0
      reg := bits bar 15 12, arr := bits bar 11 8, sent := decide (bits bar 15 12 ≠ 0 ∧ bits bar 15 12 = bits bar 11 8), falls := bits (g 0x2DA0 8) 3 0, member := member
      tagReg := Vector.ofFn (fun t => bits (g 0x2D98 8) (4 * t.val + 3) (4 * t.val)), tagFalls := Vector.ofFn (fun t => bits (g 0x2DA0 8) (4 * t.val + 7) (4 * t.val + 4))
      tagArr := Vector.ofFn (fun t => ((List.range 11).filter (fun c => bitAt arr (32 + 11 * t.val + c))).length)
      tagSent := BitVec.ofNat 8 (((List.finRange 8).map (fun t =>
        let n := bits (g 0x2D98 8) (4 * t.val + 3) (4 * t.val)
        bitIf (bitGet member t && decide (n ≠ 0 ∧ n = ((List.range 11).filter (fun c => bitAt arr (32 + 11 * t.val + c))).length)) t.val)).sum) }
    ports := Vector.ofFn (fun p =>
      let d := g (0x3000 + 128 * p.val) 8
      let n := g (0x3000 + 128 * p.val + 72) 8
      { Port.reset with
        bound := bitAt bound p.val, peerCore := b.abs (bits d 17 0), peerPort := Fin.ofNat 8 (bits d 20 18), credits := bits n 11 8
        capacity := 8 + (spilled p.val + 7) / 8 * 8, spill := { near := near (8 * before p.val) ((spilled p.val + 7) / 8), far := [] }
        fifo := (List.range (bits n 3 0)).map (fun i => BitVec.ofNat 64 (g (0x3000 + 128 * p.val + 8 + 8 * i) 8))
          ++ (List.range (spilled p.val)).map (fun i => BitVec.ofNat 64 (fileNat carve (8 * (before p.val + i)) 8)) })
    spillBase := base, spillUsed := g 0x2C64 4, spillOvf := BitVec.ofNat 64 (g 0x2C68 8), prot := Vector.ofFn (fun i => BitVec.ofNat 64 (g (0x2C70 + 8 * i.val) 8))
    slice := { Slice.reset with
      jobId := job, drained := bits prog 11 8, rows := bits prog 7 4, state := bits prog 3 0, startWait := bits slew 47 32, fillCyc := bits slew 31 24
      buffers := ctxs.toList.filterMap (fun c => match c.role with
        | .drainRow row job addr outf out => if out then none else some { row := row, job := job, addr := addr, outf := outf, vals := [], age := 0, held := true
                                                                          handler := true, due := none, paged := false }
        | _ => none) }
    tags := (List.range 192).map (fun t => let v := g (0x4980 + 8 * t) 8; (t, { track := bitAt v 3, poison := bitAt v 2, consumed := bitAt v 1, valid := bitAt v 0 }))
    tileReady := Vector.ofFn (fun i =>
      let d (n : Nat) : Word := BitVec.ofNat 64 (g (0x4980 + 0x800 + 32 * i.val + 8 * n) 8)
      { TileReady.reset with dw0 := d 0, dw1 := d 1, dw2 := d 2, fired := if bitAt fired i.val then [(0, d 0 &&& 0xFFFFFFFFFFFF#64, d 1)] else [] })
    rings := Vector.ofFn (fun i =>
      let d0 := g (0x4980 + 0xA00 + 32 * i.val) 8
      let d1 := g (0x4980 + 0xA00 + 32 * i.val + 8) 8
      { Ring.reset with
        base := bits d0 46 0, size := bits d0 63 47, head := bits d1 15 0, tail := bits d1 31 16
        used := bits d1 48 32, overflow := g (0x2CD0 + 4 * i.val) 4, running := ctxs.toList.any (fun c => c.live && decide (c.role = .ring i))
        readyAge := if bits d1 48 32 = 0 then none else some 0 })
    hold := BitVec.ofNat 8 (g 0x2CC8 1), wn := max 1 (bits (g 0x2CC8 8) 22 16)
    deque := (List.range depth).map (fun i => { entry := BitVec.ofNat 64 (g (0x3648 + 24 * i) 8), arg0 := BitVec.ofNat 64 (g (0x3650 + 24 * i) 8)
                                                arg1 := BitVec.ofNat 64 (g (0x3658 + 24 * i) 8), pushed := 0 })
    arrivals := ((List.range 4).map (fun i => (bs.drop (0x3980 + 1024 * i)).take 1024)).filterMap (fun r =>
      if bitAt (fileNat r 0x348 8) 8 then some { ctx := ctxOf r core .plain, source := b.abs (bits (fileNat r 0x318 8) 63 46), dest := 0, pending := [], arrived := some 0 } else none)
    swapped := (swapsOf bs far).zipIdx.map swap
    gang := (((List.finRange 11).map (fun c => (c, g (0x40 + 0x400 * c.val + 0x378) 8))).find? (fun p => decide (bits p.2 7 0 ≠ 0))).elim Gang.reset (fun p =>
      { Gang.reset with active := true, mask := BitVec.ofNat 8 (bits p.2 7 0), leader := Fin.ofNat 8 (bits p.2 10 8), ctx := p.1, attached := bitAt p.2 11
                        rendezvous := if bitAt p.2 11 || bits p.2 15 12 = 0 then none else some (BitVec.ofNat 4 (bits p.2 15 12)) })
    patch := if bitAt (g 0x2D88 8) 0 then some { header := BitVec.ofNat 64 (g 0x2D00 8), cells := (List.range 16).map (fun i => BitVec.ofNat 64 (g (0x2D08 + 8 * i) 8)) } else none
    vfifo := if isUpper core then [] else (List.range (min 8 (g 0x3400 8))).map (fun i => (0, BitVec.ofNat 512 (g (0x3408 + 64 * i) 64))) }

/-- The boardings of a core record, by pier entry. -/
def boardingsOf (bs : List Byte) (lid core : Nat) : List (Nat × Boarding) :=
  (List.range (fileNat bs 0x1D980 8)).map (fun i =>
    let g (off n : Nat) : Nat := fileNat bs (0x1D988 + 32 * i + off) n
    let chunk0 := bits (g 16 8) 27 0
    (bits (g 0 2) 9 0, { gen := bits (g 0 2) 15 10, live := true, lid := lid, core := core, layer := bits (g 8 8) 11 0, chunk0 := chunk0, nch := bits (g 16 8) 43 32
                         tiles := bits (g 24 8) 47 0, lap := bits (g 8 8) 31 12, misses := 0, reason := 3, state := 0
                         landed := (List.range 16).filterMap (fun c => if bitAt (g 2 2) c then some c else none), bad := [], missedNow := false }))

/-- The cells of a core record's scratchpad. -/
def scratchOf (bs : List Byte) (core : Nat) : List Host.Cell :=
  let base := min 0x18000 (fileNat bs 0x2C60 4)
  ((bs.drop 0x5980).take base).zipIdx.filterMap (fun p => if p.1 = 0 then none else some (spadCell core p.2, p.1))

/-! ### Cluster records (20 R367) -/

/-- The doublewords of an operation descriptor (07 R158), and of a copy's card (07 R170). -/
def MatrixOp.words (op : MatrixOp) : List Nat :=
  [op.abase, op.bbase, op.cbase, op.cstride * 2 ^ 42 + op.bstride * 2 ^ 21 + op.astride, op.scaleA, op.scaleB, op.metaA,
    op.terms.toNat * 2 ^ 27 + bitIf op.arm 26 + bitIf op.tagen 25 + op.tag * 2 ^ 21 + bitIf op.drain 20 + bitIf op.bt 19 + bitIf op.acc 18 + op.outf * 2 ^ 16
      + op.epat * 2 ^ 14 + op.bpat * 2 ^ 12 + op.planes * 2 ^ 8 + op.k, op.handler.toNat]
def CopyJob.words (j : CopyJob) : List Nat :=
  [j.src, j.dst, j.len, j.terms.toNat * 2 ^ 22 + bitIf j.arm 21 + bitIf j.tagen 20 + j.tag * 2 ^ 16 + j.mask.toNat * 2 ^ 8 + j.kind]

def jobBytes (rel : Nat → Nat) (k : Cluster) (j : JobSlot) : List Byte :=
  laidOut 128 [
    (0, match j.job with | some (.matrix op) => le8 op.words | some (.copy c) => le8 (c.words ++ [rel c.core]) | none => []),
    (72, le8 [j.gen + bitIf j.used 16 + bitIf j.taken 17 + bitIf (match j.job with | some x => x.isMatrix | none => false) 18 + bitIf j.job.isSome 19, k.status j, j.done, j.rank])]

def jobOf (b : Berth) (bs : List Byte) : JobSlot :=
  let g (off : Nat) : Nat := fileNat bs off 8
  let ds := (List.range 9).map (fun i => BitVec.ofNat 64 (g (8 * i)))
  let f := g 72
  let st := g 80
  { JobSlot.reset with
    gen := bits f 15 0, used := bitAt f 16, taken := bitAt f 17
    job := if !bitAt f 19 then none else some (if bitAt f 18 then .matrix (opOf ds) else .copy (cardJob (b.abs (g 32)) (ds.take 4)))
    state := bits st 1 0, held := bitAt st 2, drop := bitAt st 3, cause := bits st 15 8, va := bits st 63 16, done := g 88, rank := g 96 }

def setBytes (n : Nat) (x : StageSet) : List Byte :=
  laidOut 256 (if !x.defined then [] else [
    (0, le8 ([x.wexp * 2 ^ 8 + n * 2 ^ 4 + x.stages.length, x.exit.toNat] ++ x.stages.map (fun t => t.pos * 2 ^ 50 + t.cls * 2 ^ 48 + t.entry.toNat))),
    (80, x.stages.flatMap (fun t => leBytes 4 t.weight ++ leBytes 2 t.passed ++ leBytes 2 t.rejects ++ leBytes 2 t.passedNow ++ leBytes 2 t.rejectsNow ++ leBytes 4 x.windowLeft)),
    (208, le8 [x.left])])

def setOf (bs : List Byte) : StageSet :=
  let g (off n : Nat) : Nat := fileNat bs off n
  let n := bits (g 0 8) 3 0
  if n = 0 then StageSet.reset
  else { defined := true, wexp := bits (g 0 8) 11 8, exit := BitVec.ofNat 64 (g 8 8), left := g 208 8, windowLeft := g 92 4
         stages := (List.range n).map (fun i => { stageOf (BitVec.ofNat 64 (g (16 + 8 * i) 8)) with
           weight := g (80 + 16 * i) 4, passed := g (84 + 16 * i) 2, rejects := g (86 + 16 * i) 2, passedNow := g (88 + 16 * i) 2, rejectsNow := g (90 + 16 * i) 2 }) }

def flightBytes (rel : Nat → Nat) (r : Record) : List Byte :=
  le8 [r.header.toNat, r.payload.toNat,
    2 ^ 37 + bitIf r.delivering 38 + rel r.injector * 2 ^ 39 + (match r.queued with | some (st, age) => 2 ^ 36 + st * 2 ^ 32 + age % 2 ^ 32 | none => 0),
    match r.draw with | some d => d + 1 | none => 0]

def flightOf (b : Berth) (bs : List Byte) : Option Record :=
  let q := fileNat bs 16 8
  let d := fileNat bs 24 8
  if !bitAt q 37 then none
  else some { header := BitVec.ofNat 64 (fileNat bs 0 8), payload := BitVec.ofNat 64 (fileNat bs 8 8), injector := b.abs (bits q 56 39)
              draw := if d = 0 then none else some (d - 1), queued := if bitAt q 36 then some (bits q 35 32, bits q 31 0) else none, delivering := bitAt q 38 }

def varBytes (v : CxVar) : List Byte :=
  le4 [v.x.toNat, v.s.toNat, v.q.toNat, v.qb.toNat] ++ le8 [v.t, v.next, v.deps.toNat, v.swin] ++ leBytes 2 v.index ++ leBytes 2 v.scnt ++ leBytes 2 v.sts
    ++ leBytes 1 v.stw ++ leBytes 1 v.handler ++ leBytes 1 v.deplist.length ++ leBytes 1 (1 + 2 * posOf v.owner)

/-- A crossing variable; its dependants stand in the scratchpad of its owner. -/
def varOf (scratch : List Host.Cell) (cl : Nat) (bs : List Byte) : Option CxVar :=
  let g (off n : Nat) : Nat := fileNat bs off n
  let owner := coreOfCluster cl (g 57 1 / 2)
  if g 57 1 % 2 = 0 then none
  else some { x := BitVec.ofNat 32 (g 0 4), s := BitVec.ofNat 32 (g 4 4), q := BitVec.ofNat 32 (g 8 4), qb := BitVec.ofNat 32 (g 12 4), t := g 16 8, next := g 24 8
              deps := BitVec.ofNat 64 (g 32 8), swin := g 40 8, index := g 48 2, scnt := g 50 2, sts := g 52 2, stw := g 54 1, handler := g 55 1, owner := owner
              deplist := (List.range (min 32 (g 56 1))).map (fun i => leValue (Memory.readBytes scratch (spadCell owner (g 32 8 + 2 * i)) 2))
              task := none, due := if g 24 8 = noCrossing then none else some 0 }

def clusterRecord (b : Berth) (brel : Nat) (k : Cluster) : List Byte :=
  recordBytes 2 brel 46592 [
    (0x40, le8 [k.cxTick.toNat, k.stormW.toNat * 2 ^ 16 + k.stormS.toNat, k.lfsr.toNat, bitIf k.cxRunning 0]),
    (0x80, (List.finRange 16).flatMap (fun i => let x := k.counters.get i; le4 [x.src.toNat, x.thresh, bitIf x.auto 0, x.count])
      ++ le8 ((List.finRange 16).map (fun i => (k.terms.get i).toNat))),
    (0x200, (List.finRange 32).flatMap (fun i => jobBytes b.rel k (k.jobs.get i))), (0x1200, (List.finRange 4).flatMap (fun i => setBytes i.val (k.sets.get i))),
    (0x1600, (List.range 256).flatMap (fun n => laidOut 32 (match kget n k.records with | some r => [(0, flightBytes b.rel r)] | none => []))),
    (0x3600, (List.range 512).flatMap (fun n => laidOut 64 (match kget n k.vars with | some v => [(0, varBytes v)] | none => [])))]

/-- A table of records at an offset: those that are present, by number. -/
def tableOf {α : Type} (bs : List Byte) (off size n : Nat) (f : List Byte → Option α) : KMap α :=
  (List.range n).filterMap (fun i => (f ((bs.drop (off + size * i)).take size)).map (fun x => (i, x)))

def clusterOfRecord (b : Berth) (cl : Nat) (scratch : List Host.Cell) (bs : List Byte) : Cluster :=
  let g (off n : Nat) : Nat := fileNat bs off n
  let jobs : Vector JobSlot 32 := Vector.ofFn (fun i => jobOf b ((bs.drop (0x200 + 128 * i.val)).take 128))
  let active (matrix : Bool) : Option Nat := ((List.finRange 32).find? (fun i =>
    let j := jobs.get i; j.taken && decide (j.state = 1) && (match j.job with | some x => x.isMatrix == matrix | none => false))).map (·.val)
  { Cluster.reset with
    cxTick := BitVec.ofNat 6 (g 0x40 8), stormS := BitVec.ofNat 16 (g 0x48 8), stormW := BitVec.ofNat 6 (bits (g 0x48 8) 21 16), lfsr := BitVec.ofNat 32 (g 0x50 8)
    cxRunning := bitAt (g 0x58 8) 0
    counters := Vector.ofFn (fun i => { src := BitVec.ofNat 16 (g (0x80 + 16 * i.val) 4), thresh := g (0x84 + 16 * i.val) 4, auto := bitAt (g (0x88 + 16 * i.val) 4) 0
                                        count := g (0x8C + 16 * i.val) 4, fired := decide (g (0x84 + 16 * i.val) 4 ≤ g (0x8C + 16 * i.val) 4) })
    terms := Vector.ofFn (fun i => BitVec.ofNat 16 (g (0x180 + 8 * i.val) 8)), jobs := jobs, nextRank := (jobs.toList.map (fun j => j.rank + 1)).foldl max 0
    running := active true, copying := active false
    sets := Vector.ofFn (fun i => setOf ((bs.drop (0x1200 + 256 * i.val)).take 256)), records := tableOf bs 0x1600 32 256 (flightOf b)
    vars := tableOf bs 0x3600 64 512 (varOf scratch cl) }

/-! ### Die records (20 R367; 03 R74) -/

/-- A task of the table: its slot and generation, its card, its footprint record, RUNS, state, and how many lines a commit that has been cut short has
still to perform, of which core (their bytes stand in its spill space). -/
def taskBytes (rel : Nat → Nat) (busy : Bool) (key : Nat) (t : OTask) : List Byte :=
  le8 [t.gen * 512 + key % 512, t.ts, t.key * 2 ^ 48 + t.entry.toNat, t.arg.toNat, t.fp, t.foot.length]
    ++ (t.foot.take 8).flatMap (fun r => le8 [bitIf r.w 49 + bitIf r.r 48 + r.base, r.len]) ++ List.replicate (16 * (8 - t.foot.length)) 0
    ++ leBytes 4 t.runs ++ leBytes 4 t.state
    ++ leBytes 8 (if busy then bitIf true 63 + rel t.home * 2 ^ 32 + bitIf t.exitDec.isSome 31 + t.buffered.length else 0)

/-- The lines of a saved commit, and the counter of its exit; no cell is theirs before the commit translates them (notes/assumptions/120). -/
def lineCell (va : Nat) : Nat := 2 ^ 60 + va
def savedLinesOf (bs : List Byte) (n : Nat) (exits : Bool) : List BufLine × KMap Byte × Option (Nat × Word) :=
  let line (i : Nat) : List Byte := (bs.drop (80 * i)).take 80
  let va (i : Nat) : Nat := bits (fileNat (line i) 0 8) 47 0
  ((List.range n).map (fun i => { va := BitVec.ofNat 64 (va i), cell := lineCell (va i), spill := { near := if bitAt (fileNat (line i) 0 8) 63 then 0 else 1, far := [] } }),
   (List.range n).foldl (fun m i => (List.range 64).foldl (fun m j =>
     if bitAt (fileNat (line i) 8 8) j then kset (lineCell (va i) + j) ((line i).getD (16 + j) 0) m else m) m) [],
   if exits then some (lineCell (va n), BitVec.ofNat 64 (va n)) else none)

/-- The entry of a task whose commit was being performed. -/
def busyEntry (bs : List Byte) : Bool := bitAt (fileNat bs 184 8) 63

/-- A task of a table; `lines` gives what the spill space of a core holds of saved commits. -/
def taskOfBytes (b : Berth) (lid : Nat) (lines : Nat → List Byte) (bs : List Byte) : Nat × OTask :=
  let g (off n : Nat) : Nat := fileNat bs off n
  let foot := (List.range (min 8 (g 40 8))).map (fun i => ({ w := bitAt (g (48 + 16 * i) 8) 49, r := bitAt (g (48 + 16 * i) 8) 48, base := bits (g (48 + 16 * i) 8) 47 0
                                                             len := g (56 + 16 * i) 8 } : FootRange))
  let home := b.abs (bits (g 184 8) 62 32)
  let saved := savedLinesOf (lines home) (bits (g 184 8) 30 0) (bitAt (g 184 8) 31)
  (lid * 512 + g 0 8 % 512, { OTask.fresh (g 8 8) (bits (g 16 8) 63 48) (BitVec.ofNat 64 (bits (g 16 8) 47 0)) (BitVec.ofNat 64 (g 24 8)) foot lid 0 with
    gen := g 0 8 / 512, fp := bits (g 32 8) 47 0, runs := g 176 4, state := if busyEntry bs then 2 else if g 180 4 = 3 ∨ g 180 4 = 4 then g 180 4 else 0
    home := home, buffered := saved.1, buffer := saved.2.1, exitDec := saved.2.2 })

def treeBytes (rel : Nat → Nat) (slot : Nat) (t : Tree) : List Byte :=
  le8 [t.count * 2 ^ 24 + rel t.root, slot * 2 ^ 48 + t.nchunk, t.dst, t.step + ((t.chunks.filter (fun c => decide (c.1 < 16))).map (fun c => c.2.state * 4 ^ c.1)).sum * 2 ^ 32]

def treeOfBytes (b : Berth) (lid : Nat) (bs : List Byte) : Nat × Tree :=
  let g (off : Nat) : Nat := fileNat bs off 8
  let chunks := (List.range 16).filterMap (fun c =>
    let st := bits (g 24) (2 * c + 33) (2 * c + 32)
    if st = 0 then none else some (c, { state := st, merged := 0, hop := 0, failedAt := 0, acc := none }))
  (bits (g 8) 63 48, { count := bits (g 0) 42 24, root := b.abs (bits (g 0) 17 0), nchunk := bits (g 8) 15 0, dst := g 16, lid := lid, step := bits (g 24) 31 0
                       chunks := chunks, last := [], fresh := true })

/-- A as it stands in memory: 40 bytes in two's complement (03 R74). -/
def accBytes (a : Int) : List Byte := leBytes 40 (BitVec.ofInt 320 a).toNat
def accOfBytes (bs : List Byte) : Int := (BitVec.ofNat 320 (leValue bs)).toInt

/-- A root accumulator: identity, count, sticky bits, the 128 elements. -/
def rootBytes (slot : Nat) (c : Contribution) : List Byte :=
  le8 [2 ^ 63 + slot * 2 ^ 48 + c.chunk * 2 ^ 20 + c.step % 2 ^ 20, c.count, bitIf (c.nanf.any id) 2 + bitIf (c.pinf.any id) 1 + bitIf (c.ninf.any id) 0] ++ c.accs.flatMap accBytes

/-- The contribution that a root accumulator stands for. -/
def rootOf (die : Nat) (bs : List Byte) : Contribution :=
  let g (off : Nat) : Nat := fileNat bs off 8
  let accs := (List.range 128).map (fun i => accOfBytes ((bs.drop (24 + 40 * i)).take 40))
  let flag (n : Nat) : List Bool := List.replicate 128 (bitAt (g 16) n)
  { die := die, slot := bits (g 0) 62 48, chunk := bits (g 0) 47 20, step := bits (g 0) 19 0, count := g 8, accs := accs, nanf := flag 2, pinf := flag 1, ninf := flag 0
    manifest := contributionSum accs }

def dieRecord (b : Berth) (brel : Nat) (d : DieImage) (vars : List (Nat × Nat × Nat)) : List Byte :=
  let roots := d.trees.flatMap (fun t => t.2.chunks.filterMap (fun c => c.2.acc.map (fun a => rootBytes t.1 a)))
  let body := le8 (match d.commits.last with | some (ts, key) => [ts, 2 ^ 63 + key] | none => [0, 0])
    ++ counted 192 (d.tasks.map (fun t => taskBytes b.rel (decide (d.commits.busy = some t.1)) t.1 t.2)) ++ counted 8 (vars.map (fun v => leBytes 2 v.1 ++ leBytes 4 v.2.1 ++ leBytes 2 v.2.2))
    ++ counted 32 (d.trees.map (fun t => treeBytes b.rel t.1 t.2)) ++ counted 5144 roots
  recordBytes 3 brel (64 + body.length) [(64, body)]

def dieOfRecord (b : Berth) (die lid : Nat) (lines : Nat → List Byte) (bs : List Byte) : DieImage :=
  let (tasks, p) := countedAt bs 0x50 192
  let (_, p) := countedAt bs p 8
  let (trees, p) := countedAt bs p 32
  let roots := (countedAt bs p 5144).1.map (rootOf die)
  let key := fileNat bs 0x48 8
  let withRoots (slot : Nat) (t : Tree) : Tree :=
    let cs := (roots.filter (fun r => decide (r.slot = slot))).foldl
      (fun cs r => kset r.chunk { state := 0, merged := r.count, hop := 0, failedAt := 0, acc := some r } cs) t.chunks
    { t with chunks := cs }
  { tasks := (tasks.map (taskOfBytes b lid lines)).foldl (fun m t => kset t.1 t.2 m) []
    commits := { last := if bitAt key 63 then some (fileNat bs 0x40 8, key % 2 ^ 16) else none
                 busy := (tasks.find? busyEntry).map (fun t => lid * 512 + fileNat t 0 8 % 512), from_ := 0, holds := [] }
    trees := (trees.map (treeOfBytes b lid)).foldl (fun m t => kset t.1 (withRoots t.1 t.2) m) [] }

/-! ### Images (20 R364, R368) -/

/-- The bytes of the image of a launch. -/
def SaveImage.encode (i : SaveImage) (l : Launch) (d : LaunchDesc) (level : Nat → Nat) (cycle : Nat) : List Byte :=
  let b := i.berth
  let vars (die : Nat) : List (Nat × Nat × Nat) :=
    (i.clusters.zipIdx.filter (fun k => decide (k.1.1 / 1024 = die))).flatMap (fun k => k.1.2.vars.map (fun v => (v.2.index, k.2, v.1)))
  launchRecord l d b
    ++ i.dies.zipIdx.flatMap (fun p => dieRecord b p.2 p.1.2 (vars p.1.1))
    ++ i.clusters.zipIdx.flatMap (fun p => clusterRecord b p.2 p.1.2)
    ++ i.cores.flatMap (fun p => coreRecord b i.scratch p.1 p.2 (level (groupOf p.1)) cycle ((i.boardings.filter (fun x => decide (x.2.2.core = p.1))).map (·.2))
        (coreLines i.dies p.1))

/-- Ports whose two ends name each other (06 R137). -/
def pairPorts (cores : KMap Core) : KMap Core :=
  cores.map (fun (e : Nat × Core) => (e.1, { e.2 with ports := Vector.ofFn (fun p =>
    let q := e.2.ports.get p
    { q with paired := q.bound && (match kget q.peerCore cores with
      | some k => let r := k.ports.get q.peerPort; r.bound && decide (r.peerCore = e.1) && decide (r.peerPort = p)
      | none => false) }) }))

/-- What an image says of its launch: the LID, the tenant, the doublewords of the description and the core cycles spent. -/
structure ImageHead where
  lid : Nat
  tenant : Nat
  fields : List Nat
  spent : Nat
  deriving DecidableEq, Repr

/-- The launch record of an image, if it passes its checks, and the records after it. -/
def imageHead (bs : List Byte) : Option (ImageHead × List Byte) :=
  (takeRecord 4 0 bs).map (fun (r, rest) =>
    ({ lid := fileNat r 192 8 % 2 ^ 21, tenant := fileNat r 216 8, fields := dwords (r.drop 64) 16, spent := fileNat r 208 8 }, rest))

/-- The berth of an image's launch, at the corner of the first die. -/
def ImageHead.berth (h : ImageHead) : Berth :=
  let d := descOf h.fields
  { die0 := 0, dies := d.dies, col := 0, row := 0, w := d.w, h := d.h }

/-- The image that bytes hold, with the overflow areas (13 R272) that its tenant's memory gives; none where a check of 20 R368 fails. -/
def imageOf (overflow : Nat → Word → List Byte) (bs : List Byte) : Option (ImageHead × SaveImage) :=
  match imageHead bs with
  | none => none
  | some (h, rest) =>
    let b := h.berth
    match takeRecords 3 0 b.dies rest with
    | none => none
    | some (dies, rest) =>
      match takeRecords 2 0 b.clusters.length rest with
      | none => none
      | some (clusters, rest) =>
        match takeRecords 1 0 b.cores.length rest with
        | none => none
        | some (cores, left) =>
          let records := b.cores.zip cores
          let far (r : List Byte) : List Byte := overflow h.tenant (BitVec.ofNat 64 (fileNat r 0x2C68 8))
          let lines (c : Nat) : List Byte := match kget c records with | some r => linesOf r (far r) | none => []
          let scratch := records.flatMap (fun p => scratchOf p.2 p.1)
          let ks := (b.clusters.zip clusters).map (fun p => (p.1, clusterOfRecord b p.1 scratch p.2))
          some (h, { lid := h.lid, addr := 0, size := bs.length - left.length, berth := b
                     cores := pairPorts (records.map (fun p => (p.1, coreOf p.2 (far p.2) b h.lid p.1 ((kget (clusterOf p.1) ks).getD Cluster.reset))))
                     scratch := scratch, poison := [], clusters := ks, dies := dies.zipIdx.map (fun p => (p.2, dieOfRecord b p.2 h.lid lines p.1))
                     boardings := records.flatMap (fun p => (boardingsOf p.2 h.lid p.1).map (fun x => (dieOf p.1, x.1, x.2))), timetable := none })

/-- The rings of an image with the routines that the rows of the launch's tables give them (11 R259). -/
def SaveImage.withRoutines (i : SaveImage) (rows : List LoadRow) : SaveImage :=
  let b := i.berth
  let routine (core n : Nat) : Option Word := (rows.find? (fun r => decide (r.kind = 3) && decide (r.nat 0 1 = n) && (rowCores b r).contains core)).map
    (fun r => BitVec.ofNat 64 (r.nat 8 8))
  let routed (e : Nat × Core) : Nat × Core := (e.1, { e.2 with rings := Vector.ofFn (fun n =>
    let g := e.2.rings.get n
    { g with handler := (routine e.1 n.val).getD g.handler }) })
  { i with cores := i.cores.map routed }

/-- The contexts of an image under serial numbers of their own from n on, 128 to a core. -/
def SaveImage.numbered (i : SaveImage) (n : Nat) : SaveImage :=
  let one (e : (Nat × Core) × Nat) : Nat × Core :=
    let k := e.1.2
    let under (m : Nat) (c : Ctx) : Ctx := { c with serial := n + 128 * e.2 + m }
    (e.1.1, { k with
      ctxs := Vector.ofFn (fun c => under c.val (k.ctxs.get c)), arrivals := k.arrivals.zipIdx.map (fun m => { m.1 with ctx := under (11 + m.2) m.1.ctx })
      swapped := k.swapped.zipIdx.map (fun x => { x.1 with ctx := under (15 + x.2) x.1.ctx }) })
  { i with cores := i.cores.zipIdx.map one }

/-! ### Where images lie (20 R351; 13 R272) -/

/-- The bytes of an overflow area that SPILLOVF names. -/
def State.overflowBytes (s : State) (tenant : Nat) (ovf : Word) : List Byte :=
  match (s.controllerRead tenant (bits ovf.toNat 47 12 * 4096) (bits ovf.toNat 63 48 * 4096)).2 with
  | .ok bs => bs
  | .error _ => []

/-- What the carve-out of a saved core does not hold is written to its overflow area. -/
def State.writeOverflow (s : State) (tenant : Nat) (b : Berth) (dies : KMap DieImage) (core : Nat) (k : Core) : State :=
  let rest := ((spilledBytes k b.rel core (coreLines dies core)).drop (98304 - k.spillBase)).take (bits k.spillOvf.toNat 63 48 * 4096)
  if rest.isEmpty then s else (s.controllerWrite tenant (bits k.spillOvf.toNat 47 12 * 4096) (rest.length / 4096 + 2) rest).1

/-- The module cell of an address that SAVEBASE and RESTOREBASE name: an address of a DRAM of the module, else one of the host
(notes/assumptions/113). -/
def imageCell (v : Nat) : Nat := if isDram v then v else hostBase + v

/-- How far the records at a cell go, record by record, as their headers say. -/
def State.imageExtent (s : State) (at_ : Nat) : Nat → Nat → Nat
  | 0, off => off
  | n + 1, off => if s.peek (at_ + off) 4 = 0x1A525653 then s.imageExtent at_ n (off + recordSize (s.peek (at_ + off + 16) 8)) else off

/-- The bytes of the image at a cell. -/
def State.imageBytes (s : State) (at_ : Nat) : List Byte :=
  let count := 1 + s.peek (at_ + 224) 2 + s.peek (at_ + 226) 2 + s.peek (at_ + 228) 2
  Memory.readBytes s.mem at_ (s.imageExtent at_ count 0)

end Sys2Proof.Machine
end

