-- ==== Sys2Proof/Machine/Halt.lean ====
section
/-! DEFINITION. Pre-emption, save and restore, and the end of a launch (20 R356 to R368; 07 R167; 09 R226). -/

namespace Sys2Proof.Machine

/-! ### The request (20 R360 stage 1, R363) -/

/-- A pre-emption request: a running launch halts 17 or 49 core cycles later, a load stops, and for another it has no effect. -/
def State.requestPreempt (s : State) (lid : Nat) (cancel : Bool) : State :=
  match s.launch lid with
  | none => s
  | some l =>
    match l.state, l.berth with
    | .running, some b =>
      let h := s.cycle + (if b.dies = 1 then 17 else 49)
      (s.setLaunch { l with state := .preempting, requested := s.cycle, haltAt := h, cancel := cancel }).post h (.preemptionRequest lid)
    | .loading, _ => s.stopLoad l cancel
    | _, _ => s

/-! ### Stage 2: contexts (20 R360) -/

/-- The waits that a halt ends with no effect. -/
def Park.ends (p : Park) : Bool :=
  match p with
  | .watch .. | .joining .. | .yielding _ | .fence .. | .vfPush .. | .vfPop .. | .gangLead .. | .gangFollow .. | .gangJoin .. | .mxRead .. | .jobSub ..
  | .jobWait .. | .launching .. | .migrating .. | .otaskSub .. | .cxDef .. | .cxSample .. | .srDef .. | .srDrain .. | .frBoard .. | .pier ..
  | .redTree .. | .redPut .. | .gate .. | .invalidating .. => true
  | .lock _ granted _ _ => granted.isNone
  | .mxGang _ consumed _ => !consumed
  | .redWait _ answer _ _ => answer.isNone
  | _ => false

def State.haltCtx (s : State) (w : CtxId) : State :=
  let p := (s.ctx w).park
  if (s.ctx w).live && p.ends then
    s.cancelPark w
  else s

/-- Forwarded words in a follower's buffer are discarded; the gang stays, but for one whose leader has ended: its follower goes on by itself (08 R202). -/
def Gang.halted (g : Gang) : Gang := if g.stop.isSome then Gang.reset else { g with queue := [], inFlight := 0 }

def State.haltCore (s : State) (core : Nat) : State :=
  let s := (List.finRange 11).foldl (fun s c => s.haltCtx { core := core, ctx := c }) s
  { s.modCore core (fun k => { k with
      halted := true, gang := k.gang.halted
      steal := if k.steal.attempt.isSome then k.steal else { k.steal with backoff := none, level := 0, tried := [] } }) with
    agenda := dropForwarded core s.agenda }

/-! ### Stage 2: engines (20 R361; 07 R167) -/

/-- A slice abandons its row; rows in buffers with no handler, neither on their way to C, are discarded with the rows behind them, and its
release is asked of the limiter (01 R31). -/
def Slice.halt (sl : Slice) (cycle : Nat) : Slice :=
  let stays (b : DrainRow) : Bool := b.handler || b.due.isSome
  let low := (sl.buffers.filter (fun b => !stays b)).foldl (fun n b => min n (b.row % 8)) sl.rows
  { sl with
    rows := low, buffers := sl.buffers.filter (fun b => stays b && (b.handler || decide (b.row % 8 < low))), state := 3, waiting := false, ready := none
    stopReq := if sl.counted then some cycle else sl.stopReq
    rowEnd := none, startReq := none }

/-- The copy unit stops after its current piece: the bytes moved by now are moved, and counted (07 R171). -/
def State.haltCopy (s : State) (cl : Nat) : State :=
  match (s.cluster cl).copyRunning with
  | none => s
  | some (slot, j) =>
    let x := (s.cluster cl).jobs.get slot
    let lead := max (s.windowLat j.core j.src) (if j.kind = 0 then s.windowLat j.core j.dst .write else 1)
    let upto := min j.len (x.done + 64 * (s.cycle + 1 - x.started - lead))
    let (s, done, e) := s.copyPieces cl j upto (j.len / 64 + 1) x.done
    let s := s.modCluster cl (fun k => k.modJob slot.val (fun x => { x with done := done }))
    let s := { s with agenda := s.agenda.filter (fun e => match e.2 with | .copyJobComplete c => decide (c ≠ cl) | _ => true) }
    let s := s.modCluster cl Cluster.dropCopyWait
    match e with
    | some f => if s.pends j.core f then s else (s.modCluster cl (fun k => { k with copying := none })).endJob cl slot 3 (some f)
    | none => s

def State.haltCluster (s : State) (cl : Nat) : State :=
  let s := if (s.cluster cl).running.isSome then
      ((coresOfCluster cl).foldl (fun s c => s.modCore c (fun k => { k with slice := k.slice.halt s.cycle })) s).modCluster cl (fun k => { k with
        paged := k.paged.filter (fun p => decide (p.2.2 = EngineWait.operation) || decide (p.2.2 = EngineWait.copy)) })
    else s
  s.haltCopy cl

/-! ### Stage 2: ordered and crossing tasks (20 R361, R362) -/

/-- Every open task but one whose commit is being performed is discarded: it waits to run again, or its unit submits it again. -/
def State.haltTasks (s : State) (die lid : Nat) : State :=
  let d := s.die die
  let open_ := d.tasks.filter (fun t => decide (t.1 / 512 = lid) && t.2.open_ && decide ((d.commitsOf lid).busy ≠ some t.1))
  let s := open_.foldl (fun s t => s.abortTask die t.1 t.2.crossing.isSome) s
  open_.foldl (fun s t => match t.2.crossing with
    | some slot => s.modVar t.2.cluster slot (fun v => { v with task := none, due := some 0 })
    | none => s) s

/-! ### Stage 2: boardings (09 R226) -/

/-- The boardings of a launch leave their piers. -/
def State.takeBoardings (s : State) (l : Launch) : State × List (Nat × Nat × Boarding) :=
  let mine (b : Boarding) : Bool := b.live && decide (b.lid = l.lid)
  let out := s.dies.flatMap (fun d => (d.2.boardings.filter (fun b => mine b.2)).map (fun b => (d.1, b.1, b.2)))
  ({ s with dies := s.dies.map (fun d =>
      let idents := (d.2.boardings.filter (fun b => mine b.2)).map (fun b => b.2.gen * 1024 + b.1)
      (d.1, { d.2 with
        boardings := d.2.boardings.map (fun b => if mine b.2 then (b.1, { b.2 with live := false, reason := 3 }) else b)
        dock := idents.foldl (fun l i => dropDests i l) d.2.dock })) }, out)

/-- The timetable that a launch has on the ring. -/
def State.ownTimetable (s : State) (l : Launch) : Option Timetable :=
  let f := s.ferry
  if f.running && f.owner = l.lid && !f.leaving then
    some { lid := l.lid, tenant := l.tenant, layers := f.layers, lapLen := f.lapLen, auto := f.auto, div := f.div }
  else none

/-- The image of a launch before anything is in it. -/
def SaveImage.blank (lid : Nat) (b : Berth) : SaveImage :=
  { lid := lid, addr := 0, size := 0, berth := b, cores := [], scratch := [], poison := [], clusters := [], dies := [], boardings := [], timetable := none }

def State.setImage (s : State) (i : SaveImage) : State := { s with images := i :: s.images.filter (fun x => decide (x.lid ≠ i.lid)) }
def State.image (s : State) (lid : Nat) : Option SaveImage := s.images.find? (fun i => decide (i.lid = lid))

/-- Stage 2: from this core cycle no context of the launch issues. -/
def State.stopIssue (s : State) (l : Launch) (b : Berth) : State :=
  let s := (List.range b.dies).foldl (fun s i => s.haltTasks (b.die0 + i) l.lid) s
  let s := b.cores.foldl (fun s c => s.haltCore c) s
  let s := b.clusters.foldl (fun s c => s.haltCluster c) s
  let t := s.ownTimetable l
  let (s, out) := s.takeBoardings l
  { s.setImage { SaveImage.blank l.lid b with boardings := out, timetable := t } with ferry := s.ferry.dropOwner l.lid }

/-- The request has reached every core of the berth (20 R360). Posted for a running launch, it also stands for the request. -/
def execPreemptionRequest (lid : Nat) (s : State) : Host.Outcome State Fault Refusal :=
  match s.launch lid with
  | none => .next s
  | some l =>
    match l.state, l.berth with
    | .preempting, some b => .next (if l.haltAt = s.cycle then s.stopIssue l b else s)
    | .running, some b =>
      let l := { l with state := .preempting, requested := s.cycle, haltAt := s.cycle }
      .next ((s.setLaunch l).stopIssue l b)
    | _, _ => .next s

/-! ### Stage 3 -/

/-- Nothing of a core is outstanding: results, stores, locks, sends, migrations, a move of a context record. -/
def Core.settled (k : Core) : Bool :=
  k.ctxs.toList.all (fun c => !c.live || (c.outstanding.isEmpty && decide (c.unacked = 0) &&
      (match c.park with | .none | .barrier .. | .wired .. => true | _ => false)))
    && k.swapped.all (fun x => x.ctx.outstanding.isEmpty && decide (x.ctx.unacked = 0))
    && k.orphans.isEmpty && decide (k.mover = .idle) && k.steal.attempt.isNone && k.arrivals.all (fun m => m.arrived.isSome)
    && k.slice.buffers.all (fun r => r.due.isNone)

/-- The launch has halted but for its commit being performed. -/
def State.settled (s : State) (l : Launch) (b : Berth) : Bool :=
  b.cores.all (fun c => (s.core c).settled) && !s.agenda.any (fun e => s.traffic l e.2)

/-- A commit of the launch is being performed. -/
def State.committing (s : State) (l : Launch) (b : Berth) : Bool := (List.range b.dies).any (fun i => ((s.die (b.die0 + i)).commitsOf l.lid).busy.isSome)

/-- Traffic of a berth that drains is served ahead of all other (20 R360): what has not arrived 440 core cycles after the halt arrives now. -/
def State.expedite (s : State) (l : Launch) : State :=
  if l.haltAt + 440 ≤ s.cycle then
    { s with agenda := s.agenda.foldr (fun e acc => agendaInsert (if s.traffic l e.2 then min e.1 s.cycle else e.1) e.2 acc) [] }
  else s

/-! ### Stage 4: the save (20 R360, R364 to R367) -/

/-- The bytes of a die record (20 R367). -/
def DieImage.size (d : DieImage) (vars : Nat) : Nat :=
  let accs := (d.trees.map (fun t => (t.2.chunks.filter (fun c => c.2.acc.isSome)).length)).sum
  0x50 + (8 + 192 * d.tasks.length) + (8 + 8 * vars) + (8 + 32 * d.trees.length) + (8 + 5144 * accs)

/-- The bytes of an image (20 R364 to R367). -/
def SaveImage.bytes (i : SaveImage) : Nat :=
  let boardings (c : Nat) : Nat := (i.boardings.filter (fun b => decide (b.2.2.core = c))).length
  let vars (d : Nat) : Nat := ((i.clusters.filter (fun k => decide (k.1 / 1024 = d))).map (fun k => k.2.vars.length)).sum
  256 + (i.dies.map (fun d => recordSize (d.2.size (vars d.1)))).sum + 46592 * i.clusters.length
    + (i.cores.map (fun c => recordSize (0x1D980 + 8 + 32 * boardings c.1))).sum

/-- The cells of a core's scratchpad. -/
def inSpad (b : Berth) (key : Nat) : Bool := match spadOf key with | some (c, _) => b.holds c | none => false

/-- The image of a launch that has halted. -/
def State.buildImage (s : State) (l : Launch) (b : Berth) (addr : Nat) : SaveImage :=
  let i := (s.image l.lid).getD (SaveImage.blank l.lid b)
  let i := { i with
    addr := addr, berth := b
    cores := b.cores.map (fun c => (c, s.core c))
    scratch := s.mem.filter (fun e => inSpad b e.1)
    poison := s.poison.filter (fun p => inSpad b p.1)
    clusters := b.clusters.map (fun c => (c, s.cluster c))
    dies := (List.range b.dies).map (fun n =>
      let d := s.die (b.die0 + n)
      (b.die0 + n, { tasks := d.tasks.filter (fun t => decide (t.1 / 512 = l.lid)), commits := d.commitsOf l.lid
                     trees := d.trees.filter (fun t => decide (t.2.lid = l.lid)) })) }
  { i with size := i.bytes }

/-- The image is kept, and with SAVEBASE its bytes are written there too (20 R351). -/
def State.writeImage (s : State) (l : Launch) (i : SaveImage) : State :=
  let s := s.setImage i
  match i.addr, l.desc with
  | 0, _ => s
  | a, some d =>
    let s := i.cores.foldl (fun s k => s.writeOverflow l.tenant i.berth i.dies k.1 k.2) s
    s.writeMem (imageCell a) (i.encode l d (fun g => (s.group g).level) s.cycle)
  | _, none => s

/-- Every core of the launch halts in monitor mode; the image is written, and the launch goes back to the store, or ends with CAUSE 5
(20 R356, R360). -/
def State.saveLaunch (s : State) (l : Launch) (b : Berth) : State :=
  let l := { l with spent := l.spent + (s.cycle - l.placedAt), saved := true, berth := none, issueAt := none, begun := none, rooms := [], timetable := none }
  let i := s.buildImage l b (s.die l.die).saveBase.toNat
  let s := (s.writeImage l i).clearBerth { l with berth := some b }
  let s := b.cores.foldl (fun s c => s.modCore c (fun k => { k with mode := .monitor })) s
  if l.cancel then s.failLaunch l 5 else (s.complete l.die l.lid 2 0 i.size).reenterStore l l.requested

def execPreemptionHalt (lid : Nat) (s : State) : Host.Outcome State Fault Refusal :=
  match s.launch lid with
  | some l =>
    match l.state, l.berth with
    | .preempting, some b =>
      .next (if l.haltAt < s.cycle && s.settled l b && (!s.committing l b || decide (l.haltAt + 476 ≤ s.cycle)) then s.saveLaunch l b else s)
    | _, _ => .next s
  | none => .next s

/-! ### Restore (20 R368) -/

/-- Where a core of the old berth stands on the new one. -/
def moved (old b : Berth) (core : Nat) : Nat := if old.holds core then b.abs (old.rel core) else core

/-- BARRECT on the new berth. -/
def movedRect (old b : Berth) (r : BitVec 28) : BitVec 28 :=
  let q := rectOf r
  BitVec.ofNat 28 (q.h * 2 ^ 21 + q.w * 2 ^ 13 + (q.col + b.col + 128 - old.col) % 128 * 2 ^ 6 + (q.row + b.row + 64 - old.row) % 64)

/-- A memory cell of a scratchpad moves with its core. -/
def movedKey (old b : Berth) (key : Nat) : Nat := match spadOf key with | some (c, off) => spadCell (moved old b c) off | none => key

def Ctx.moved (c : Ctx) (old b : Berth) : Ctx :=
  { c with
    origin := Sys2Proof.Machine.moved old b c.origin, readyAt := 0
    park := match c.park with
      | .watch va key sz sext cond y d sw => .watch va (movedKey old b key) sz sext cond y d sw
      | .joining va key sw => .joining va (movedKey old b key) sw
      | p => p }

/-- A saved core on the new berth; what the limiter still owes the slice there stays. -/
def Core.moved (k : Core) (old b : Berth) (there : Core) : Core :=
  let f := Sys2Proof.Machine.moved old b
  { k with
    mode := .tenant, halted := true, ctxs := k.ctxs.map (fun c => c.moved old b), bar := { k.bar with rect := movedRect old b k.bar.rect }
    ports := k.ports.map (fun q => if q.bound then { q with peerCore := f q.peerCore } else q)
    swapped := k.swapped.map (fun x => { x with ctx := x.ctx.moved old b })
    arrivals := k.arrivals.map (fun m => { m with ctx := m.ctx.moved old b, source := f m.source })
    clusterPort := Butterfly.reset, groupPort := Butterfly.reset, steal := Steal.reset, lines := [], fetching := [], issuedAt := none
    slice := { k.slice with stopReq := there.slice.stopReq }
    down := false, quiet := 0, waking := none, divBusy := 0, rootBusy := 0 }

def JobKind.moved (j : JobKind) (f : Nat → Nat) : JobKind := match j with | .copy c => .copy { c with core := f c.core } | .matrix op => .matrix op

def Cluster.moved (k : Cluster) (old b : Berth) : Cluster :=
  let f := Sys2Proof.Machine.moved old b
  { k with
    jobs := k.jobs.map (fun j => { j with job := j.job.map (fun x => x.moved f) })
    vars := k.vars.map (fun v => (v.1, { v.2 with owner := f v.2.owner }))
    records := k.records.map (fun r => (r.1, { r.2 with injector := f r.2.injector })) }

/-- Where a cluster of the old berth stands on the new one. -/
def movedCluster (old b : Berth) (cl : Nat) : Nat := clusterOf (moved old b (coreOfCluster cl 0))

/-- A saved tree goes to the die of its root, into its slot if that is free there. -/
def State.restoreTree (s : State) (root slot : Nat) (t : Tree) : State :=
  let die := dieOf root
  let d := s.die die
  let n := if (kget slot d.trees).isNone then some slot else (List.range 1023).findSome? (fun i => if (kget (i + 1) d.trees).isNone then some (i + 1) else none)
  match n with
  | some n => s.setDie die { d with trees := kset n { t with root := root } d.trees }
  | none => s

/-- The cells that a task's buffered stores and its exit name. -/
def OTask.followed (t : OTask) (f : Nat → Nat) : OTask :=
  { t with buffer := t.buffer.map (fun b => (f b.1, b.2)), buffered := t.buffered.map (fun b => { b with cell := f b.cell }), exitDec := t.exitDec.map (fun e => (f e.1, e.2)) }

/-- A restored follower that has not issued all that its leader has issues those words first, by its own fetch (08 R202). -/
def State.lagging (s : State) (core : Nat) : State :=
  let g := (s.core core).gang
  let pc := (s.ctx { core := coreOfCluster (clusterOf core) g.leader.val, ctx := (s.core (coreOfCluster (clusterOf core) g.leader.val)).gang.ctx }).pc
  if g.active && g.attached && decide (g.leader.val ≠ posOf core) && decide ((s.ctx { core := core, ctx := g.ctx }).pc ≠ pc) then
    s.modCore core (fun k => { k with gang := { k.gang with behind := some pc } })
  else s

/-- The state of an image is written to a berth (20 R357 step 3). -/
def State.restoreBerth (s : State) (l : Launch) (b : Berth) (i : SaveImage) : State :=
  let old := i.berth
  let f := moved old b
  let s := { s with
    mem := Memory.restore (s.mem.filter (fun e => !inSpad b e.1)) (i.scratch.map (fun e => (movedKey old b e.1, e.2)))
    poison := s.poison.filter (fun p => !inSpad b p.1) ++ i.poison.map (fun p => (movedKey old b p.1, p.2)) }
  let s := i.cores.foldl (fun s c => s.setCore (f c.1) (c.2.moved old b (s.core (f c.1)))) s
  let s := i.cores.foldl (fun s c => s.lagging (f c.1)) s
  let s := i.clusters.foldl (fun s c => s.setCluster (movedCluster old b c.1) (c.2.moved old b)) s
  i.dies.foldl (fun s d =>
    let die := b.die0 + (d.1 - old.die0)
    let s := s.modDie die (fun k => { k with
      tasks := d.2.tasks.foldl (fun m t => kset t.1 { t.2.followed (movedKey old b) with home := f t.2.home, cluster := movedCluster old b t.2.cluster, running := none } m) k.tasks
      commits := kset l.lid { d.2.commits with from_ := 0, holds := [] } k.commits })
    d.2.trees.foldl (fun s t => s.restoreTree (f t.2.root) t.1 t.2) s) s
where
  /-- Writes listed cells. -/
  Memory.restore (m : Memory) : List Host.Cell → Memory
    | [] => m
    | e :: rest => Memory.restore (Memory.write m e.1 e.2) rest

/-- The image of a launch passes its checks where it lies (20 R368). -/
def State.imageStands (s : State) (i : SaveImage) : Bool :=
  decide (i.addr = 0) || (imageOf s.overflowBytes (s.imageBytes (imageCell i.addr))).any (fun p => decide (p.1.lid = i.lid))

/-- A restored launch is loaded from its image. -/
def State.loadSaved (s : State) (l : Launch) (d : LaunchDesc) (b : Berth) (i : SaveImage) : State :=
  (s.restoreBerth l b i).endLoad l d b i.timetable

/-- The load of a launch goes on (20 R357; 11 R261): its state is written, or its timetable has been installed. From outside, the module
files of its description are given. -/
def execBerthLoad (lid : Nat) (files : List ModuleFile) (s : State) : Host.Outcome State Fault Refusal :=
  match s.launch lid with
  | none => .next s
  | some l =>
    if !files.isEmpty then
      let s := s.loaderWrites l.tenant files
      .next { s with modules := { tenant := l.tenant, desc := l.descAddr, files := files } ::
        s.modules.filter (fun m => !(decide (m.tenant = l.tenant) && decide (m.desc = l.descAddr))) }
    else match l.state, l.berth, l.desc with
      | .loading, some b, some d =>
        if l.issueAt.isSome then .next s
        else if l.timetable.isSome then .next (s.timetableIn l d b)
        else if l.saved then
          (match s.image lid with
          | some i => .next (if s.imageStands i then s.loadSaved l d b i else s.failLoad l 6)
          | none => .next (s.failLoad l 6))
        else .next (s.loadFresh l d b)
      | _, _, _ => .next s

/-! ### The first issue (20 R357, R361; 09 R226; 12 R263) -/

/-- A restored boarding is entered again, under its identifier, for the first lap whose gangway is open. -/
def State.reenterBoarding (s : State) (q n : Nat) (b : Boarding) : State :=
  match s.ferry.layer b.layer with
  | none => s
  | some l => s.modDie q (fun d => { d with
      boardings := kset n { b with live := true, lap := s.ferry.nextOpen l b.firstPair q, state := 0, reason := 3, missedNow := false } d.boardings })

/-- A row that a handler has sent on its way, and whose write had stalled, is written (21 R379). -/
def State.resumeWrites (s : State) (core : Nat) : State :=
  let stuck (b : DrainRow) : Bool := b.handler && b.paged
  let sl := (s.core core).slice
  if sl.buffers.any stuck then
    (s.modSlice core (fun sl => { sl with buffers := sl.buffers.map (fun b => if stuck b then { b with due := some s.cycle, paged := false } else b) })).post s.cycle
      (.drainPathWrite (clusterOf core) (Fin.ofNat 8 (posOf core)))
  else s

/-- The engines of a cluster go on: a matrix operation with new start requests from row 8s + ROWS of each slice, a copy from its count. -/
def State.resumeCluster (s : State) (cl : Nat) : State :=
  let s := (coresOfCluster cl).foldl (fun s c => s.resumeWrites c) s
  let s := match (s.cluster cl).matrixRunning with
    | some (slot, op) =>
      if (s.cluster cl).paged.any (fun p => decide (p.2.2 = EngineWait.operation)) then (s.modCluster cl Cluster.dropMatrixWaits).raiseStarts cl op s.cycle
      else (coresOfCluster cl).foldl (fun s c => s.modCore c (fun k => { k with slice :=
        if k.slice.rows < 8 then { k.slice with state := 1, startReq := some s.cycle } else { k.slice with state := 0 } })) s
    | none => s
  match (s.cluster cl).copyRunning with
  | some (slot, j) =>
    let left := { j with len := j.len - ((s.cluster cl).jobs.get slot).done }
    let time := s.copyTime left
    ((s.modCluster cl (fun k => k.modJob slot.val (fun x => { x with started := s.cycle }))).post (s.cycle + time) (.copyJobComplete cl)).drew
  | none => s

/-- Crossing tasks that the halt discarded are submitted again, stopped units' too. -/
def State.resubmit (s : State) (cl : Nat) : State :=
  if (s.cluster cl).cxRunning then s
  else (((s.cluster cl).vars.filter (fun v => v.2.due.isSome)).map (·.1)).foldl (fun s n =>
    ((s.modCluster cl (fun k => { k with cxRunning := true })).submitCrossing cl n).modCluster cl (fun k => { k with cxRunning := false })) s

/-- The sweeps of arrivals that the record keeps begin again, and tags whose arrivals are complete are released again (06 R144 to R146). -/
def State.resumeBarriers (s : State) (b : Berth) : State :=
  let s := (b.cores.filter (fun c => (s.core c).bar.sent)).foldl (fun s c => s.sendMesh c) s
  (List.range b.dies).foldl (fun s i => (List.finRange 8).foldl (fun s t =>
    if b.cores.any (fun c => decide (dieOf c = b.die0 + i) && bitGet (s.core c).bar.member t) then s.tagComplete (b.die0 + i) t else s) s) s

/-- What a restored launch does in its first core cycle. -/
def State.resumeLaunch (s : State) (l : Launch) (b : Berth) : State :=
  match s.image l.lid with
  | none => s
  | some i =>
    let s := i.boardings.foldl (fun s x => s.reenterBoarding (b.die0 + (x.1 - i.berth.die0)) x.2.1
      { x.2.2 with core := moved i.berth b x.2.2.core }) s
    let s := b.clusters.foldl (fun s c => (s.resumeCluster c).resubmit c) s
    let s := s.resumeBarriers b
    let keys := b.cores.flatMap (fun c => (s.core c).swapped.filterMap (fun x => match x.ctx.park with | .watch _ k .. => some k | .joining _ k _ => some k | _ => none))
    let s := keys.foldl (fun s k => s.post s.cycle (.watchReevaluate { addr := k, ready := s.cycle })) s
    { s with images := s.images.filter (fun x => decide (x.lid ≠ l.lid)) }

/-- A launch begins to issue: its quantum counter is QUANTUM less the load time (20 R356, R357). -/
def State.go (s : State) (l : Launch) (d : LaunchDesc) (b : Berth) : State :=
  let l' := { l with state := .running, issueAt := none, wentAt := l.wentAt.or (some s.cycle), quantum := d.quantum - (s.cycle - l.begun.getD l.placedAt), saved := false }
  let s := b.cores.foldl (fun s c => s.modCore c (fun k => { k with halted := false, mode := .tenant })) (s.setLaunch l')
  if l.saved then s.resumeLaunch l b else s

/-! ### Placement (20 R355 to R357) -/

/-- A launch takes a berth and its load begins: its load time runs from the first request of a launch stopped for that room, and the room
is no longer another's. How long the writes of the load take is free (14 R285). -/
def State.place (s : State) (l : Launch) (b : Berth) : State :=
  let s := (s.leaveStore l.die l.lid).dropSweeps b
  let begun := (l.rooms.filter (fun r => r.2.meets b)).foldl (fun n r => min n r.1) s.cycle
  let s := { s with launches := s.launches.map (fun (e : Nat × Launch) => (e.1, { e.2 with rooms := e.2.rooms.filter (fun r => !r.2.meets b) })) }
  ((s.setLaunch { l with state := .loading, berth := some b, begun := some begun, rooms := [], placedAt := s.cycle }).post
    (s.cycle + 1 + Config.contention s.free) (.berthLoad l.lid [])).drew

/-- The die controller tries to place its head, a saved one after the checks of its image (20 R368); when it cannot, it chooses a launch to
pre-empt, one per 525 core cycles (20 R355, R356). -/
def State.placeHead (s : State) (die : Nat) : State :=
  match s.head die with
  | none => s
  | some h =>
    match h.desc with
    | none => s
    | some d =>
      match s.findBerth h.die d with
      | some b => if h.saved && !(s.image h.lid).any s.imageStands then s.failLaunch h 6 else s.place h b
      | none =>
        if s.cycle < (s.die die).preemptFrom then s
        else match firstToGo (s.candidates h d) with
          | none => s
          | some v =>
            let s := s.modDie die (fun k => { k with preemptFrom := s.cycle + 525 })
            (s.setLaunch { h with rooms := h.rooms ++ (match v.berth with | some x => [(s.cycle, x)] | none => []) }).requestPreempt v.lid false

def execHeadPlacement (die : Nat) (s : State) : Host.Outcome State Fault Refusal := .next (s.placeHead die)

/-- A launch's quantum counter has reached 0 (20 R356). -/
def execQuantumExhausted (lid : Nat) (s : State) : Host.Outcome State Fault Refusal :=
  match s.launch lid with
  | some l => .next (if l.state = .running then s.setLaunch { l with quantum := 0 } else s)
  | none => .next s

/-! ### The end of a launch (20 R358) -/

/-- A core is quiescent. -/
def State.quiescent (s : State) (core : Nat) : Bool :=
  let k := s.core core
  k.ctxs.toList.all (fun c => !c.live) && k.swapped.isEmpty && (s.pending core).isEmpty && k.deque.isEmpty && k.stolen.isEmpty && k.arrivals.isEmpty
    && (match k.steal.attempt with | some a => a.got.isNone | none => true) && k.orphans.isEmpty

/-- A cluster has nothing of its launch left to do. -/
def Cluster.idle (k : Cluster) : Bool :=
  k.jobs.toList.all (fun j => !j.taken || decide (2 ≤ j.state)) && k.gangOffer.isNone && k.records.isEmpty && k.vars.all (fun v => v.2.task.isNone && v.2.due.isNone)

/-- The launch has ended. -/
def State.over (s : State) (l : Launch) (b : Berth) : Bool :=
  b.cores.all (fun c => s.quiescent c) && b.clusters.all (fun c => (s.cluster c).idle)
    && (List.range b.dies).all (fun i =>
      let d := s.die (b.die0 + i)
      (d.commitsOf l.lid).busy.isNone && !d.tasks.any (fun t => decide (t.1 / 512 = l.lid) && t.2.open_))
    && !s.agenda.any (fun e => s.traffic l e.2)

/-- The end: boardings are cancelled, trees and variables cease to exist, the berth is left, and the completion entry is written. -/
def State.endLaunch (s : State) (l : Launch) : State :=
  let s := s.clearBerth l
  { s with launches := kdel l.lid s.launches, images := s.images.filter (fun i => decide (i.lid ≠ l.lid)) }.complete l.die l.lid 0 0
    (l.spent + (s.cycle - l.placedAt + 1))

def State.checkEnd (s : State) (lid : Nat) : State :=
  match s.launch lid with
  | some l =>
    match l.state, l.berth with
    | .running, some b | .preempting, some b => if s.over l b then s.endLaunch l else s
    | _, _ => s
  | none => s

def execLaunchEnd (lid : Nat) (s : State) : Host.Outcome State Fault Refusal := .next (s.checkEnd lid)

/-! ### One core cycle of the die controllers -/

/-- One launch in a core cycle: it begins to issue, its quantum runs, a pre-emption goes on. -/
def State.launchCycle (s : State) (lid : Nat) : State :=
  match s.launch lid with
  | none => s
  | some l =>
    match l.state, l.berth, l.desc with
    | .loading, some b, some d => (match l.issueAt with | some t => if t ≤ s.cycle then s.go l d b else s | none => s)
    | .running, some _, _ => s.setLaunch { l with quantum := l.quantum - 1 }
    | .preempting, some b, _ =>
      let l := { l with quantum := l.quantum - 1 }
      let s := s.setLaunch l
      if l.haltAt < s.cycle then
        (let s := s.expedite l
         if s.settled l b && (!s.committing l b || decide (l.haltAt + 476 ≤ s.cycle)) && !s.over l b then s.saveLaunch l b else s)
      else s
    | _, _, _ => s

/-- The dies that hold launches, or whose store has entries. -/
def State.launchDies (s : State) : List Nat := (s.dies.filter (fun d => !d.2.store.isEmpty)).map (·.1)

/-- The launches and the heads in a core cycle; a launch that ends in it leaves its clusters free from the next. -/
def State.launchesCycle (s : State) : State :=
  let s := (s.launches.map (·.1)).foldl (fun s l => s.launchCycle l) s
  let s := s.launchDies.foldl (fun s d => s.placeHead d) s
  let s := (s.launches.map (·.1)).foldl (fun s l => s.checkEnd l) s
  let s := s.offerTimetable
  if s.cycle % 1050 = 0 then (List.range 32).foldl (fun s d => s.writeActfc d) s else s

end Sys2Proof.Machine
end

