-- ==== Sys2Proof/Machine/Power.lean ====
section
/-! DEFINITION. Power blocks and clock gates (24 R420 to R423). -/

namespace Sys2Proof.Machine

/-- The context is parked in `sys.gate`. -/
def Park.isGate (p : Park) : Bool := match p with | .gate .. => true | _ => false

/-- A core cycle of an upper-die core in which it is quiet (24 R421). -/
def State.quiet (s : State) (core : Nat) : Bool :=
  let k := s.core core
  isUpper core
    && k.ctxs.toList.all (fun c => !c.live || (decide (c.park ≠ .none) && c.outstanding.isEmpty))
    && k.ctxs.toList.any (fun c => c.live && c.park.isGate)
    && !s.slotReserved core && (s.pending core).isEmpty && decide (k.mover = .idle)

/-- A wake of a core stands (24 R422): a condition of a gate, a pending start, or a pre-emption request that has reached it. -/
def State.wakes (s : State) (core : Nat) : Bool :=
  let k := s.core core
  k.halted || !(s.pending core).isEmpty || k.ctxs.toList.any (fun c => c.live && (match c.park with | .gate n seen _ _ => decide (s.gateWord core n seen ≠ 0) | _ => false))

/-- A wake brings a core that is down up 40 core cycles after the core cycle in which it holds, at whose end the model sees it; of one that is up, it cancels
a decision that falls in the same core cycle. -/
def State.wakeCore (s : State) (core : Nat) : State :=
  s.modCore core (fun k => if !k.down then { k with quiet := 0 } else if k.waking.isNone then { k with waking := some (s.cycle + 39) } else k)

def execWake (core : Nat) (s : State) : Host.Outcome State Fault Refusal := .next (s.wakeCore core)

/-- The decision of 24 R421 at the end of the 16th consecutive quiet core cycle, which a wake of that core cycle cancels (24 R422). -/
def State.powerDown (s : State) (core : Nat) : State :=
  if (s.core core).quiet < 16 || !isUpper core then s
  else if s.wakes core then s.modCore core (fun k => { k with quiet := 0 })
  else s.modCore core (fun k => { k with down := true, quiet := 0 })

def execPowerDown (core : Nat) (s : State) : Host.Outcome State Fault Refusal := .next (s.powerDown core)

/-- A core's power block as a core cycle begins. -/
def State.powerStep (s : State) (core : Nat) : State :=
  let k := s.core core
  if k.down then
    match k.waking with
    | some t => if t ≤ s.cycle then s.modCore core (fun k => { k with down := false, waking := none, quiet := 0 }) else s
    | none => if s.wakes core then s.wakeCore core else s
  else if k.quiet < 16 then s else s.powerDown core

/-- A core's power block as a core cycle ends. -/
def State.countQuiet (s : State) (core : Nat) : State :=
  let k := s.core core
  if k.down then s
  else
    let n := if s.quiet core then k.quiet + 1 else 0
    if n = k.quiet then s else s.modCore core (fun k => { k with quiet := n })

/-- Traffic of a core's router is on its way or waits (24 R423). -/
def State.hasFlit (s : State) (core : Nat) : Bool := s.agenda.any (fun e => decide (eventCore e.2 = some core))

/-- A router that has seen no flit for 64 core cycles gates its datapath (24 R423); the delay of the next flit counts as contention. -/
def State.gateRouter (s : State) (core : Nat) : State :=
  if 64 ≤ (s.core core).flitless && !s.hasFlit core then s.modCore core (fun k => { k with routerGated := true }) else s

def execRouterClockGate (core : Nat) (s : State) : Host.Outcome State Fault Refusal := .next (s.gateRouter core)

/-- The core cycles without a flit are counted as each ends. -/
def State.countFlits (s : State) (core : Nat) : State :=
  let n := if s.hasFlit core then 0 else min 64 ((s.core core).flitless + 1)
  (if n = (s.core core).flitless then s else s.modCore core (fun k => { k with flitless := n })).gateRouter core

/-- The first flit to reach a gated router wakes it. -/
def State.ungate (s : State) (core : Nat) : State :=
  if (s.core core).routerGated && s.hasFlit core then s.modCore core (fun k => { k with routerGated := false }) else s

end Sys2Proof.Machine
end

