-- ==== Sys2Proof/Machine/Faults.lean ====
section
/-! DEFINITION. Errors and repair (23 R406 to R418; 24 R424): error-correcting codes and scrubbing, link retry, discarded packets, machine
checks, failing cores and retirement. -/

namespace Sys2Proof.Machine

/-! ### Failing cores (23 R418) -/

/-- Notes an error of a core: at its third uncorrectable error or its second machine check within 2^40 core cycles its row pair is failing. -/
def State.noteError (s : State) (core : Nat) (check : Bool) : State :=
  s.modDie (dieOf core) (fun d =>
    let l := (core, s.cycle, check) :: d.errors.filter (fun e => decide (s.cycle - e.2.1 < 2 ^ 40))
    let n := l.countP (fun e => decide (e.1 = core) && (e.2.2 == check))
    let pair := rowOf core / 2
    { d with errors := l, failing := if (if check then 2 else 3) ≤ n && !d.failing.contains pair then d.failing ++ [pair] else d.failing })

/-- A launch's berth touches a row pair of a die. -/
def Berth.touchesPair (b : Berth) (die pair : Nat) : Bool :=
  decide (b.die0 ≤ die) && decide (die < b.die0 + b.dies) && decide (b.row / 2 ≤ pair) && decide (pair < (b.row + b.h + 1) / 2)

/-- The errors noted behind a retirement: the row pairs above stand one lower. -/
def errorsBelow (pair : Nat) (l : List (Nat × Nat × Bool)) : List (Nat × Nat × Bool) :=
  (l.filter (fun e => decide (rowOf e.1 / 2 ≠ pair))).map (fun e => if pair < rowOf e.1 / 2 then (e.1 - 256, e.2) else e)

/-- The die controller retires a failing row pair that no berth touches: the pairs above shift towards the spare one, at the same logical
coordinates; a second retirement takes the die out of service. -/
def State.retirePair (s : State) (die pair : Nat) : State :=
  let d := s.die die
  if !d.failing.contains pair || s.launches.any (fun e => match e.2.berth with | some b => b.touchesPair die pair | none => false) then s
  else
    let s := s.setDie die { d with
      failing := (d.failing.filter (fun p => decide (p ≠ pair))).map (fun p => if pair < p then p - 1 else p), errors := errorsBelow pair d.errors
      retired := d.retired ++ [pair], outOfService := d.outOfService || !d.retired.isEmpty }
    s.logFault die { FaultRecord.blank with type := 10, unit := 3, core := coreAt die 0 (2 * pair) }

def execCoreRetirement (die pair : Nat) (s : State) : Host.Outcome State Fault Refusal := .next (s.retirePair die pair)

/-- Retirements that have become possible. -/
def State.retirePairs (s : State) : State :=
  (s.dies.filter (fun d => !d.2.failing.isEmpty)).foldl (fun s d => d.2.failing.foldl (fun s p => s.retirePair d.1 p) s) s

/-! ### Machine checks (23 R410) -/

/-- A launch struck by a machine check: pre-empted and saved when its saved items are intact, ended with CAUSE 7 otherwise, its slices released through the
limiter (01 R31). -/
def State.checkLaunch (s : State) (lid : Nat) (intact : Bool) : State :=
  if intact then s.requestPreempt lid false
  else match s.launch lid with
    | some l =>
      match l.berth with
      | some b =>
        let s := (b.clusters.foldl (fun s c => s.haltCluster c) s).clearBerth l
        let s := b.cores.foldl (fun s c => s.modCore c (fun k => { k with mode := .monitor })) s
        { s with launches := kdel lid s.launches, images := s.images.filter (fun i => decide (i.lid ≠ lid)) }.complete l.die lid 1 7
          (l.spent + (s.cycle - l.placedAt + 1))
      | none => s
    | none => s

/-- The record of a machine check, charged to the core's launch. -/
def State.logCheck (s : State) (core : Nat) : State :=
  s.logFault (dieOf core) { FaultRecord.blank with
    tenant := s.tenantOf core, cause := causeCode .machineCheck, type := 8, lid := (s.core core).lid, unit := 3, core := core }

def State.machineCheck (s : State) (core : Nat) (intact : Bool) : State :=
  let lid := (s.core core).lid
  (((s.logCheck core).noteError core true).wakeCore core).checkLaunch lid intact

def execMachineCheck (core : Nat) (intact : Bool) (s : State) : Host.Outcome State Fault Refusal := .next (s.machineCheck core intact)

/-- A machine check reaches every core of a die (24 R422). -/
def State.wakeDie (s : State) (die : Nat) : State :=
  ((s.cores.filter (fun c => decide (dieOf c.1 = die))).map (·.1)).foldl (fun s c => s.wakeCore c) s

/-- A machine check of a whole die (23 R408, R410; 24 R424): it leaves service until module reset, and its launches are saved where all that a save needs is
intact, a free value for each. -/
def State.dieCheck (s : State) (die : Nat) : State :=
  let s := s.logFault die { FaultRecord.blank with cause := causeCode .machineCheck, type := 8, unit := 9, core := coreAt die 0 0 }
  let s := s.modDie die (fun d => { d with outOfService := true })
  (s.launches.filter (fun e => match e.2.berth with | some b => decide (b.die0 ≤ die) && decide (die < b.die0 + b.dies) | none => false)).foldl
    (fun s e => (s.checkLaunch e.1 s.freeBool).drew) (s.wakeDie die)

def execJunctionLimit (die : Nat) (s : State) : Host.Outcome State Fault Refusal := .next (s.dieCheck die)

/-! ### Links (23 R408) -/

/-- A flit is refused, and its sender sends it again; the 32nd refusal in a row fails the link, whose dies leave service. -/
def execLinkFlitRefused (link a b : Nat) (again : Bool) (s : State) : Host.Outcome State Fault Refusal :=
  let n := if again then (kget link s.refusals).getD 0 + 1 else 1
  let s := { s with refusals := kset link n s.refusals }
  if n < 32 || s.failedLinks.contains link then .next s
  else
    let s := { s with failedLinks := link :: s.failedLinks }
    let s := s.logFault a { FaultRecord.blank with type := 3, seg := BitVec.ofNat 32 link, unit := 4, core := coreAt a 0 0 }
    let s := s.dieCheck a
    .next (if a = b then s else s.dieCheck b)

/-! ### Memories (23 R406, R407) -/

/-- A page that a lookaside maps at a cell is under zero-map form (03 R71). -/
def State.zeroMapped (s : State) (key : Nat) : Bool := decide (zeroMapWidth (s.blockFormat (key / 512)) ≠ 0)

/-- The poison granule of a cell: 8 bytes of a scratchpad, 64 bytes of DRAM or a weight store, 512 under zero-map form. -/
def State.granule (s : State) (key : Nat) : Nat × Nat :=
  match spadOf key with
  | some _ => (key / 8 * 8, 8)
  | none => if s.zeroMapped key then (key / 512 * 512, 512) else (key / 64 * 64, 64)

/-- The tenant and the launch whose data a cell of DRAM or of a weight store holds: those that a lookaside maps there (23 R416). -/
def State.dataOf (s : State) (key : Nat) : Nat × Nat :=
  match s.dies.findSome? (fun d => (d.2.pages ++ d.2.ranges).find? (fun e =>
    decide (e.loc ≠ 2) && decide (e.frame ≤ key) && decide (key < e.frame + (e.limit - e.base)))) with
  | some e => (match s.launches.find? (fun l => decide (l.2.tenant = e.tenant) && l.2.berth.isSome) with | some l => (e.tenant, l.1) | none => (e.tenant, 0))
  | none => (0, 0)

/-- The record of an error at a cell: charged to the launch of a scratchpad's core; of a DRAM or a weight store, an error that leaves poison to the launch
whose data it strikes, and one that scrubbing corrects to none. -/
def State.logError (s : State) (key type : Nat) : State :=
  match spadOf key with
  | some (c, off) =>
    s.logFault (dieOf c) { FaultRecord.blank with tenant := s.tenantOf c, type := type, lid := (s.core c).lid, addr := off, unit := 0, core := c }
  | none =>
    let die := key / 2 ^ 36 * 2 + (if isWeightStore key && decide (0xF10000000 ≤ key % 2 ^ 36) then 1 else 0)
    let owner := if type = 1 then (0, 0) else s.dataOf key
    s.logFault die { FaultRecord.blank with tenant := owner.1, type := type, lid := owner.2, phys := true, addr := key, unit := if isWeightStore key then 2 else 1, core := coreAt die 0 0 }

/-- What the code finds at a cell (scrubbing, or an access): a corrected error is written back and recorded; an uncorrectable one poisons
its granule. -/
def State.scrubCell (s : State) (key : Nat) (finding : EccFinding) : State :=
  match finding with
  | .clean => s
  | .corrected => s.logError key 1
  | .uncorrectable =>
    let g := s.granule key
    let s := (s.logError key 2)
    let s := if s.poison.contains g then s else { s with poison := g :: s.poison }
    match spadOf key with | some (c, _) => s.noteError c false | none => s

/-- What it finds in a word of a core that carries no poison: an error that it cannot correct is a machine check, and one more uncorrectable error of the
core (23 R406, R410, R418). Whether what a save needs is intact then is a free value. -/
def State.scrubWord (s : State) (core : Nat) (finding : EccFinding) : State :=
  match finding with
  | .clean => s
  | .corrected => s.logFault (dieOf core) { FaultRecord.blank with tenant := s.tenantOf core, type := 1, lid := (s.core core).lid, unit := 3, core := core }
  | .uncorrectable => ((s.noteError core false).machineCheck core s.freeBool).drew

/-- What it finds in the header of a chunk on the ring: one that it cannot correct fails the chunk at the next pier (22 R401; 23 R406). -/
def State.scrubHeader (s : State) (pair chunk : Nat) (finding : EccFinding) : State :=
  match s.ferry.pairs[pair]? with
  | none => s
  | some (cs, source, h) =>
    match finding with
    | .clean => s
    | .corrected => s.logFault (pairPier cs source h) { FaultRecord.blank with type := 1, unit := 6, core := coreAt (pairPier cs source h) 0 0 }
    | .uncorrectable =>
      { s with ferry := { s.ferry with pairs := s.ferry.pairs.set pair (cs.modify chunk (fun c => { c with torn := true }), source, h) } }

/-- What it finds in a die controller's own state: an error that it cannot correct is an internal error (23 R410). -/
def State.scrubController (s : State) (die : Nat) (finding : EccFinding) : State :=
  match finding with
  | .clean => s
  | .corrected => s.logFault die { FaultRecord.blank with type := 1, unit := 9, core := coreAt die 0 0 }
  | .uncorrectable => s.dieCheck die

def execScrub (at_ : EccPlace) (finding : EccFinding) (s : State) : Host.Outcome State Fault Refusal :=
  .next (match at_ with
    | .cell key => s.scrubCell key finding
    | .word core => s.scrubWord core finding
    | .header pair chunk => s.scrubHeader pair chunk finding
    | .controller die => s.scrubController die finding)

/-! ### Discarded packets (23 R409) -/

/-- An access beyond the group is answered (14 R301). -/
def State.answered (s : State) (core : Nat) (beyond : Bool) : State :=
  if beyond then s.modCore core (fun k => { k with beyond := k.beyond - 1 }) else s

/-- The entry that a lost result would have pushed on a port does not come, and its credit is free again. -/
def State.dropEntry (s : State) (w : CtxId) (d : Dest) : State :=
  match d with
  | .x r =>
    if !(s.core w.core).isPort r then s
    else match portOf r with
      | none => s
      | some p =>
        let q := (s.core w.core).ports.get p
        match s.agenda.reverse.find? (fun e => match e.2 with
          | .queueEntryArrival c n _ => decide (c = q.peerCore) && decide (n = q.peerPort)
          | _ => false) with
        | some e => { s with agenda := (s.agenda.reverse.erase e).reverse }.unreserveX w r
        | none => s
  | _ => s

/-- The sender's answer to the negative reply for a result (23 R409): the context traps at the word of its access, or, its core raising a machine check
instead, stands at that word again. -/
def State.resultLost (s : State) (w : CtxId) (d : Dest) (va : Word) (tell : Bool) : State :=
  let s := s.dropEntry w d
  if tell then s.faultResult w d { cause := .poison, val := va } else (s.cancelPark w).modCtx w (fun c => c.faulted d)

/-- A request or a reply for a register is discarded: an atomic that has not reached its home is not performed, and the result is gone. -/
def State.loseReply (s : State) (w : CtxId) (d : Dest) (va : Word) (tell : Bool) : State :=
  let lost (e : Nat × Instr) : Option ((Nat × Instr) × Bool) := match e.2 with
    | .resultWrite v r => if v = w && r.dest = d then some (e, r.beyond) else none
    | .amoHomeApply r => if r.who.slot = w && r.dest.map Dest.x = some d then some (e, r.beyond) else none
    | _ => none
  match s.agenda.findSome? lost with
  | some (e, beyond) => ({ s with agenda := s.agenda.erase e }.answered w.core beyond).resultLost w d va tell
  | none => s

/-- A store on its way is discarded: the bytes that it replaced stand again. -/
def State.unstore (s : State) (w : CtxId) (va : Word) : State :=
  match s.posted.find? (fun p => decide (p.who.slot = w) && decide (s.cycle ≤ p.due) && decide (p.key % 4096 = va.toNat % 4096)) with
  | some p => { s.writePhys p.key p.old with posted := s.posted.erase p }
  | none => s

/-- The poisoned acknowledgements of a request's senders (06 R129), or none where the machine check of their core stands for them. -/
def State.tellPosted (s : State) (l : List Issuer) (va : Word) (tell : Bool) : State :=
  if tell then l.foldl (fun s i => s.post s.cycle (.postedPoisonTrap i va)) s else s

/-- The negative reply to a store, a posted atomic or a send (23 R409): the packet is discarded, nothing that it carries is performed, and each context
whose request it carries traps at its next instruction boundary (06 R129). -/
def State.losePosted (s : State) (w : CtxId) (va : Word) (tell : Bool) : State :=
  let lost (e : Nat × Instr) : Bool := match e.2 with
    | .amoHomeApply r => r.dest.isNone && r.members.any (fun m => decide (m.slot = w)) && decide (r.va = va)
    | .messageArrival m => decide (m.who.slot = w)
    | _ => false
  match s.agenda.find? lost with
  | some (d, .amoHomeApply r) => ({ s with agenda := s.agenda.erase (d, .amoHomeApply r) }.ackMembers r).tellPosted r.members va tell
  | some (d, .messageArrival m) =>
    let s := { s with agenda := s.agenda.erase (d, .messageArrival m) }.acknowledge m.who
    let s := (s.unreserveX w m.dest).modCtx w (fun c => { c with outstanding := dropOut (.x m.dest) c.outstanding })
    (s.tellPosted [m.who] va tell).resultsHome w
  | _ => (s.unstore w va).tellPosted [s.issuer w] va tell

/-- A lost contribution (23 R411): the sender's interface tells the root, with PORT 7. -/
def State.loseContribution (s : State) (router die slot chunk step : Nat) : State :=
  match kget slot (s.die die).trees with
  | none => s
  | some t =>
    let lost (e : Nat × Instr) : Bool := match e.2 with
      | .contributionArrival r _ c => decide (r = router) && decide (c.die = die) && decide (c.slot = slot) && decide (c.chunk = chunk) && decide (c.step = step)
      | _ => false
    match s.agenda.find? lost with
    | none => s
    | some e =>
      let s := { s with agenda := s.agenda.erase e }
      (s.post (s.cycle + s.linkDelay router t.root) (.failureNotice die slot chunk step (BitVec.ofNat 32 (7 * 2 ^ 29 + router)))).drew

/-- The word that a context is parked in ends with a trap, or stands to be issued again: its request or its reply is lost. -/
def State.loseParked (s : State) (w : CtxId) (va : Word) (tell : Bool) : State :=
  match (s.ctx w).park with
  | .lock d _ _ _ =>
    let s := { s with
      agenda := s.agenda.filter (fun e => match e.2 with | .lockResend r => decide (r.who ≠ w) | _ => true)
      dies := s.dies.map (fun (x : Nat × Die) => (x.1, { x.2 with locks := x.2.locks.filter (fun r => decide (r.who ≠ w)) })) }
    if tell then s.raiseParked w d { cause := .poison, val := va } else s.cancelPark w
  | _ => s

/-- A receiver discards a packet whose tenant field it cannot read, makes a record charged to no tenant, and answers its sender, whose core raises a machine
check where its own copy of the tenant is bad too; whether what a save needs is intact then is a free value. -/
def execTenantFieldError (w : CtxId) (va : Word) (p : Packet) (copyGood : Bool) (s : State) : Host.Outcome State Fault Refusal :=
  let die := if va.toNat < 0x2000000 then dieOf w.core else homeDie va.toNat
  let s := s.logFault die { FaultRecord.blank with type := 4, tunk := true, addr := va.toNat, unit := 5, core := w.core }
  let s := match p with
    | .reply d => s.loseReply w d va copyGood
    | .parked => s.loseParked w va copyGood
    | .posted => s.losePosted w va copyGood
    | .engine .matrix => s.failMatrix (clusterOf w.core) (.poison, va)
    | .engine .copy =>
      (match (s.cluster (clusterOf w.core)).copyRunning with
      | some (slot, _) => (s.modCluster (clusterOf w.core) (fun k => { k with copying := none })).endJob (clusterOf w.core) slot 3 (some (.poison, va))
      | none => s)
    | .contribution router d slot chunk step => s.loseContribution router d slot chunk step
  .next (if copyGood then s else (s.machineCheck w.core s.freeBool).drew)

end Sys2Proof.Machine
end

