-- ==== Sys2Proof/Machine/Host.lean ====
section
/-! DEFINITION. The host (20 R351, R353; 21 R370, R378, R379, R384 to R388; 23 R417; 24 R425 to R429): the register blocks, invalidation,
page requests, page migration, scale-out transfers, CXL.mem, module reset, firmware and attestation. -/

namespace Sys2Proof.Machine

/-! ### Launch registers (20 R350, R351, R356, R368) -/

def Die.setLreq (d : Die) (i : Fin 4) (v : Word) : Die := { d with lreq := d.lreq.set i.val v i.isLt }

/-- The write of LREQ3 submits the request under the tenant of LTENANT (20 R351; 21 R371, R387). -/
def State.submitLreq (s : State) (die : Nat) (v : Word) : State :=
  if !(s.die die).ready then s
  else
    let s := s.modDie die (fun d => d.setLreq 3 v)
    let d := s.die die
    let tenant := bits d.ltenant.toNat 15 0
    if tenant = 0 then s.modDie die (fun d => { d with lreply := 0 })
    else
      let (s, lid) := s.enterLaunch die tenant (d.lreq.get 0 &&& 0xFFFFFFFFFFFF) (bitAt v.toNat 8) (d.lreq.get 1) (d.lreq.get 2) (bits v.toNat 1 0)
      s.modDie die (fun d => { d with lreply := BitVec.ofNat 64 lid })

def execLreq (die : Nat) (v : Word) (s : State) : Host.Outcome State Fault Refusal := .next (s.submitLreq die v)

/-- PREEMPTLID pre-empts the running launch named, with bit 63 for good (20 R356, R363). -/
def State.preemptNamed (s : State) (die : Nat) (v : Word) : State :=
  if (s.die die).ready then s.requestPreempt (bits v.toNat 20 0) (v.getLsbD 63) else s

def execPreemptlid (die : Nat) (v : Word) (s : State) : Host.Outcome State Fault Refusal := .next (s.preemptNamed die v)

/-- An image enters the store as a saved launch, with the timetable of its load list, if it has one. -/
def State.enterImage (s : State) (die : Nat) (h : ImageHead) (i : SaveImage) (t : Option Timetable) : State :=
  let d := descOf h.fields
  ({ s with serials := s.serials + 128 * i.cores.length }.setImage { i.numbered (s.serials + 1) with timetable := t }).reenterStore
    { lid := h.lid, tenant := h.tenant, die := die, descAddr := 0, own := false, reqArg0 := 0, reqArg1 := 0, reqPrio := 0, desc := some d, prio := d.prio
      age := s.cycle, state := .pending, berth := none, quantum := 0, begun := none, rooms := [], placedAt := 0, issueAt := none, wentAt := none, timetable := none
      requested := 0, haltAt := 0, spent := h.spent, cancel := false, saved := true } s.cycle

/-- RESTOREBASE enters the image at an address as a saved launch of the die (20 R352, R368). Bytes that fail their checks end the launch that
they name with CAUSE 6. The image of a launch that is on the module already enters nothing (notes/assumptions/113). -/
def State.restoreImage (s : State) (die : Nat) (v : Word) : State :=
  if !(s.die die).ready then s
  else
    let at_ := imageCell v.toNat
    match imageOf s.overflowBytes (s.imageBytes at_) with
    | none => s.complete die (s.peek (at_ + 192) 8 % 2 ^ 21) 1 6 0
    | some (h, i) =>
      let d := descOf h.fields
      let fail (s : State) (cause : Nat) : State := s.complete die h.lid 1 cause h.spent
      if (s.launch h.lid).isSome then s
      else match s.readTables h.tenant d.tables.toNat with
        | (s, .error _) => fail s 1
        | (s, .ok rows) =>
          if !descReserved h.fields || !d.ok then fail s 2
          else if (searchBerth die d.w d.h d.dies (fun b => if s.serves b then some b else none)).isNone then fail s 3
          else match timetableOf [] i.berth h.lid h.tenant rows with
            | none => fail s 6
            | some t => s.enterImage die h (i.withRoutines rows) t

def execRestorebase (die : Nat) (v : Word) (s : State) : Host.Outcome State Fault Refusal := .next (s.restoreImage die v)

/-! ### Invalidation and page requests (21 R378, R379, R387) -/

/-- INVAL begins an invalidation, which every die completes. -/
def State.beginInval (s : State) (die : Nat) (v : Word) : State :=
  let n := v.toNat
  (s.modDie die (fun d => { d with invals := d.invals ++ [(s.cycle + s.invalidateLat, bits n 15 0, if bitAt n 16 then none else some (bits n 63 28))] })).drew

def execInval (die : Nat) (v : Word) (s : State) : Host.Outcome State Fault Refusal := .next (s.beginInval die v)

/-- Invalidations of a die that every die has completed, with every access that used what they drop, are counted in INVALDONE. -/
def State.endInvals (s : State) (die : Nat) : State :=
  let ends (i : Nat × Nat × Option Nat) : Bool := decide (i.1 ≤ s.cycle) && !s.pageBusy i.2.1 i.2.2
  let due := (s.die die).invals.filter ends
  let s := due.foldl (fun s i => s.dropEntries i.2.1 i.2.2) s
  if due.isEmpty then s
  else s.modDie die (fun d => { d with
    invals := d.invals.filter (fun i => !ends i), invalDone := d.invalDone + BitVec.ofNat 64 due.length })

/-- Held page requests are written in order while the ring has room. -/
def State.releaseRequests (s : State) (die : Nat) : State :=
  let (s, l) := (s.die die).requests.foldl (fun (acc : State × List PageRequest) r =>
    if r.written then (acc.1, acc.2 ++ [r]) else let (s, r) := acc.1.sendRequest die r; (s, acc.2 ++ [r])) (s, [])
  s.modDie die (fun d => { d with requests := l })

def State.writePrqhead (s : State) (die : Nat) (v : Word) : State := (s.modDie die (fun d => { d with prqHead := v })).releaseRequests die

def execPrqhead (die : Nat) (v : Word) (s : State) : Host.Outcome State Fault Refusal := .next (s.writePrqhead die v)

/-- A stalled engine access is tried again. -/
def State.retryAccess (s : State) (cl : Nat) (w : EngineWait) : State :=
  match w with
  | .operation => (match (s.cluster cl).matrixRunning with | some (_, op) => s.raiseStarts cl op s.cycle | none => s)
  | .row p => if (s.core (coreOfCluster cl p)).slice.waiting then s.restartRow (coreOfCluster cl p) else s
  | .write p row =>
    (s.modSlice (coreOfCluster cl p) (fun sl => { sl with
      buffers := sl.buffers.map (fun b => if b.row = row && b.paged then { b with due := some s.cycle, paged := false } else b) })).post s.cycle
      (.drainPathWrite cl (Fin.ofNat 8 p))
  | .copy => s.post s.cycle (.copyJobComplete cl)

/-- The stalled accesses of a tenant's page, in arrival order. -/
def State.stalledOn (s : State) (tenant page : Nat) : List (Nat × Nat × EngineWait) :=
  let l := s.clusters.flatMap (fun (k : Nat × Cluster) => if s.tenantOf (coreOfCluster k.1 0) = tenant then
    (k.2.paged.filter (fun p => decide (p.2.1 = page))).map (fun p => (p.1, k.1, p.2.2)) else [])
  l.mergeSort (fun a b => decide (a.1 ≤ b.1))

/-- PRESOLVE retries every stalled access of a page that the die homes (21 R379). -/
def State.presolve (s : State) (die : Nat) (v : Word) : State :=
  let tenant := bits v.toNat 15 0
  let page := bits v.toNat 63 28
  let s := s.modDie die (fun d => { d with requests := d.requests.filter (fun r => !(decide (r.tenant = tenant) && decide (r.page = page))) })
  if homeDie (page * 4096) ≠ die then s
  else
    let l := s.stalledOn tenant page
    l.foldl (fun s e => s.retryAccess e.2.1 e.2.2) (l.foldl (fun s e =>
      s.modCluster e.2.1 (fun k => { k with paged := k.paged.filter (fun p => !(decide (p.2.1 = page) && decide (p.2.2 = e.2.2))) })) s)

def execPresolve (die : Nat) (v : Word) (s : State) : Host.Outcome State Fault Refusal := .next (s.presolve die v)

/-! ### The fault ring (23 R417; 24 R425 step 6) -/

/-- The first write of FQBASE replays the kept records and sets READY. -/
def State.writeFqbase (s : State) (die : Nat) (v : Word) : State :=
  let s := s.modDie die (fun d => { d with fqBase := v })
  let d := s.die die
  if d.ready || d.failStep ≠ 0 then s
  else (d.log.foldl (fun s r => s.ringFault die { r with replay := true }) s).modDie die (fun d => { d with ready := true })

def execFqbase (die : Nat) (v : Word) (s : State) : Host.Outcome State Fault Refusal := .next (s.writeFqbase die v)

/-! ### The register block (20 R351; 21 R387; 23 R417; 24 R426) -/

/-- A write of 8 aligned bytes at an offset of a die's block; a register that is read-only, or none, ignores it. -/
def State.writeHostReg (s : State) (die off : Nat) (v : Word) : State :=
  let d := s.die die
  match off with
  | 0x000 => if d.ready then s.setDie die (d.setLreq 0 v) else s
  | 0x008 => if d.ready then s.setDie die (d.setLreq 1 v) else s
  | 0x010 => if d.ready then s.setDie die (d.setLreq 2 v) else s
  | 0x018 => s.submitLreq die v
  | 0x028 => s.preemptNamed die v
  | 0x030 => s.setDie die { d with saveBase := v }
  | 0x038 => s.restoreImage die v
  | 0x040 => s.setDie die { d with cqBase := v }
  | 0x048 => s.setDie die { d with cqSize := v }
  | 0x050 => s.setDie die { d with cqHead := v }
  | 0x100 => s.setDie die { d with ttBase := v }
  | 0x108 => s.setDie die { d with ttCount := v }
  | 0x110 => s.beginInval die v
  | 0x120 => s.setDie die { d with prqBase := v }
  | 0x128 => s.setDie die { d with prqSize := v }
  | 0x138 => s.writePrqhead die v
  | 0x140 => s.presolve die v
  | 0x148 => s.setDie die { d with ltenant := v }
  | 0x180 => s.writeFqbase die v
  | 0x188 => s.setDie die { d with fqSize := v }
  | 0x190 => s.setDie die { d with fqHead := v }
  | _ => s

/-- The step of 24 R425 in progress: none at reset, the sixth until READY, and none of a die that has failed one. -/
def State.bootStep (s : State) (die : Nat) : Nat := if s.cycle = 0 || (s.die die).ready || (s.die die).failStep ≠ 0 then 0 else 6

/-- What a register of a die's block reads as; a write-only register, or none, reads zero. -/
def State.readHostReg (s : State) (die off : Nat) : Word :=
  let d := s.die die
  match off with
  | 0x020 => d.lreply
  | 0x030 => d.saveBase
  | 0x040 => d.cqBase
  | 0x048 => d.cqSize
  | 0x050 => d.cqHead
  | 0x058 => d.cqTail
  | 0x100 => d.ttBase
  | 0x108 => d.ttCount
  | 0x118 => d.invalDone
  | 0x120 => d.prqBase
  | 0x128 => d.prqSize
  | 0x130 => d.prqTail
  | 0x138 => d.prqHead
  | 0x148 => d.ltenant
  | 0x180 => d.fqBase
  | 0x188 => d.fqSize
  | 0x190 => d.fqHead
  | 0x198 => d.fqTail
  | 0x1A0 => d.fqLost
  | 0x1C0 => BitVec.ofNat 64 (s.boot.running.toNat * 2 ^ 32 + bitIf d.ready 8 + d.failStep % 16 * 16 + s.bootStep die)
  | 0x1C8 => s.boot.floor.setWidth 64
  | _ => 0

def execHostRegisterWrite (die off : Nat) (v : Word) (s : State) : Host.Outcome State Fault Refusal := .next (s.writeHostReg die off v)

/-! ### Translation and migration (21 R370, R385) -/

/-- A request arrives at the interface of a die: the lookaside, A and D, and a page request change as its translation says. -/
def execHomeTranslation (die tenant : Nat) (kind : AccessKind) (va : Word) (s : State) : Host.Outcome State Fault Refusal :=
  if homeDie va.toNat = die then .next (s.translate tenant kind va.toNat).1 else .next s

/-- A cell of n bytes that move from one place to another. -/
def carried (old new n key : Nat) : Nat := if old ≤ key ∧ key < old + n then new + (key - old) else key

/-- What watches a cell, or is on its way to it, follows the page (21 R385 step 2). -/
def Park.followed (p : Park) (f : Nat → Nat) : Park :=
  match p with
  | .watch va key sz sext cond y d sw => .watch va (f key) sz sext cond y d sw
  | .joining va key sw => .joining va (f key) sw
  | p => p

/-- A lock request whose word has moved waits at the new owner. -/
def followLock (r : LockReq) (f : Nat → Nat) (owner : Nat) : LockReq := if f r.addr = r.addr then r else { r with addr := f r.addr, owner := some owner }

def followInstr (i : Instr) (f : Nat → Nat) (owner : Nat) : Instr :=
  match i with
  | .amoHomeApply r => .amoHomeApply { r with addr := f r.addr }
  | .lockResend r => .lockResend (followLock r f owner)
  | .lockReevaluate a => .lockReevaluate (f a)
  | .watchReevaluate l => .watchReevaluate { l with addr := f l.addr }
  | i => i

def Core.followed (k : Core) (f : Nat → Nat) : Core :=
  { k with
    ctxs := k.ctxs.map (fun c => { c with park := c.park.followed f })
    swapped := k.swapped.map (fun x => { x with ctx := { x.ctx with park := x.ctx.park.followed f } })
    lines := k.lines.map (fun (l : Nat × Nat × List (BitVec 32)) => (l.1, f l.2.1, l.2.2)) }

def SaveImage.followed (i : SaveImage) (f : Nat → Nat) : SaveImage :=
  { i with
    cores := i.cores.map (fun (k : Nat × Core) => (k.1, k.2.followed f))
    dies := i.dies.map (fun (d : Nat × DieImage) => (d.1, { d.2 with tasks := d.2.tasks.map (fun (t : Nat × OTask) => (t.1, t.2.followed f)) })) }

/-- Everything that names a cell that has moved names its new place, in a saved launch too; the wait lists move to the new owner in arrival order. -/
def State.pageFollowed (s : State) (f : Nat → Nat) (owner : Nat) : State :=
  let waits := (s.dies.flatMap (fun d => d.2.locks.filter (fun r => decide (f r.addr ≠ r.addr)))).map (fun r => followLock r f owner)
  let s := { s with
    cores := s.cores.map (fun (k : Nat × Core) => (k.1, k.2.followed f))
    images := s.images.map (fun i => i.followed f)
    dies := s.dies.map (fun (d : Nat × Die) => (d.1, { d.2 with
      tasks := d.2.tasks.map (fun (t : Nat × OTask) => (t.1, t.2.followed f))
      locks := d.2.locks.filter (fun r => decide (f r.addr = r.addr)) }))
    agenda := s.agenda.map (fun e => (e.1, followInstr e.2 f owner)) }
  if waits.isEmpty then s else s.modDie owner (fun d => { d with locks := d.locks ++ waits })

/-- The poisoned granules once n bytes have moved: what lies outside stays, what lies inside goes along. -/
def movedPoison (old new n : Nat) (l : List (Nat × Nat)) : List (Nat × Nat) :=
  l.flatMap (fun g =>
    let lo := max g.1 old
    let hi := min (g.1 + g.2) (old + n)
    if hi ≤ lo then [g]
    else (if g.1 < lo then [(g.1, lo - g.1)] else []) ++ [(new + (lo - old), hi - lo)] ++ (if hi < g.1 + g.2 then [(hi, g.1 + g.2 - hi)] else []))

/-- The forms of the blocks (03 R72) whose last line is among the bytes that have moved. -/
def movedBlocks (old new n : Nat) (l : KMap Nat) : KMap Nat :=
  let last (e : Nat × Nat) : Nat := 512 * e.1 + 448
  (l.filter (fun e => carried old new n (last e) ≠ last e)).foldl (fun m e => kset (carried old new n (last e) / 512) e.2 m)
    (l.filter (fun e => carried old new n (last e) = last e))

/-- Bytes of a page move to the frame of its new owner, with all that waits for them or is on its way to them (21 R385 step 2). -/
def State.carry (s : State) (old new n owner : Nat) : State :=
  let bytes := Memory.readBytes s.mem old n
  let s := { s with mem := Memory.writeBytes s.mem new bytes }.pageFollowed (carried old new n) owner
  { s with poison := movedPoison old new n s.poison, zeroBlocks := movedBlocks old new n s.zeroBlocks }

/-- The leaf of a migrated page (21 R374, R385 step 4). -/
def movedLeaf (home owner frame raw : Nat) : Nat :=
  let keep := bits raw 63 53 * 2 ^ 53 + bits raw 11 0
  if owner / 2 = home / 2 then keep + frame else keep + 2 ^ 51 + owner * 2 ^ 40 + frame

/-- The leaf of a page that has been carried to its new owner, and the invalidation (21 R385 step 4). -/
def State.pageMoved (s : State) (home tenant va owner frame : Nat) (l : Leaf) : State :=
  let s := { s with mem := Memory.writeBytes s.mem l.addr (leBytes 8 (movedLeaf home owner frame l.raw)) }
  (s.dropEntries tenant (some (va / 4096))).modDie home (fun d => { d with
    counters := d.counters.filter (fun e => !(decide (e.1 = tenant) && decide (e.2.1 = va / 4096))) })

/-- A page is migrated at once to a frame of a new owner (21 R384, R385): its lines, then its leaf, then the invalidation; A, D and the dirty log
stay. What is no page of 4 KiB at the home's stack or an owner's, or no frame of DRAM of the new owner, is not migrated. -/
def State.migratePage (s : State) (home tenant va owner frame : Nat) : State :=
  match s.walk va (bits (s.tenantWord home tenant 0) 39 12 * 4096) 4 with
  | none => s
  | some l =>
    let old := bits l.raw 39 12 * 4096
    if homeDie va ≠ home || !leafOk home l || l.big || !bitAt l.raw 0 || 2 ≤ bits l.raw 52 51 || frame % 4096 ≠ 0 || frame / 2 ^ 36 ≠ owner / 2
        || !isDram frame || !isDram old || owner % 2 ≠ home % 2 || frame = old then s
    else (s.carry old frame 4096 owner).pageMoved home tenant va owner frame l

def execPageMigration (die tenant : Nat) (va : Word) (owner frame : Nat) (s : State) : Host.Outcome State Fault Refusal :=
  .next (s.migratePage die tenant va.toNat owner frame)

/-- The next hand-over of a die's migration, and its end behind line 63. A page whose leaf no longer names the frame that it leaves moves no further:
what has been handed over goes back. -/
def State.migrateLine (s : State) (die : Nat) : State :=
  match (s.die die).migrating with
  | some m =>
    let next (s : State) (m : Option PageMove) : State := s.modDie die (fun d => { d with migrating := m })
    if s.cycle < m.next then s
    else match s.walk m.va (bits (s.tenantWord die m.tenant 0) 39 12 * 4096) 4 with
      | none => next (s.carry m.frame m.old (64 * m.line) die) none
      | some l =>
        if bits l.raw 39 12 * 4096 ≠ m.old || !bitAt l.raw 0 then next (s.carry m.frame m.old (64 * m.line) die) none
        else if m.line = 64 then (next s none).pageMoved die m.tenant m.va m.owner m.frame l
        else (next (s.carry (m.old + 64 * m.line) (m.frame + 64 * m.line) 64 m.owner)
          (some { m with line := m.line + 1, next := s.cycle + 1 + Config.contention s.free })).drew
  | none => s

/-- What the interfaces have to finish in a core cycle. -/
def State.interfacesCycle (s : State) : State :=
  (s.dies.filter (fun d => !d.2.invals.isEmpty || d.2.migrating.isSome)).foldl (fun s d => (s.endInvals d.1).migrateLine d.1) s

/-! ### Scale-out and CXL (21 R386, R388) -/

/-- Writes for the host agent, page by page; the first page that fails ends the transfer. -/
def State.hostWrite (s : State) (tenant va : Nat) : Nat → List Byte → State
  | 0, _ => s
  | fuel + 1, bs =>
    if bs.isEmpty then s
    else
      let m := min bs.length (4096 - va % 4096)
      match s.translate tenant .write va with
      | (s, .error _) => s
      | (s, .ok (key, e)) => (s.writePage e.attr key (bs.take m)).hostWrite tenant (va + m) fuel (bs.drop m)

def execRdmaWrite (tenant : Nat) (va : Word) (bytes : List Byte) (s : State) : Host.Outcome State Fault Refusal :=
  .next (s.hostWrite tenant va.toNat (bytes.length / 4096 + 2) bytes)

/-- An incoming read is answered with the bytes, or with none where it fails. -/
def execRdmaRead (tenant : Nat) (va : Word) (len : Nat) (s : State) : Host.Outcome State Fault Refusal :=
  match s.ferryRead tenant va.toNat (len / 4096 + 2) len with
  | (s, .ok bs) => .next { s with host := { s.host with readData := bs } }
  | (s, .error _) => .next { s with host := { s.host with readData := [] } }

/-- An incoming send is the queue pair's. -/
def execSend (tenant : Nat) (bytes : List Byte) (s : State) : Host.Outcome State Fault Refusal :=
  .next { s with host := { s.host with inbound := s.host.inbound ++ [(tenant, bytes)] } }

/-- A page of some die is on its way to a new owner. -/
def State.pagesMove (s : State) : Bool := s.dies.any (fun d => d.2.migrating.isSome)

/-- A write, or a read, by physical address reaches the lines of a page that moves where they stand (21 R385). -/
def State.writeMoving (s : State) (pa : Nat) (bs : List Byte) : State :=
  if s.pagesMove then bs.zipIdx.foldl (fun s b => s.writePhys (s.handedOver (pa + b.2)) [b.1]) s else s.writePhys pa bs
def State.readMoving (s : State) (pa len : Nat) : List Byte :=
  if s.pagesMove then (List.range len).map (fun i => Memory.read s.mem (s.handedOver (pa + i))) else Memory.readBytes s.mem pa len

/-- A host access of the module's DRAM by PA, untranslated (21 R386); a write of a weight store has no effect (22 R404). -/
def execCxlMemAccess (pa : Nat) (write : Option (List Byte)) (len : Nat) (s : State) : Host.Outcome State Fault Refusal :=
  match write with
  | some bs => .next (if !bs.isEmpty && isDram pa && isDram (pa + bs.length - 1) && decide (pa / 2 ^ 36 = (pa + bs.length - 1) / 2 ^ 36) then s.writeMoving pa bs else s)
  | none => .next { s with host := { s.host with readData := if isDram pa then s.readMoving pa len else [] } }

/-! ### Reset and firmware (24 R425 to R428) -/

/-- The boot ROM accepts an image. -/
def Boot.accepts (b : Boot) : Bool :=
  decide (Config.sm3 b.image.body = b.image.hash) && Config.sm2Verify b.image.hash b.image.signature && decide (b.floor.toNat ≤ b.image.version.toNat)

/-- A die after module reset (24 R425), with the step that it failed, or 0: its kept fault records and its retired row pairs stay. -/
def Die.afterReset (d : Die) (step : Nat) : Die :=
  { Die.reset with
    log := d.log.map (fun r => { r with replay := true }), retired := d.retired
    outOfService := decide (2 ≤ d.retired.length) || decide (step ≠ 0), failStep := step }

/-- The step of 24 R425 that a die fails: the first where the boot ROM refuses the image; else a free value, 2 to 5, or 0 for none. -/
def State.failedStep (s : State) (d : Nat) : Nat :=
  if s.boot.accepts then (let n := (Config.freeWord (s.free + d)).toNat % 6; if n = 1 then 0 else n) else 1

/-- Host memory, the only memory whose contents outlive a module reset: a stack and a weight store live "launch" (00 R5, R6). -/
def outlivesReset (key : Nat) : Bool := decide (2 ^ 48 ≤ key) && decide (key < 2 ^ 50)

/-- Module reset: host memory and what lives across resets stay; everything else is cleared (00 R5, R6). -/
def State.moduleReset (s : State) : State :=
  { State.reset with
    free := s.free + 32
    mem := s.mem.filter (fun c => outlivesReset c.1), poison := s.poison.filter (fun g => outlivesReset g.1)
    dies := (List.range 32).map (fun d => (d, (s.die d).afterReset (s.failedStep d))), modules := s.modules, host := s.host
    boot := if s.boot.accepts then { s.boot with running := s.boot.image.version, floor := s.boot.image.version } else s.boot }

def execModuleReset (s : State) : Host.Outcome State Fault Refusal := .next s.moduleReset

/-- A new image takes effect at the next module reset. -/
def execFirmwareImageWrite (image : FirmwareImage) (s : State) : Host.Outcome State Fault Refusal :=
  .next { s with boot := { s.boot with image := image } }

/-! ### Attestation (24 R429) -/

def State.respond (s : State) (bs : List Byte) : State := { s with spdm := { s.spdm with response := bs } }

/-- The response to a request that the responder does not serve. -/
def spdmError : List Byte := [0x7F]

def hashBytes (h : BitVec 256) : List Byte := leBytes 32 h.toNat
def signatureBytes (h : BitVec 512) : List Byte := leBytes 64 h.toNat

def execGetVersion (s : State) : Host.Outcome State Fault Refusal :=
  .next { s with spdm := { version := true, capabilities := false, algorithms := false, response := [0x13] } }

/-- Certificates, challenges and measurements. -/
def execGetCapabilities (s : State) : Host.Outcome State Fault Refusal :=
  .next (if s.spdm.version then { s with spdm := { s.spdm with capabilities := true, response := [0x16, 0, 0, 0] } } else s.respond spdmError)

/-- SM2 on the P256 curve is bit 9 of BaseAsymAlgo, SM3_256 bit 6 of BaseHashAlgo. -/
def execNegotiateAlgorithms (asym hash : Nat) (s : State) : Host.Outcome State Fault Refusal :=
  .next (if s.spdm.capabilities && bitAt asym 9 && bitAt hash 6 then
      { s with spdm := { s.spdm with algorithms := true, response := leBytes 4 (2 ^ 9) ++ leBytes 4 (2 ^ 6) } }
    else s.respond spdmError)

def execGetDigests (s : State) : Host.Outcome State Fault Refusal :=
  .next (s.respond (if s.spdm.algorithms then hashBytes (Config.sm3 Config.identityChain) else spdmError))

def execGetCertificate (slot off len : Nat) (s : State) : Host.Outcome State Fault Refusal :=
  .next (s.respond (if s.spdm.algorithms && decide (slot = 0) then (Config.identityChain.drop off).take len else spdmError))

/-- The module identity signs the hash of the nonce. -/
def execChallenge (slot : Nat) (nonce : List Byte) (s : State) : Host.Outcome State Fault Refusal :=
  .next (s.respond (if s.spdm.algorithms && decide (slot = 0) then
      hashBytes (Config.sm3 Config.identityChain) ++ signatureBytes (Config.sm2Sign (Config.sm3 nonce)) else spdmError))

/-- The bytes that a measurement hashes. -/
def State.measured (s : State) (index : Nat) : Option (List Byte) :=
  match index with
  | 1 => some Config.bootRom
  | 2 => some s.boot.image.body
  | 3 => some (Config.fusedKey ++ leBytes 8 s.boot.floor.toNat)
  | 4 => some ((List.range 32).flatMap (fun d => (s.die d).retired.map (fun p => BitVec.ofNat 8 p) ++ [0xFF]))
  | _ => none

def execGetMeasurements (index : Nat) (s : State) : Host.Outcome State Fault Refusal :=
  .next (s.respond (match s.measured index with
    | some bs => if s.spdm.algorithms then hashBytes (Config.sm3 bs) else spdmError
    | none => spdmError))

end Sys2Proof.Machine
end

