-- ==== Sys2Proof/Machine/Vector.lean ====
section
/-! DEFINITION. The vector groups vop, vfma, vcmp, vred, vcvt and vmov (05 R95 to R106). -/

namespace Sys2Proof.Machine

/-- A mask operand as a source; m0 is no register to wait for. -/
def maskSrc (m : MReg) : List Dest := if m = 0 then [] else [.m m]

/-- The result of a lanewise word (05 R97, R98). -/
def laneResult (d : Dest) (o : LaneOut) : Result :=
  { dest := d, value := o.value, keep := o.keep, flags := o.flags, beyond := false, mark := false }

/-- A vector word: sources, destination, latency, and its result from the context and the x operands. -/
def vecOp (i : Instr) (sw : Bool) (lat : Nat) (srcs : List Dest) (d : Dest) (f : Ctx → List Word → LaneOut) (s : State) :
    Host.Outcome State Fault Refusal :=
  issue (Form.of i sw srcs [d]) (fun l s => .done (s.later s.who lat .unit (laneResult d (f (s.ctx s.who) l)))) s

/-- A word of the divide-and-root unit: 12 core cycles, not pipelined (05 R98). -/
def rootOp (i : Instr) (sw : Bool) (srcs : List Dest) (d : Dest) (f : Ctx → List Word → LaneOut) (s : State) :
    Host.Outcome State Fault Refusal :=
  issue { Form.of i sw srcs [d] with held := decide (s.cycle < (s.core s.who.core).rootBusy) } (fun l s =>
    let s := s.modCore s.who.core (fun k => { k with rootBusy := s.cycle + 13 })
    .done (s.later s.who 12 .unit (laneResult d (f (s.ctx s.who) l)))) s

/-- Two registers, lane by lane. -/
def vv (ty : LaneTy) (m : MReg) (a b : VReg) (f : Nat → Nat → FRes) (c : Ctx) : LaneOut :=
  mapLanes ty (c.getM m) (fun i => f (lane ty.width (c.getV a) i) (lane ty.width (c.getV b) i))
/-- A register and the broadcast scalar. -/
def vs (ty : LaneTy) (m : MReg) (a : VReg) (x : Word) (f : Nat → Nat → FRes) (c : Ctx) : LaneOut :=
  mapLanes ty (c.getM m) (fun i => f (lane ty.width (c.getV a) i) (bcastLane ty x))
/-- One register. -/
def v1 (ty : LaneTy) (m : MReg) (a : VReg) (f : Nat → FRes) (c : Ctx) : LaneOut :=
  mapLanes ty (c.getM m) (fun i => f (lane ty.width (c.getV a) i))

/-! ### vop (05 R99, R100) -/

def execVopAdd (sw : Bool) (ty : LaneTy) (sat : Bool) (vd va vb : VReg) (m : MReg) (s : State) :=
  vecOp (.vopAdd sw ty sat vd va vb m) sw 2 ([.v va, .v vb] ++ maskSrc m) (.v vd) (fun c _ => vv ty m va vb (addLane ty sat) c) s
def execVopAddSx (sw : Bool) (ty : LaneTy) (sat : Bool) (vd va : VReg) (xs : XReg) (m : MReg) (s : State) :=
  vecOp (.vopAddSx sw ty sat vd va xs m) sw 2 ([.v va, .x xs] ++ maskSrc m) (.v vd) (fun c l => vs ty m va (op0 l) (addLane ty sat) c) s

def execVopSub (sw : Bool) (ty : LaneTy) (sat : Bool) (vd va vb : VReg) (m : MReg) (s : State) :=
  vecOp (.vopSub sw ty sat vd va vb m) sw 2 ([.v va, .v vb] ++ maskSrc m) (.v vd) (fun c _ => vv ty m va vb (subLane ty sat) c) s
def execVopSubSx (sw : Bool) (ty : LaneTy) (sat : Bool) (vd va : VReg) (xs : XReg) (m : MReg) (s : State) :=
  vecOp (.vopSubSx sw ty sat vd va xs m) sw 2 ([.v va, .x xs] ++ maskSrc m) (.v vd) (fun c l => vs ty m va (op0 l) (subLane ty sat) c) s

def execVopMul (sw : Bool) (ty : LaneTy) (sat : Bool) (vd va vb : VReg) (m : MReg) (s : State) :=
  vecOp (.vopMul sw ty sat vd va vb m) sw 2 ([.v va, .v vb] ++ maskSrc m) (.v vd) (fun c _ => vv ty m va vb (mulLane ty sat) c) s
def execVopMulSx (sw : Bool) (ty : LaneTy) (sat : Bool) (vd va : VReg) (xs : XReg) (m : MReg) (s : State) :=
  vecOp (.vopMulSx sw ty sat vd va xs m) sw 2 ([.v va, .x xs] ++ maskSrc m) (.v vd) (fun c l => vs ty m va (op0 l) (mulLane ty sat) c) s

def execVopMin (sw : Bool) (ty : LaneTy) (vd va vb : VReg) (m : MReg) (s : State) :=
  vecOp (.vopMin sw ty vd va vb m) sw 2 ([.v va, .v vb] ++ maskSrc m) (.v vd) (fun c _ => vv ty m va vb (minMaxLane false ty) c) s
def execVopMinSx (sw : Bool) (ty : LaneTy) (vd va : VReg) (xs : XReg) (m : MReg) (s : State) :=
  vecOp (.vopMinSx sw ty vd va xs m) sw 2 ([.v va, .x xs] ++ maskSrc m) (.v vd) (fun c l => vs ty m va (op0 l) (minMaxLane false ty) c) s

def execVopMax (sw : Bool) (ty : LaneTy) (vd va vb : VReg) (m : MReg) (s : State) :=
  vecOp (.vopMax sw ty vd va vb m) sw 2 ([.v va, .v vb] ++ maskSrc m) (.v vd) (fun c _ => vv ty m va vb (minMaxLane true ty) c) s
def execVopMaxSx (sw : Bool) (ty : LaneTy) (vd va : VReg) (xs : XReg) (m : MReg) (s : State) :=
  vecOp (.vopMaxSx sw ty vd va xs m) sw 2 ([.v va, .x xs] ++ maskSrc m) (.v vd) (fun c l => vs ty m va (op0 l) (minMaxLane true ty) c) s

def execVopDiv (sw : Bool) (ty : LaneTy) (sat : Bool) (vd va vb : VReg) (m : MReg) (s : State) :=
  rootOp (.vopDiv sw ty sat vd va vb m) sw ([.v va, .v vb] ++ maskSrc m) (.v vd) (fun c _ => vv ty m va vb (divLane ty sat) c) s
def execVopDivSx (sw : Bool) (ty : LaneTy) (sat : Bool) (vd va : VReg) (xs : XReg) (m : MReg) (s : State) :=
  rootOp (.vopDivSx sw ty sat vd va xs m) sw ([.v va, .x xs] ++ maskSrc m) (.v vd) (fun c l => vs ty m va (op0 l) (divLane ty sat) c) s

def execVopAnd (sw : Bool) (ty : LaneTy) (vd va vb : VReg) (m : MReg) (s : State) :=
  vecOp (.vopAnd sw ty vd va vb m) sw 2 ([.v va, .v vb] ++ maskSrc m) (.v vd) (fun c _ => vv ty m va vb (andLane) c) s
def execVopAndSx (sw : Bool) (ty : LaneTy) (vd va : VReg) (xs : XReg) (m : MReg) (s : State) :=
  vecOp (.vopAndSx sw ty vd va xs m) sw 2 ([.v va, .x xs] ++ maskSrc m) (.v vd) (fun c l => vs ty m va (op0 l) (andLane) c) s

def execVopOr (sw : Bool) (ty : LaneTy) (vd va vb : VReg) (m : MReg) (s : State) :=
  vecOp (.vopOr sw ty vd va vb m) sw 2 ([.v va, .v vb] ++ maskSrc m) (.v vd) (fun c _ => vv ty m va vb (orLane) c) s
def execVopOrSx (sw : Bool) (ty : LaneTy) (vd va : VReg) (xs : XReg) (m : MReg) (s : State) :=
  vecOp (.vopOrSx sw ty vd va xs m) sw 2 ([.v va, .x xs] ++ maskSrc m) (.v vd) (fun c l => vs ty m va (op0 l) (orLane) c) s

def execVopXor (sw : Bool) (ty : LaneTy) (vd va vb : VReg) (m : MReg) (s : State) :=
  vecOp (.vopXor sw ty vd va vb m) sw 2 ([.v va, .v vb] ++ maskSrc m) (.v vd) (fun c _ => vv ty m va vb (xorLane) c) s
def execVopXorSx (sw : Bool) (ty : LaneTy) (vd va : VReg) (xs : XReg) (m : MReg) (s : State) :=
  vecOp (.vopXorSx sw ty vd va xs m) sw 2 ([.v va, .x xs] ++ maskSrc m) (.v vd) (fun c l => vs ty m va (op0 l) (xorLane) c) s

def execVopSll (sw : Bool) (ty : LaneTy) (vd va vb : VReg) (m : MReg) (s : State) :=
  vecOp (.vopSll sw ty vd va vb m) sw 2 ([.v va, .v vb] ++ maskSrc m) (.v vd) (fun c _ => vv ty m va vb (sllLane ty) c) s
def execVopSllSx (sw : Bool) (ty : LaneTy) (vd va : VReg) (xs : XReg) (m : MReg) (s : State) :=
  vecOp (.vopSllSx sw ty vd va xs m) sw 2 ([.v va, .x xs] ++ maskSrc m) (.v vd) (fun c l => vs ty m va (op0 l) (sllLane ty) c) s

def execVopSrl (sw : Bool) (ty : LaneTy) (vd va vb : VReg) (m : MReg) (s : State) :=
  vecOp (.vopSrl sw ty vd va vb m) sw 2 ([.v va, .v vb] ++ maskSrc m) (.v vd) (fun c _ => vv ty m va vb (srlLane ty) c) s
def execVopSrlSx (sw : Bool) (ty : LaneTy) (vd va : VReg) (xs : XReg) (m : MReg) (s : State) :=
  vecOp (.vopSrlSx sw ty vd va xs m) sw 2 ([.v va, .x xs] ++ maskSrc m) (.v vd) (fun c l => vs ty m va (op0 l) (srlLane ty) c) s

def execVopSra (sw : Bool) (ty : LaneTy) (vd va vb : VReg) (m : MReg) (s : State) :=
  vecOp (.vopSra sw ty vd va vb m) sw 2 ([.v va, .v vb] ++ maskSrc m) (.v vd) (fun c _ => vv ty m va vb (sraLane ty) c) s
def execVopSraSx (sw : Bool) (ty : LaneTy) (vd va : VReg) (xs : XReg) (m : MReg) (s : State) :=
  vecOp (.vopSraSx sw ty vd va xs m) sw 2 ([.v va, .x xs] ++ maskSrc m) (.v vd) (fun c l => vs ty m va (op0 l) (sraLane ty) c) s

def execVopMulh (sw : Bool) (ty : LaneTy) (vd va vb : VReg) (m : MReg) (s : State) :=
  vecOp (.vopMulh sw ty vd va vb m) sw 2 ([.v va, .v vb] ++ maskSrc m) (.v vd) (fun c _ => vv ty m va vb (mulhLane ty) c) s
def execVopMulhSx (sw : Bool) (ty : LaneTy) (vd va : VReg) (xs : XReg) (m : MReg) (s : State) :=
  vecOp (.vopMulhSx sw ty vd va xs m) sw 2 ([.v va, .x xs] ++ maskSrc m) (.v vd) (fun c l => vs ty m va (op0 l) (mulhLane ty) c) s

def execVopAbs (sw : Bool) (ty : LaneTy) (sat : Bool) (vd va : VReg) (m : MReg) (s : State) :=
  vecOp (.vopAbs sw ty sat vd va m) sw 2 ([.v va] ++ maskSrc m) (.v vd) (fun c _ => v1 ty m va (absLane ty sat) c) s
def execVopNeg (sw : Bool) (ty : LaneTy) (sat : Bool) (vd va : VReg) (m : MReg) (s : State) :=
  vecOp (.vopNeg sw ty sat vd va m) sw 2 ([.v va] ++ maskSrc m) (.v vd) (fun c _ => v1 ty m va (negLane ty sat) c) s
def execVopSqrt (sw : Bool) (ty : LaneTy) (vd va : VReg) (m : MReg) (s : State) :=
  rootOp (.vopSqrt sw ty vd va m) sw ([.v va] ++ maskSrc m) (.v vd) (fun c _ => v1 ty m va (sqrtLane ty) c) s

/-! ### vfma (05 R101): in the scalar forms the broadcast stands for vb and the previous vd for vc -/

def fma3 (ty : LaneTy) (m : MReg) (a b d : Vec) (f : Nat → Nat → Nat → FRes) (c : Ctx) : LaneOut :=
  mapLanes ty (c.getM m) (fun i => f (lane ty.width a i) (lane ty.width b i) (lane ty.width d i))
def fmaS (ty : LaneTy) (m : MReg) (a : Vec) (x : Word) (d : Vec) (f : Nat → Nat → Nat → FRes) (c : Ctx) : LaneOut :=
  mapLanes ty (c.getM m) (fun i => f (lane ty.width a i) (bcastLane ty x) (lane ty.width d i))
/-- `dot2` and `dot4` write 32-bit lanes under the mask rule of `f32`. -/
def dot2 (f : Fmt) (sat : Bool) (m : BitVec 32) (a : Vec) (b : Nat → Nat) (d : Vec) : LaneOut :=
  mapLanes .f32 m (fun i => dot2Lane f sat (lane 16 a (2 * i)) (b (2 * i)) (lane 16 a (2 * i + 1)) (b (2 * i + 1)) (lane 32 d i))
def dot4 (sat : Bool) (m : BitVec 32) (a : Vec) (b : Nat → Nat) (d : Vec) : LaneOut :=
  mapLanes .i32 m (fun i => .exact (narrowInt 32 sat ((List.range 4).foldl
    (fun acc j => acc + sintN 8 (lane 8 a (4 * i + j)) * sintN 8 (b (4 * i + j))) (sintN 32 (lane 32 d i)))))
def halfFmt (ty : LaneTy) : Fmt := (fmtOf ty).getD bf16

def execVfmaFma (sw : Bool) (ty : LaneTy) (sat : Bool) (vd va vb vc : VReg) (m : MReg) (s : State) :=
  vecOp (.vfmaFma sw ty sat vd va vb vc m) sw 4 ([.v va, .v vb, .v vc] ++ maskSrc m) (.v vd)
    (fun c _ => fma3 ty m (c.getV va) (c.getV vb) (c.getV vc) (fmaLane false false ty sat) c) s
def execVfmaFmaSx (sw : Bool) (ty : LaneTy) (sat : Bool) (vd va : VReg) (xs : XReg) (m : MReg) (s : State) :=
  vecOp (.vfmaFmaSx sw ty sat vd va xs m) sw 4 ([.v va, .x xs, .v vd] ++ maskSrc m) (.v vd)
    (fun c l => fmaS ty m (c.getV va) (op0 l) (c.getV vd) (fmaLane false false ty sat) c) s

def execVfmaFms (sw : Bool) (ty : LaneTy) (sat : Bool) (vd va vb vc : VReg) (m : MReg) (s : State) :=
  vecOp (.vfmaFms sw ty sat vd va vb vc m) sw 4 ([.v va, .v vb, .v vc] ++ maskSrc m) (.v vd)
    (fun c _ => fma3 ty m (c.getV va) (c.getV vb) (c.getV vc) (fmaLane false true ty sat) c) s
def execVfmaFmsSx (sw : Bool) (ty : LaneTy) (sat : Bool) (vd va : VReg) (xs : XReg) (m : MReg) (s : State) :=
  vecOp (.vfmaFmsSx sw ty sat vd va xs m) sw 4 ([.v va, .x xs, .v vd] ++ maskSrc m) (.v vd)
    (fun c l => fmaS ty m (c.getV va) (op0 l) (c.getV vd) (fmaLane false true ty sat) c) s

def execVfmaFnma (sw : Bool) (ty : LaneTy) (sat : Bool) (vd va vb vc : VReg) (m : MReg) (s : State) :=
  vecOp (.vfmaFnma sw ty sat vd va vb vc m) sw 4 ([.v va, .v vb, .v vc] ++ maskSrc m) (.v vd)
    (fun c _ => fma3 ty m (c.getV va) (c.getV vb) (c.getV vc) (fmaLane true false ty sat) c) s
def execVfmaFnmaSx (sw : Bool) (ty : LaneTy) (sat : Bool) (vd va : VReg) (xs : XReg) (m : MReg) (s : State) :=
  vecOp (.vfmaFnmaSx sw ty sat vd va xs m) sw 4 ([.v va, .x xs, .v vd] ++ maskSrc m) (.v vd)
    (fun c l => fmaS ty m (c.getV va) (op0 l) (c.getV vd) (fmaLane true false ty sat) c) s

def execVfmaFnms (sw : Bool) (ty : LaneTy) (sat : Bool) (vd va vb vc : VReg) (m : MReg) (s : State) :=
  vecOp (.vfmaFnms sw ty sat vd va vb vc m) sw 4 ([.v va, .v vb, .v vc] ++ maskSrc m) (.v vd)
    (fun c _ => fma3 ty m (c.getV va) (c.getV vb) (c.getV vc) (fmaLane true true ty sat) c) s
def execVfmaFnmsSx (sw : Bool) (ty : LaneTy) (sat : Bool) (vd va : VReg) (xs : XReg) (m : MReg) (s : State) :=
  vecOp (.vfmaFnmsSx sw ty sat vd va xs m) sw 4 ([.v va, .x xs, .v vd] ++ maskSrc m) (.v vd)
    (fun c l => fmaS ty m (c.getV va) (op0 l) (c.getV vd) (fmaLane true true ty sat) c) s

def execVfmaDot2 (sw : Bool) (ty : LaneTy) (sat : Bool) (vd va vb vc : VReg) (m : MReg) (s : State) :=
  vecOp (.vfmaDot2 sw ty sat vd va vb vc m) sw 4 ([.v va, .v vb, .v vc] ++ maskSrc m) (.v vd)
    (fun c _ => dot2 (halfFmt ty) sat (c.getM m) (c.getV va) (lane 16 (c.getV vb)) (c.getV vc)) s
def execVfmaDot2Sx (sw : Bool) (ty : LaneTy) (sat : Bool) (vd va : VReg) (xs : XReg) (m : MReg) (s : State) :=
  vecOp (.vfmaDot2Sx sw ty sat vd va xs m) sw 4 ([.v va, .x xs, .v vd] ++ maskSrc m) (.v vd)
    (fun c l => dot2 (halfFmt ty) sat (c.getM m) (c.getV va) (fun i => (op0 l).toNat / 2 ^ (16 * (i % 2)) % 2 ^ 16) (c.getV vd)) s
def execVfmaDot4 (sw : Bool) (sat : Bool) (vd va vb vc : VReg) (m : MReg) (s : State) :=
  vecOp (.vfmaDot4 sw sat vd va vb vc m) sw 4 ([.v va, .v vb, .v vc] ++ maskSrc m) (.v vd)
    (fun c _ => dot4 sat (c.getM m) (c.getV va) (lane 8 (c.getV vb)) (c.getV vc)) s
def execVfmaDot4Sx (sw : Bool) (sat : Bool) (vd va : VReg) (xs : XReg) (m : MReg) (s : State) :=
  vecOp (.vfmaDot4Sx sw sat vd va xs m) sw 4 ([.v va, .x xs, .v vd] ++ maskSrc m) (.v vd)
    (fun c l => dot4 sat (c.getM m) (c.getV va) (fun i => (op0 l).toNat / 2 ^ (8 * (i % 4)) % 2 ^ 8) (c.getV vd)) s

/-! ### vcmp (05 R102) -/

/-- The mask result: every bit is written. -/
def maskOut (r : BitVec 32 × FFlags) : LaneOut := { value := r.1.setWidth 512, keep := 0, flags := r.2 }

def execVcmp (sw : Bool) (ty : LaneTy) (cond : VCond) (md : MReg) (va vb : VReg) (m : MReg) (s : State) :=
  vecOp (.vcmp sw ty cond md va vb m) sw 2 ([.v va, .v vb] ++ maskSrc m) (.m md)
    (fun c _ => maskOut (vcmpMask ty cond (c.getM m) (lane ty.width (c.getV va)) (lane ty.width (c.getV vb)))) s
def execVcmpSx (sw : Bool) (ty : LaneTy) (cond : VCond) (md : MReg) (va : VReg) (xs : XReg) (m : MReg) (s : State) :=
  vecOp (.vcmpSx sw ty cond md va xs m) sw 2 ([.v va, .x xs] ++ maskSrc m) (.m md)
    (fun c l => maskOut (vcmpMask ty cond (c.getM m) (lane ty.width (c.getV va)) (fun _ => bcastLane ty (op0 l)))) s

/-! ### vred (05 R103) -/

/-- A reduction over the active lanes into lane 0. -/
def vredOp (i : Instr) (sw : Bool) (ty : LaneTy) (vd va : VReg) (m : MReg) (f : List Nat → FRes) (s : State) :=
  vecOp i sw 4 ([.v va] ++ maskSrc m) (.v vd) (fun c _ => lane0 (f (activeLanes ty (c.getM m) (c.getV va)))) s

def execVredSum (sw : Bool) (ty : LaneTy) (sat : Bool) (vd va : VReg) (m : MReg) (s : State) :=
  vredOp (.vredSum sw ty sat vd va m) sw ty vd va m (sumLanes ty sat) s
def execVredMin (sw : Bool) (ty : LaneTy) (vd va : VReg) (m : MReg) (s : State) :=
  vredOp (.vredMin sw ty vd va m) sw ty vd va m (minMaxLanes false ty) s
def execVredMax (sw : Bool) (ty : LaneTy) (vd va : VReg) (m : MReg) (s : State) :=
  vredOp (.vredMax sw ty vd va m) sw ty vd va m (minMaxLanes true ty) s
def execVredAnd (sw : Bool) (ty : LaneTy) (vd va : VReg) (m : MReg) (s : State) :=
  vredOp (.vredAnd sw ty vd va m) sw ty vd va m (fun l => .exact (l.foldl (· &&& ·) (2 ^ ty.width - 1))) s
def execVredOr (sw : Bool) (ty : LaneTy) (vd va : VReg) (m : MReg) (s : State) :=
  vredOp (.vredOr sw ty vd va m) sw ty vd va m (fun l => .exact (l.foldl (· ||| ·) 0)) s
def execVredXor (sw : Bool) (ty : LaneTy) (vd va : VReg) (m : MReg) (s : State) :=
  vredOp (.vredXor sw ty vd va m) sw ty vd va m (fun l => .exact (l.foldl (· ^^^ ·) 0)) s
def execVredPerm (sw : Bool) (ty : LaneTy) (vd va vb : VReg) (m : MReg) (s : State) :=
  vecOp (.vredPerm sw ty vd va vb m) sw 4 ([.v va, .v vb] ++ maskSrc m) (.v vd) (fun c _ =>
    mapLanes ty (c.getM m) (fun i => .exact (lane ty.width (c.getV va) (lane ty.width (c.getV vb) i % ty.count)))) s
def execVredRot (sw : Bool) (ty : LaneTy) (vd va : VReg) (xs : XReg) (m : MReg) (s : State) :=
  vecOp (.vredRot sw ty vd va xs m) sw 4 ([.v va, .x xs] ++ maskSrc m) (.v vd) (fun c l =>
    mapLanes ty (c.getM m) (fun i => .exact (lane ty.width (c.getV va) ((i + (op0 l).toNat) % ty.count)))) s

/-! ### vcvt (05 R104, R105) -/

/-- The v sources of a conversion: vb only where it narrows (05 R104). -/
def cvtSrcs (src dst : LaneTy) (va vb : VReg) : List Dest :=
  match cvtKind src dst with | some .narrow => [.v va, .v vb] | _ => [.v va]

def execVcvt (sw : Bool) (src dst : LaneTy) (high sat : Bool) (vd va vb : VReg) (m : MReg) (s : State) :=
  vecOp (.vcvt sw src dst high sat vd va vb m) sw 2 (cvtSrcs src dst va vb ++ maskSrc m) (.v vd) (fun c _ =>
    mapLanes dst (c.getM m) (fun i => cvtLane src dst sat (cvtSource src dst high (c.getV va) (c.getV vb) i))) s

/-! ### vmov (05 R106) -/

def execVmovMov (sw : Bool) (vd va : VReg) (m : MReg) (s : State) :=
  vecOp (.vmovMov sw vd va m) sw 2 ([.v va] ++ maskSrc m) (.v vd) (fun c _ => v1 .f32 m va .exact c) s
def execVmovSel (sw : Bool) (ty : LaneTy) (vd va vb : VReg) (m : MReg) (s : State) :=
  vecOp (.vmovSel sw ty vd va vb m) sw 2 ([.v va, .v vb] ++ maskSrc m) (.v vd) (fun c _ =>
    mapLanes ty (BitVec.allOnes 32) (fun i =>
      .exact (lane ty.width (if laneActive ty (c.getM m) i then c.getV va else c.getV vb) i))) s
def execVmovBcast (sw : Bool) (ty : LaneTy) (vd : VReg) (xs : XReg) (m : MReg) (s : State) :=
  vecOp (.vmovBcast sw ty vd xs m) sw 2 ([.x xs] ++ maskSrc m) (.v vd) (fun c l =>
    mapLanes ty (c.getM m) (fun _ => .exact (bcastLane ty (op0 l)))) s
/-- The lowest active lane: integers sign-extended, floats as bit patterns; 0 if none is active. -/
def extLane (ty : LaneTy) (ls : List Nat) : Word :=
  match ls with
  | [] => 0
  | a :: _ => if ty.isFloat then BitVec.ofNat 64 a else BitVec.ofInt 64 (sintN ty.width a)
def execVmovExt (sw : Bool) (ty : LaneTy) (va : VReg) (xs : XReg) (m : MReg) (s : State) :=
  vecOp (.vmovExt sw ty va xs m) sw 2 ([.v va] ++ maskSrc m) (.x xs) (fun c _ =>
    { value := (extLane ty (activeLanes ty (c.getM m) (c.getV va))).setWidth 512, keep := 0, flags := .none }) s
def execVmovGetm (sw : Bool) (xs : XReg) (m : MReg) (s : State) :=
  vecOp (.vmovGetm sw xs m) sw 2 (maskSrc m) (.x xs) (fun c _ => { value := (c.getM m).setWidth 512, keep := 0, flags := .none }) s
def execVmovSetm (sw : Bool) (xs : XReg) (m : MReg) (s : State) :=
  vecOp (.vmovSetm sw xs m) sw 2 [.x xs] (.m m) (fun _ l =>
    { value := ((op0 l).setWidth 32).setWidth 512, keep := 0, flags := .none }) s
def execVmovZero (sw : Bool) (vd : VReg) (m : MReg) (s : State) :=
  vecOp (.vmovZero sw vd m) sw 2 (maskSrc m) (.v vd) (fun c _ => mapLanes .f32 (c.getM m) (fun _ => .exact 0)) s

end Sys2Proof.Machine
end

