-- ==== Sys2Proof/Machine/Patch.lean ====
section
/-! DEFINITION. The patch: pat (05 R110 to R114). -/

namespace Sys2Proof.Machine

/-- The fields of a cell word (05 R111). -/
structure Cell where
  k : Nat
  selb : Nat
  sela : Nat
  op : Nat
  deriving DecidableEq, Repr

def cellOf (w : Word) : Cell :=
  { k := bits w.toNat 63 32, selb := bits w.toNat 23 18, sela := bits w.toNat 17 12, op := bits w.toNat 7 0 }

/-- A selector that cell c may use (05 R111). -/
def selOk (c sel : Nat) : Bool := decide (sel ≤ 5) || (decide (16 ≤ sel) && decide (sel < 32) && decide ((sel - 16) / 4 < c / 4))

/-- Operations that read SELA only (05 R112). -/
def cellUnary (op : Nat) : Bool := decide (op = 1) || decide (op = 8) || decide (op = 9)

/-- The check of doubleword i of a block: its cause, if it offends (05 R111, R113; 02 R433). -/
def blockFault (i : Nat) (w : Word) : Option Cause :=
  if i = 0 then (if bits w.toNat 63 8 ≠ 0 then some .reservedField else none)
  else
    let c := cellOf w
    let invalid : Bool := decide (0x12 < c.op) ||
      (if c.op = 0 then decide (c.sela ≠ 0) || decide (c.selb ≠ 0)
       else !selOk (i - 1) c.sela || (if cellUnary c.op then decide (c.selb ≠ 0) else !selOk (i - 1) c.selb))
    if invalid then some .illegal
    else if bits w.toNat 31 24 ≠ 0 || bits w.toNat 11 8 ≠ 0 then some .reservedField
    else none

/-- One operation of a cell (05 R112). -/
def cellOp (op a b k : Nat) : FRes :=
  let f := fp32.decode
  match op with
  | 0x01 => .exact a
  | 0x02 => fp32.add .rne (f a) (f b)
  | 0x03 => fp32.sub .rne (f a) (f b)
  | 0x04 => fp32.mul .rne (f a) (f b)
  | 0x05 => fp32.fma .rne (f a) (f b) (f k)
  | 0x06 => minMaxLane false .f32 a b
  | 0x07 => minMaxLane true .f32 a b
  | 0x08 => absLane .f32 false a
  | 0x09 => negLane .f32 false a
  | 0x0A => .exact (if (f a).ltNum (f b) then 0x3F800000 else 0)
  | 0x0B => .exact ((a + b) % 2 ^ 32)
  | 0x0C => .exact ((a + 2 ^ 32 - b) % 2 ^ 32)
  | 0x0D => .exact (a * b % 2 ^ 32)
  | 0x0E => .exact (a &&& b)
  | 0x0F => .exact (a ||| b)
  | 0x10 => .exact (a ^^^ b)
  | 0x11 => .exact (a * 2 ^ (b % 32) % 2 ^ 32)
  | 0x12 => .exact (a / 2 ^ (b % 32))
  | _ => .exact 0

/-- The value a selector picks (05 R111). -/
def selValue (x y : Word) (k : Nat) (outs : List Nat) (sel : Nat) : Nat :=
  match sel with
  | 0 => bits x.toNat 31 0
  | 1 => bits x.toNat 63 32
  | 2 => bits y.toNat 31 0
  | 3 => bits y.toNat 63 32
  | 4 => k
  | 5 => 0
  | n => outs.getD (n - 16) 0

/-- The outputs of the cells in order, and their flags (05 R114). -/
def patchCells (x y : Word) (cells : List Word) : List Nat × FFlags :=
  cells.foldl (fun acc w =>
    let c := cellOf w
    let r := cellOp c.op (selValue x y c.k acc.1 c.sela) (selValue x y c.k acc.1 c.selb) c.k
    (acc.1 ++ [r.bits], acc.2.union r.flags)) ([], .none)

/-- The value and flags of `pat.exec`; a patch never configured outputs zero (05 R114). -/
def patchValue (p : Option Patch) (x y : Word) : Word × FFlags :=
  match p with
  | none => (0, .none)
  | some p =>
    let r := patchCells x y p.cells
    (BitVec.ofNat 64 (r.1.getD (bits p.header.toNat 7 4) 0 * 2 ^ 32 + r.1.getD (bits p.header.toNat 3 0) 0), r.2)

/-- A `pat.exec` of the core is outstanding. -/
def Core.patchBusy (k : Core) : Bool := k.ctxs.toList.any (fun c => c.outstanding.any (fun o => decide (o.by_ = .patch)))

def execPatCfg (sw : Bool) (a : XReg) (s : State) : Host.Outcome State Fault Refusal :=
  issue { Form.of (.patCfg sw a) sw [.x a] [] with held := (s.core s.who.core).patchLoading || (s.core s.who.core).patchBusy } (fun l s =>
    let w := s.who
    let va := op0 l
    if va.toNat % 8 ≠ 0 then .trap s { cause := .misaligned, val := va }
    else if !inGroupWindow w.core va.toNat || !inGroupWindow w.core (va.toNat + 135) then .trap s { cause := .protection, val := va }
    else match s.resolve w.core .read va 136 with
      | (s, .error e) => .trap s { cause := e, val := va }
      | (s, .ok acc) => .park (s.modCore w.core (fun k => { k with patchLoading := true })) (.patCfg va (s.cycle + acc.lat + 1) [] sw)) s

def execPatExec (sw : Bool) (d a b : XReg) (s : State) : Host.Outcome State Fault Refusal :=
  issue { Form.of (.patExec sw d a b) sw [.x a, .x b] [.x d] with held := (s.core s.who.core).patchLoading } (fun l s =>
    let r := patchValue (s.core s.who.core).patch (op0 l) (op1 l)
    .done (s.later s.who 5 .patch { Result.plain (.x d) (r.1.setWidth 512) with flags := r.2 })) s

/-- The end of a block read (05 R113): the checks of 02 R433, and the new configuration. -/
def State.configurePatch (s : State) (w : CtxId) (va : Word) (dws : List Word) (sw : Bool) : State :=
  let s := s.modCore w.core (fun k => { k with patchLoading := false })
  match dws.zipIdx.findSome? (fun p => (blockFault p.2 p.1).map (fun c => (c, p.2))) with
  | some (c, i) => s.raise w { cause := c, val := va + BitVec.ofNat 64 (8 * i) }
  | none => (s.modCore w.core (fun k => { k with patch := some { header := dws.headD 0, cells := dws.tail } })).finishPark w sw s.cycle

/-- A block read ends with the trap of a read that failed. -/
def State.patchFails (s : State) (w : CtxId) (e : Trap) : State := (s.modCore w.core (fun k => { k with patchLoading := false })).raise w e

/-- A core cycle of a block read (05 R113); after the 17th doubleword, the block is checked. DESIGN CHOICE (notes/assumptions/107): a doubleword whose read
fails a row of 06 R115 ends the load with that row's trap, and TRAPVAL is the block's address; the spec gives the trap of a failed read, not the
address. -/
def State.pollPatch (s : State) (w : CtxId) : State :=
  match (s.ctx w).park with
  | .patCfg va t block sw =>
    match s.readCard w va 17 t block with
    | (s, .error e) => s.patchFails w e
    | (s, .ok ds) =>
      if ds.length < 17 then s.modCtx w (fun c => { c with park := .patCfg va t ds sw }) else s.configurePatch w va ds sw
  | _ => s

end Sys2Proof.Machine
end

