-- ==== Sys2Proof/Machine/VectorMemory.lean ====
section
/-! DEFINITION. Vector loads and stores: vmem (05 R107 to R109), with the decoding of declared formats (03 R64 to R69). -/

namespace Sys2Proof.Machine

/-- The active lanes of a `vmem` word. -/
def vmLanes (ty : LaneTy) (m : BitVec 32) : List Nat := (List.range ty.count).filter (laneActive ty m)

/-- Rows 5 and 6 of 05 R108 for pieces (offset, bytes) of an access. -/
def State.lanesCheck (s : State) (w : CtxId) (a : Access) (va : Nat) (ps : List (Nat × Nat)) : Option Cause :=
  let find (c : Cause) : Bool := ps.any (fun p => s.loadCheck w { a with key := a.key + p.1, spad := a.spad.map (fun q => (q.1, q.2 + p.1)) }
    (va + p.1) p.2 == some c)
  if find .manifest then some .manifest else if find .poison then some .poison else none

/-- The latency of a vector load (05 R98). -/
def Access.vlat (a : Access) : Nat := if a.spad.isSome then a.lat + 1 else a.lat

def execVmemLd (sw : Bool) (ord : MemOrd) (v : VReg) (m : MReg) (a : XReg) (off : BitVec 10) (s : State) :
    Host.Outcome State Fault Refusal :=
  issue (Form.imm (.vmemLd sw ord v m a off) sw ([.x a] ++ maskSrc m) [.v v]) (fun l s =>
    let w := s.who
    let c := s.ctx w
    let va := addrVM c.hints (op0 l) off
    let lanes := vmLanes .f32 (c.getM m)
    if va.toNat % 64 ≠ 0 then .trap s { cause := .misaligned, val := va }
    else if lanes.isEmpty then .done (s.later w 2 .load { Result.plain (.v v) 0 with keep := BitVec.allOnes 512 })
    else match s.resolve w.core .read va 64 with
      | (s, .error e) => .trap s { cause := e, val := va }
      | (s, .ok a) =>
        match s.lanesCheck w a va.toNat (lanes.map (fun i => (4 * i, 4))) with
        | some e => .trap s { cause := e, val := va }
        | none =>
          let out := mapLanes .f32 (c.getM m) (fun i => .exact (leValue (s.loadBytes w (va.toNat + 4 * i) (a.key + 4 * i) 4)))
          withLines s w va.toNat 64 (fun s => withPort w.core a s (fun s =>
            let (s, r) := s.replyOf a (laneResult (.v v) out)
            .done (s.later w (max a.vlat (s.loadDelay w va.toNat a.key 64)) .load r)))) s

def execVmemSt (sw : Bool) (ord : MemOrd) (v : VReg) (m : MReg) (a : XReg) (off : BitVec 10) (s : State) :
    Host.Outcome State Fault Refusal :=
  issue (Form.imm (.vmemSt sw ord v m a off) sw ([.v v, .x a] ++ maskSrc m) []) (fun l s =>
    let w := s.who
    let c := s.ctx w
    let va := addrVM c.hints (op0 l) off
    let lanes := vmLanes .f32 (c.getM m)
    if va.toNat % 64 ≠ 0 then .trap s { cause := .misaligned, val := va }
    else if lanes.isEmpty then .done s
    else match s.resolveStore w va 64 with
      | (s, .error e) => .trap s { cause := e, val := va }
      | (s, .ok a) =>
        storeBody s w va a (lanes.map (fun i => (va.toNat + 4 * i, a.key + 4 * i, leBytes 4 (lane 32 (c.getV v) i))))) s

/-! ### Declared formats (05 R108, R109) -/

/-- The element width in memory of a declared format; RAW elements have the width of the lane's format. -/
def formatWidth (dst : LaneTy) : Nat → Nat
  | 0 => dst.width / 8
  | 1 | 6 | 0xA => 4
  | 2 | 3 | 5 | 9 => 2
  | 4 => 1
  | 7 => 8
  | _ => 4

/-- One element of a declared format decoded into a lane format (05 R109). -/
def decodeElement (dst : LaneTy) (fmt : Nat) (sat : Bool) (b : Nat) : FRes :=
  let toF (src : LaneTy) : FRes := if src = dst then .exact b else cvtLane src dst sat b
  match fmt with
  | 1 | 0xA => toF .f32
  | 2 => toF .f16
  | 3 | 9 => toF .bf16
  | 4 => toF .i8
  | 5 => toF .i16
  | 6 => toF .i32
  | 7 => toF .i64
  | _ => .exact b

/-- The hint fields of `ldf` and `ldb` for PL8 (05 R109): saturation, n, g, p. -/
structure PlaneHints where
  sat : Bool
  n : Nat
  g : Nat
  p : Nat
  deriving DecidableEq, Repr

def planeHints (h : Hints) : PlaneHints :=
  let d := h.modData
  { sat := bitAt d 22, n := bits d 16 8, g := bits d 7 4, p := bits d 3 0 }

/-- The values that 05 R109 refuses for a block of B elements and L lanes. -/
def PlaneHints.refused (q : PlaneHints) (B L : Nat) : Bool :=
  decide (q.p = 1) || decide (8 < q.p) || decide (B < q.n) || decide (B / L ≤ q.g)

/-- The bytes of a block record that hold the present, active elements of the first p planes (03 R64, R67). -/
def planeBytes (B p : Nat) (els : List Nat) : List Nat := ((List.range p).flatMap (fun j => els.map (fun e => j * (B / 8) + e / 8))).eraseDups

/-- Resolves pieces of n bytes at offsets from an address; the first failure decides. -/
def State.resolvePieces (s : State) (core : Nat) (va : Word) (n : Nat) : List Nat → State × Except Cause (List (Nat × Access))
  | [] => (s, .ok [])
  | u :: us =>
    match s.resolve core .read (va + BitVec.ofNat 64 u) n with
    | (s, .error e) => (s, .error e)
    | (s, .ok a) =>
      match s.resolvePieces core va n us with
      | (s, .error e) => (s, .error e)
      | (s, .ok l) => (s, .ok ((u, a) :: l))

/-- Resolves the scale byte, if a `reg` word names it. -/
def State.resolveScale (s : State) (core : Nat) (scaleVa : Option Word) : State × Except Cause (Option (Word × Access)) :=
  match scaleVa with
  | none => (s, .ok none)
  | some sv =>
    match s.resolve core .read sv 1 with
    | (s, .error e) => (s, .error e)
    | (s, .ok a) => (s, .ok (some (sv, a)))

/-- A PL8 load (03 R63 to R65; 05 R109). `scaleVa` is the scale byte's address, if a `reg` word names it.
DESIGN CHOICE (notes/assumptions/108): a load whose active lanes are all absent reads no byte of the record; it reads and checks the scale
byte, but decodes no element with it, so a scale byte of 255 sets NV only where an active lane is present. -/
def planeBody (dst : LaneTy) (f : Fmt) (v : VReg) (m : BitVec 32) (attr : Attr) (q : PlaneHints) (scaleVa : Option Word) (va : Word)
    (s : State) : Body :=
  let w := s.who
  let B := 32 * 2 ^ attr.blockg
  let P := attr.planesn + 1
  let L := dst.count
  if q.refused B L then .trap s { cause := .illegal, val := (s.ctx w).pc }
  else
    let n := if q.n = 0 then B else q.n
    let p := if q.p = 0 then P else min q.p P
    let els := ((vmLanes dst m).map (fun i => L * q.g + i)).filter (fun e => decide (e < n))
    match s.resolvePieces w.core va 1 (planeBytes B p els) with
    | (s, .error e) => .trap s { cause := e, val := va }
    | (s, .ok units) =>
      match s.resolveScale w.core scaleVa with
      | (s, .error e) => .trap s { cause := e, val := va }
      | (s, .ok scale) =>
        let pieces : List (Nat × Access) := units.map (fun u => (va.toNat + u.1, u.2)) ++ (scale.map (fun x => (x.1.toNat, x.2))).toList
        let find (c : Cause) : Bool := pieces.any (fun u => s.loadCheck w u.2 u.1 1 == some c)
        if find .manifest then .trap s { cause := .manifest, val := va }
        else if find .poison then .trap s { cause := .poison, val := va }
        else
          let e : Nat := match scale with
            | some (sv, a) => (leValue (s.loadBytes w sv.toNat a.key 1))
            | none => 127
          let rec_ : List Byte := (List.range (p * B / 8)).map (fun o =>
            match units.find? (fun u => decide (u.1 = o)) with
            | some (_, a) => (s.loadByte w (va.toNat + o) a.key).1
            | none => 0)
          let out := mapLanes dst m (fun i =>
            let k := L * q.g + i
            if k < n then
              if e = 255 then { bits := 0, flags := .invalid } else f.narrow (rneOf q.sat) (planeValue p (planeBits rec_ B p k) e)
            else .exact 0)
          let far := pieces.find? (fun u => u.2.beyond)
          let lat : Nat := pieces.foldl (fun (d : Nat) u => max d (max u.2.vlat (s.loadDelay w u.1 u.2.key 1))) 2
          match far.or pieces.head? with
          | none => .done (s.later w lat .load (laneResult (.v v) out))
          | some u => withLines s w va.toNat (p * B / 8) (fun s => withPort w.core u.2 s (fun s =>
              let (s, r) := s.replyOf u.2 (laneResult (.v v) out)
              .done (s.later w lat .load r)))

/-- The attributes of the page or region at an address, whatever accesses it allows. -/
def State.formatAt (s : State) (core va : Nat) : Option Attr :=
  if 0x2000000 ≤ va then
    if 2 ^ 47 ≤ va then none
    else match (s.ruling (homeDie va) (dieOf core) (s.tenantOf core) .read va).2 with
      | .ok e => if e.cause .read va = some .translation then none else some e.attr
      | .error _ => none
  else match window core va with
    | .spad c off _ =>
      if !s.inBerth core c || (s.core c).inCarveOut off 1 then none
      else (protRegion (s.core c) (off / 512)).map protAttr |>.filter (·.ok)
    | _ => none

/-- The attributes at Ad, if they declare PL8 (05 R109). -/
def State.planesAt (s : State) (w : CtxId) (va : Word) : Option Attr := (s.formatAt w.core va.toNat).filter (fun a => decide (a.format = 8))

/-- The traps that the hint data of `ldf` and `ldb` takes (04 R90, 05 R109); `attr` is that of a PL8 page or region at Ad. -/
def formatTrap (dst : LaneTy) (h : Hints) (pc : Word) (lanes : List Nat) (attr : Option Attr) : Option Trap :=
  match h.reserved 0x41FFFF 0x1F, attr with
  | some t, _ => some t
  | none, some a =>
    if !lanes.isEmpty && (planeHints h).refused (32 * 2 ^ a.blockg) dst.count then some { cause := .illegal, val := pc } else none
  | none, none => none

/-- `ldf` and `ldb`: the checks of 05 R108 in order, and the decoding of 05 R109. -/
def formatBody (dst : LaneTy) (f : Fmt) (v : VReg) (m : BitVec 32) (scaleVa : Option Word) (va : Word) (s : State) : Body :=
  let w := s.who
  let q := planeHints (s.ctx w).hints
  if va.toNat % 4 ≠ 0 then .trap s { cause := .misaligned, val := va }
  else
    let lanes := vmLanes dst m
    if lanes.isEmpty then .done (s.later w 2 .load { Result.plain (.v v) 0 with keep := BitVec.allOnes 512 })
    else match s.resolve w.core .read va 4 with
      | (s, .error e) => .trap s { cause := e, val := va }
      | (s, .ok a) =>
        if a.attr.format = 8 then planeBody dst f v m a.attr q scaleVa va s
        else
          let n := formatWidth dst a.attr.format
          if va.toNat % (n * dst.count) ≠ 0 then
            match s.resolvePieces w.core va 4 (lanes.flatMap (fun i => [n * i / 4 * 4, (n * i + n - 1) / 4 * 4])).eraseDups with
            | (s, .error e) => .trap s { cause := e, val := va }
            | (s, .ok _) => .trap s { cause := .misaligned, val := va }
          else match s.lanesCheck w a va.toNat (lanes.map (fun i => (n * i, n))) with
            | some e => .trap s { cause := e, val := va }
            | none =>
              let out := mapLanes dst m (fun i =>
                decodeElement dst a.attr.format q.sat (leValue (s.loadBytes w (va.toNat + n * i) (a.key + n * i) n)))
              withLines s w va.toNat (n * dst.count) (fun s => withPort w.core a s (fun s =>
                let (s, r) := s.replyOf a (laneResult (.v v) out)
                .done (s.later w (max a.vlat (s.loadDelay w va.toNat a.key (n * dst.count))) .load r)))

/-- The form of `ldf` and `ldb`: the register that a `reg` word names is a source where Ad declares PL8 (05 R109). -/
def formatForm (dst : LaneTy) (i : Instr) (sw : Bool) (v : VReg) (m : MReg) (a : XReg) (off : BitVec 10) (s : State) : Form :=
  let w := s.who
  let c := s.ctx w
  let attr := s.planesAt w (addrVM c.hints (s.atHand w a) off)
  { Form.of i sw ([.x a] ++ (if attr.isSome then (c.hints.regX.map Dest.x).toList else []) ++ maskSrc m) [.v v] with
    immHints := true, modHints := true, trap := formatTrap dst c.hints c.pc (vmLanes dst (c.getM m)) attr }

/-- The scale byte's address: the operand that a `reg` word names. -/
def scaleOf (c : Ctx) (l : List Word) : Option Word := c.hints.regX.map (fun r => (l.tail.head?).getD (c.getX r))

def execVmemLdf (sw : Bool) (ord : MemOrd) (v : VReg) (m : MReg) (a : XReg) (off : BitVec 10) (s : State) :
    Host.Outcome State Fault Refusal :=
  issue (formatForm .f32 (.vmemLdf sw ord v m a off) sw v m a off s) (fun l s =>
    let c := s.ctx s.who
    formatBody .f32 fp32 v (c.getM m) (scaleOf c l) (addrVM c.hints (op0 l) off) s) s

def execVmemLdb (sw : Bool) (ord : MemOrd) (v : VReg) (m : MReg) (a : XReg) (off : BitVec 10) (s : State) :
    Host.Outcome State Fault Refusal :=
  issue (formatForm .bf16 (.vmemLdb sw ord v m a off) sw v m a off s) (fun l s =>
    let c := s.ctx s.who
    formatBody .bf16 bf16 v (c.getM m) (scaleOf c l) (addrVM c.hints (op0 l) off) s) s

end Sys2Proof.Machine
end

