-- ==== Sys2Proof/Machine/Dispatch.lean ====
section
/-! DEFINITION. One arm per constructor of `Instr`: its meaning. -/

namespace Sys2Proof.Machine

def exec (i : Instr) (s : State) : Host.Outcome State Fault Refusal :=
  match i with
  | .aluAdd sw d a b => Sys2Proof.Machine.execAluAdd sw d a b s
  | .aluSub sw d a b => Sys2Proof.Machine.execAluSub sw d a b s
  | .aluAnd sw d a b => Sys2Proof.Machine.execAluAnd sw d a b s
  | .aluOr sw d a b => Sys2Proof.Machine.execAluOr sw d a b s
  | .aluXor sw d a b => Sys2Proof.Machine.execAluXor sw d a b s
  | .aluAnot sw d a b => Sys2Proof.Machine.execAluAnot sw d a b s
  | .aluSll sw d a b => Sys2Proof.Machine.execAluSll sw d a b s
  | .aluSrl sw d a b => Sys2Proof.Machine.execAluSrl sw d a b s
  | .aluSra sw d a b => Sys2Proof.Machine.execAluSra sw d a b s
  | .aluRol sw d a b => Sys2Proof.Machine.execAluRol sw d a b s
  | .aluMin sw d a b => Sys2Proof.Machine.execAluMin sw d a b s
  | .aluMax sw d a b => Sys2Proof.Machine.execAluMax sw d a b s
  | .aluUmin sw d a b => Sys2Proof.Machine.execAluUmin sw d a b s
  | .aluUmax sw d a b => Sys2Proof.Machine.execAluUmax sw d a b s
  | .aluStep2 sw d a b => Sys2Proof.Machine.execAluStep2 sw d a b s
  | .aluStep4 sw d a b => Sys2Proof.Machine.execAluStep4 sw d a b s
  | .aluStep8 sw d a b => Sys2Proof.Machine.execAluStep8 sw d a b s
  | .aluStep64 sw d a b => Sys2Proof.Machine.execAluStep64 sw d a b s
  | .aluCmp sw cond d a b => Sys2Proof.Machine.execAluCmp sw cond d a b s
  | .aluLzc sw d a => Sys2Proof.Machine.execAluLzc sw d a s
  | .aluTzc sw d a => Sys2Proof.Machine.execAluTzc sw d a s
  | .aluOnes sw d a => Sys2Proof.Machine.execAluOnes sw d a s
  | .aluSx8 sw d a => Sys2Proof.Machine.execAluSx8 sw d a s
  | .aluSx16 sw d a => Sys2Proof.Machine.execAluSx16 sw d a s
  | .aluSx32 sw d a => Sys2Proof.Machine.execAluSx32 sw d a s
  | .aluZx32 sw d a => Sys2Proof.Machine.execAluZx32 sw d a s
  | .aluMul sw d a b => Sys2Proof.Machine.execAluMul sw d a b s
  | .aluHiss sw d a b => Sys2Proof.Machine.execAluHiss sw d a b s
  | .aluHiuu sw d a b => Sys2Proof.Machine.execAluHiuu sw d a b s
  | .aluHisu sw d a b => Sys2Proof.Machine.execAluHisu sw d a b s
  | .aluQuo sw d a b => Sys2Proof.Machine.execAluQuo sw d a b s
  | .aluQuou sw d a b => Sys2Proof.Machine.execAluQuou sw d a b s
  | .aluRmd sw d a b => Sys2Proof.Machine.execAluRmd sw d a b s
  | .aluRmdu sw d a b => Sys2Proof.Machine.execAluRmdu sw d a b s
  | .addi sw d a imm => Sys2Proof.Machine.execAddi sw d a imm s
  | .andi sw d a imm => Sys2Proof.Machine.execAndi sw d a imm s
  | .ori sw d a imm => Sys2Proof.Machine.execOri sw d a imm s
  | .xori sw d a imm => Sys2Proof.Machine.execXori sw d a imm s
  | .cmpi sw cond d a imm => Sys2Proof.Machine.execCmpi sw cond d a imm s
  | .lim sw d imm => Sys2Proof.Machine.execLim sw d imm s
  | .br sw cond a disp => Sys2Proof.Machine.execBr sw cond a disp s
  | .jmp sw d imm => Sys2Proof.Machine.execJmp sw d imm s
  | .jr sw d a imm => Sys2Proof.Machine.execJr sw d a imm s
  | .hintImm sw data => Sys2Proof.Machine.execHintImm sw data s
  | .hintImx sw data => Sys2Proof.Machine.execHintImx sw data s
  | .hintMod sw data => Sys2Proof.Machine.execHintMod sw data s
  | .hintReg sw data => Sys2Proof.Machine.execHintReg sw data s
  | .ld sw sz sext ord d a off => Sys2Proof.Machine.execLd sw sz sext ord d a off s
  | .st sw sz ord d a off => Sys2Proof.Machine.execSt sw sz ord d a off s
  | .idxLd sw sz sext ord d a b => Sys2Proof.Machine.execIdxLd sw sz sext ord d a b s
  | .idxSt sw sz ord d a b => Sys2Proof.Machine.execIdxSt sw sz ord d a b s
  | .amoAdd sw sz ord d a b => Sys2Proof.Machine.execAmoAdd sw sz ord d a b s
  | .amoAnd sw sz ord d a b => Sys2Proof.Machine.execAmoAnd sw sz ord d a b s
  | .amoOr sw sz ord d a b => Sys2Proof.Machine.execAmoOr sw sz ord d a b s
  | .amoXor sw sz ord d a b => Sys2Proof.Machine.execAmoXor sw sz ord d a b s
  | .amoMin sw sz ord d a b => Sys2Proof.Machine.execAmoMin sw sz ord d a b s
  | .amoMax sw sz ord d a b => Sys2Proof.Machine.execAmoMax sw sz ord d a b s
  | .amoMinu sw sz ord d a b => Sys2Proof.Machine.execAmoMinu sw sz ord d a b s
  | .amoMaxu sw sz ord d a b => Sys2Proof.Machine.execAmoMaxu sw sz ord d a b s
  | .amoFadd sw sz ord d a b => Sys2Proof.Machine.execAmoFadd sw sz ord d a b s
  | .amoSwap sw sz ord d a b => Sys2Proof.Machine.execAmoSwap sw sz ord d a b s
  | .amoCas sw sz ord d a b => Sys2Proof.Machine.execAmoCas sw sz ord d a b s
  | .rwlRacq sw noWait d a => Sys2Proof.Machine.execRwlRacq sw noWait d a s
  | .rwlRrel sw d a => Sys2Proof.Machine.execRwlRrel sw d a s
  | .rwlWacq sw noWait d a => Sys2Proof.Machine.execRwlWacq sw noWait d a s
  | .rwlWrel sw d a => Sys2Proof.Machine.execRwlWrel sw d a s
  | .fenceAcq sw scope => Sys2Proof.Machine.execFenceAcq sw scope s
  | .fenceRel sw scope => Sys2Proof.Machine.execFenceRel sw scope s
  | .fenceAr sw scope => Sys2Proof.Machine.execFenceAr sw scope s
  | .msgBind sw a b => Sys2Proof.Machine.execMsgBind sw a b s
  | .msgUnbind sw d b => Sys2Proof.Machine.execMsgUnbind sw d b s
  | .msgQlen sw d b => Sys2Proof.Machine.execMsgQlen sw d b s
  | .msgSend sw d a b => Sys2Proof.Machine.execMsgSend sw d a b s
  | .msgOvf sw d a => Sys2Proof.Machine.execMsgOvf sw d a s
  | .barReg sw => Sys2Proof.Machine.execBarReg sw s
  | .barWd sw => Sys2Proof.Machine.execBarWd sw s
  | .barArrive sw d => Sys2Proof.Machine.execBarArrive sw d s
  | .barWait sw a => Sys2Proof.Machine.execBarWait sw a s
  | .barSync sw => Sys2Proof.Machine.execBarSync sw s
  | .barWsync sw a => Sys2Proof.Machine.execBarWsync sw a s
  | .vfPush sw a => Sys2Proof.Machine.execVfPush sw a s
  | .vfPop sw a => Sys2Proof.Machine.execVfPop sw a s
  | .vfCount sw d => Sys2Proof.Machine.execVfCount sw d s
  | .vopAdd sw ty sat vd va vb m => Sys2Proof.Machine.execVopAdd sw ty sat vd va vb m s
  | .vopAddSx sw ty sat vd va xs m => Sys2Proof.Machine.execVopAddSx sw ty sat vd va xs m s
  | .vopSub sw ty sat vd va vb m => Sys2Proof.Machine.execVopSub sw ty sat vd va vb m s
  | .vopSubSx sw ty sat vd va xs m => Sys2Proof.Machine.execVopSubSx sw ty sat vd va xs m s
  | .vopMul sw ty sat vd va vb m => Sys2Proof.Machine.execVopMul sw ty sat vd va vb m s
  | .vopMulSx sw ty sat vd va xs m => Sys2Proof.Machine.execVopMulSx sw ty sat vd va xs m s
  | .vopMin sw ty vd va vb m => Sys2Proof.Machine.execVopMin sw ty vd va vb m s
  | .vopMinSx sw ty vd va xs m => Sys2Proof.Machine.execVopMinSx sw ty vd va xs m s
  | .vopMax sw ty vd va vb m => Sys2Proof.Machine.execVopMax sw ty vd va vb m s
  | .vopMaxSx sw ty vd va xs m => Sys2Proof.Machine.execVopMaxSx sw ty vd va xs m s
  | .vopAbs sw ty sat vd va m => Sys2Proof.Machine.execVopAbs sw ty sat vd va m s
  | .vopNeg sw ty sat vd va m => Sys2Proof.Machine.execVopNeg sw ty sat vd va m s
  | .vopDiv sw ty sat vd va vb m => Sys2Proof.Machine.execVopDiv sw ty sat vd va vb m s
  | .vopDivSx sw ty sat vd va xs m => Sys2Proof.Machine.execVopDivSx sw ty sat vd va xs m s
  | .vopSqrt sw ty vd va m => Sys2Proof.Machine.execVopSqrt sw ty vd va m s
  | .vopAnd sw ty vd va vb m => Sys2Proof.Machine.execVopAnd sw ty vd va vb m s
  | .vopAndSx sw ty vd va xs m => Sys2Proof.Machine.execVopAndSx sw ty vd va xs m s
  | .vopOr sw ty vd va vb m => Sys2Proof.Machine.execVopOr sw ty vd va vb m s
  | .vopOrSx sw ty vd va xs m => Sys2Proof.Machine.execVopOrSx sw ty vd va xs m s
  | .vopXor sw ty vd va vb m => Sys2Proof.Machine.execVopXor sw ty vd va vb m s
  | .vopXorSx sw ty vd va xs m => Sys2Proof.Machine.execVopXorSx sw ty vd va xs m s
  | .vopSll sw ty vd va vb m => Sys2Proof.Machine.execVopSll sw ty vd va vb m s
  | .vopSllSx sw ty vd va xs m => Sys2Proof.Machine.execVopSllSx sw ty vd va xs m s
  | .vopSrl sw ty vd va vb m => Sys2Proof.Machine.execVopSrl sw ty vd va vb m s
  | .vopSrlSx sw ty vd va xs m => Sys2Proof.Machine.execVopSrlSx sw ty vd va xs m s
  | .vopSra sw ty vd va vb m => Sys2Proof.Machine.execVopSra sw ty vd va vb m s
  | .vopSraSx sw ty vd va xs m => Sys2Proof.Machine.execVopSraSx sw ty vd va xs m s
  | .vopMulh sw ty vd va vb m => Sys2Proof.Machine.execVopMulh sw ty vd va vb m s
  | .vopMulhSx sw ty vd va xs m => Sys2Proof.Machine.execVopMulhSx sw ty vd va xs m s
  | .vfmaFma sw ty sat vd va vb vc m => Sys2Proof.Machine.execVfmaFma sw ty sat vd va vb vc m s
  | .vfmaFmaSx sw ty sat vd va xs m => Sys2Proof.Machine.execVfmaFmaSx sw ty sat vd va xs m s
  | .vfmaFms sw ty sat vd va vb vc m => Sys2Proof.Machine.execVfmaFms sw ty sat vd va vb vc m s
  | .vfmaFmsSx sw ty sat vd va xs m => Sys2Proof.Machine.execVfmaFmsSx sw ty sat vd va xs m s
  | .vfmaFnma sw ty sat vd va vb vc m => Sys2Proof.Machine.execVfmaFnma sw ty sat vd va vb vc m s
  | .vfmaFnmaSx sw ty sat vd va xs m => Sys2Proof.Machine.execVfmaFnmaSx sw ty sat vd va xs m s
  | .vfmaFnms sw ty sat vd va vb vc m => Sys2Proof.Machine.execVfmaFnms sw ty sat vd va vb vc m s
  | .vfmaFnmsSx sw ty sat vd va xs m => Sys2Proof.Machine.execVfmaFnmsSx sw ty sat vd va xs m s
  | .vfmaDot2 sw ty sat vd va vb vc m => Sys2Proof.Machine.execVfmaDot2 sw ty sat vd va vb vc m s
  | .vfmaDot2Sx sw ty sat vd va xs m => Sys2Proof.Machine.execVfmaDot2Sx sw ty sat vd va xs m s
  | .vfmaDot4 sw sat vd va vb vc m => Sys2Proof.Machine.execVfmaDot4 sw sat vd va vb vc m s
  | .vfmaDot4Sx sw sat vd va xs m => Sys2Proof.Machine.execVfmaDot4Sx sw sat vd va xs m s
  | .vcmp sw ty cond md va vb m => Sys2Proof.Machine.execVcmp sw ty cond md va vb m s
  | .vcmpSx sw ty cond md va xs m => Sys2Proof.Machine.execVcmpSx sw ty cond md va xs m s
  | .vredSum sw ty sat vd va m => Sys2Proof.Machine.execVredSum sw ty sat vd va m s
  | .vredMin sw ty vd va m => Sys2Proof.Machine.execVredMin sw ty vd va m s
  | .vredMax sw ty vd va m => Sys2Proof.Machine.execVredMax sw ty vd va m s
  | .vredAnd sw ty vd va m => Sys2Proof.Machine.execVredAnd sw ty vd va m s
  | .vredOr sw ty vd va m => Sys2Proof.Machine.execVredOr sw ty vd va m s
  | .vredXor sw ty vd va m => Sys2Proof.Machine.execVredXor sw ty vd va m s
  | .vredPerm sw ty vd va vb m => Sys2Proof.Machine.execVredPerm sw ty vd va vb m s
  | .vredRot sw ty vd va xs m => Sys2Proof.Machine.execVredRot sw ty vd va xs m s
  | .vcvt sw src dst high sat vd va vb m => Sys2Proof.Machine.execVcvt sw src dst high sat vd va vb m s
  | .vmovMov sw vd va m => Sys2Proof.Machine.execVmovMov sw vd va m s
  | .vmovSel sw ty vd va vb m => Sys2Proof.Machine.execVmovSel sw ty vd va vb m s
  | .vmovBcast sw ty vd xs m => Sys2Proof.Machine.execVmovBcast sw ty vd xs m s
  | .vmovExt sw ty va xs m => Sys2Proof.Machine.execVmovExt sw ty va xs m s
  | .vmovGetm sw xs m => Sys2Proof.Machine.execVmovGetm sw xs m s
  | .vmovSetm sw xs m => Sys2Proof.Machine.execVmovSetm sw xs m s
  | .vmovZero sw vd m => Sys2Proof.Machine.execVmovZero sw vd m s
  | .vmemLd sw ord v m a off => Sys2Proof.Machine.execVmemLd sw ord v m a off s
  | .vmemSt sw ord v m a off => Sys2Proof.Machine.execVmemSt sw ord v m a off s
  | .vmemLdf sw ord v m a off => Sys2Proof.Machine.execVmemLdf sw ord v m a off s
  | .vmemLdb sw ord v m a off => Sys2Proof.Machine.execVmemLdb sw ord v m a off s
  | .patCfg sw a => Sys2Proof.Machine.execPatCfg sw a s
  | .patExec sw d a b => Sys2Proof.Machine.execPatExec sw d a b s
  | .mxGang sw d a => Sys2Proof.Machine.execMxGang sw d a s
  | .mxRowout sw => Sys2Proof.Machine.execMxRowout sw s
  | .jobSub sw d a => Sys2Proof.Machine.execJobSub sw d a s
  | .jobPoll sw d a => Sys2Proof.Machine.execJobPoll sw d a s
  | .jobWait sw d a => Sys2Proof.Machine.execJobWait sw d a s
  | .xbarCnt sw a b => Sys2Proof.Machine.execXbarCnt sw a b s
  | .xbarTerm sw a b => Sys2Proof.Machine.execXbarTerm sw a b s
  | .xbarRdc sw d a => Sys2Proof.Machine.execXbarRdc sw d a s
  | .xbarPulse sw a => Sys2Proof.Machine.execXbarPulse sw a s
  | .xbarClr sw a => Sys2Proof.Machine.execXbarClr sw a s
  | .workStart sw d a b => Sys2Proof.Machine.execWorkStart sw d a b s
  | .workFork sw d a b => Sys2Proof.Machine.execWorkFork sw d a b s
  | .workJoin sw a => Sys2Proof.Machine.execWorkJoin sw a s
  | .workExit sw a => Sys2Proof.Machine.execWorkExit sw a s
  | .workYield sw => Sys2Proof.Machine.execWorkYield sw s
  | .workHold sw d a => Sys2Proof.Machine.execWorkHold sw d a s
  | .workRelease sw d a => Sys2Proof.Machine.execWorkRelease sw d a s
  | .workLaunch sw d a => Sys2Proof.Machine.execWorkLaunch sw d a s
  | .workMigrate sw d a => Sys2Proof.Machine.execWorkMigrate sw d a s
  | .otaskSub sw d a => Sys2Proof.Machine.execOtaskSub sw d a s
  | .otaskStat sw d a => Sys2Proof.Machine.execOtaskStat sw d a s
  | .gangLead sw d a => Sys2Proof.Machine.execGangLead sw d a s
  | .gangFollow sw d a => Sys2Proof.Machine.execGangFollow sw d a s
  | .gangJoin sw a => Sys2Proof.Machine.execGangJoin sw a s
  | .gangEnd sw => Sys2Proof.Machine.execGangEnd sw s
  | .gangStat sw d => Sys2Proof.Machine.execGangStat sw d s
  | .cxDef sw d a => Sys2Proof.Machine.execCxDef sw d a s
  | .cxDep sw d a b => Sys2Proof.Machine.execCxDep sw d a b s
  | .cxRun sw => Sys2Proof.Machine.execCxRun sw s
  | .cxStop sw => Sys2Proof.Machine.execCxStop sw s
  | .cxRd sw d a b => Sys2Proof.Machine.execCxRd sw d a b s
  | .cxSlope sw a b => Sys2Proof.Machine.execCxSlope sw a b s
  | .cxSample sw d a b => Sys2Proof.Machine.execCxSample sw d a b s
  | .srDef sw a => Sys2Proof.Machine.execSrDef sw a s
  | .srPut sw d a b => Sys2Proof.Machine.execSrPut sw d a b s
  | .srDone sw a => Sys2Proof.Machine.execSrDone sw a s
  | .srRej sw a => Sys2Proof.Machine.execSrRej sw a s
  | .srStat sw d a => Sys2Proof.Machine.execSrStat sw d a s
  | .srDrain sw d a => Sys2Proof.Machine.execSrDrain sw d a s
  | .frBoard sw d a => Sys2Proof.Machine.execFrBoard sw d a s
  | .frCancel sw d a => Sys2Proof.Machine.execFrCancel sw d a s
  | .frStat sw d a => Sys2Proof.Machine.execFrStat sw d a s
  | .redTree sw d a => Sys2Proof.Machine.execRedTree sw d a s
  | .redPut sw d a b => Sys2Proof.Machine.execRedPut sw d a b s
  | .redWait sw d a => Sys2Proof.Machine.execRedWait sw d a s
  | .redStat sw d a b => Sys2Proof.Machine.execRedStat sw d a b s
  | .redMan sw d a b => Sys2Proof.Machine.execRedMan sw d a b s
  | .sysGets sw d sn => Sys2Proof.Machine.execSysGets sw d sn s
  | .sysSets sw d sn => Sys2Proof.Machine.execSysSets sw d sn s
  | .sysBrk sw a => Sys2Proof.Machine.execSysBrk sw a s
  | .sysRet sw => Sys2Proof.Machine.execSysRet sw s
  | .sysGate sw d a => Sys2Proof.Machine.execSysGate sw d a s
  | .sysInvp sw a b => Sys2Proof.Machine.execSysInvp sw a b s
  | .sysInva sw b => Sys2Proof.Machine.execSysInva sw b s
  | .sysMret sw => Sys2Proof.Machine.execSysMret sw s
  | .amoHomeApply r => Sys2Proof.Machine.execAmoHomeApply r s
  | .lockReevaluate addr => Sys2Proof.Machine.execLockReevaluate addr s
  | .lockResend r => Sys2Proof.Machine.execLockResend r s
  | .messageArrival msg => Sys2Proof.Machine.execMessageArrival msg s
  | .sendOutcome who dest outcome => Sys2Proof.Machine.execSendOutcome who dest outcome s
  | .queueEntryArrival core port value => Sys2Proof.Machine.execQueueEntryArrival core port value s
  | .creditReturn core port => Sys2Proof.Machine.execCreditReturn core port s
  | .meshPhaseRelease die col row w h => Sys2Proof.Machine.execMeshPhaseRelease die col row w h s
  | .wiredTagRelease die tag => Sys2Proof.Machine.execWiredTagRelease die tag s
  | .gangBarrierConsume cluster => Sys2Proof.Machine.execGangBarrierConsume cluster s
  | .jobStart cluster engine => Sys2Proof.Machine.execJobStart cluster engine s
  | .rowEnd cluster slice => Sys2Proof.Machine.execRowEnd cluster slice s
  | .drainPathWrite cluster slice => Sys2Proof.Machine.execDrainPathWrite cluster slice s
  | .matrixOperationComplete cluster => Sys2Proof.Machine.execMatrixOperationComplete cluster s
  | .copyJobComplete cluster => Sys2Proof.Machine.execCopyJobComplete cluster s
  | .operationFailure cluster engine cause va => Sys2Proof.Machine.execOperationFailure cluster engine cause va s
  | .forwardedWordArrival core word pc => Sys2Proof.Machine.execForwardedWordArrival core word pc s
  | .sampleCapture who => Sys2Proof.Machine.execSampleCapture who s
  | .crossingSubmit cluster slot => Sys2Proof.Machine.execCrossingSubmit cluster slot s
  | .boardingRequest req => Sys2Proof.Machine.execBoardingRequest req s
  | .cancelRequest who dest ident => Sys2Proof.Machine.execCancelRequest who dest ident s
  | .contributionArrival router port c => Sys2Proof.Machine.execContributionArrival router port c s
  | .chunkComplete die slot chunk => Sys2Proof.Machine.execChunkComplete die slot chunk s
  | .failureNotice die slot chunk step hop => Sys2Proof.Machine.execFailureNotice die slot chunk step hop s
  | .srseedWrite cluster value => Sys2Proof.Machine.execSrseedWrite cluster value s
  | .barrectWrite core value => Sys2Proof.Machine.execBarrectWrite core value s
  | .wbartagWrite core value => Sys2Proof.Machine.execWbartagWrite core value s
  | .frspeedWrite value => Sys2Proof.Machine.execFrspeedWrite value s
  | .resultWrite who r => Sys2Proof.Machine.execResultWrite who r s
  | .storeAcknowledge who beyond mark => Sys2Proof.Machine.execStoreAcknowledge who beyond mark s
  | .watchReevaluate look => Sys2Proof.Machine.execWatchReevaluate look s
  | .postedPoisonTrap who va => Sys2Proof.Machine.execPostedPoisonTrap who va s
  | .swapOutComplete core => Sys2Proof.Machine.execSwapOutComplete core s
  | .dockWrite pier => Sys2Proof.Machine.execDockWrite pier s
  | .launchAcceptCheck die lid => Sys2Proof.Machine.execLaunchAcceptCheck die lid s
  | .berthLoad lid files => Sys2Proof.Machine.execBerthLoad lid files s
  | .preemptionRequest lid => Sys2Proof.Machine.execPreemptionRequest lid s
  | .preemptionHalt lid => Sys2Proof.Machine.execPreemptionHalt lid s
  | .launchEnd lid => Sys2Proof.Machine.execLaunchEnd lid s
  | .lineFetched core line => Sys2Proof.Machine.execLineFetched core line s
  | .migrationArrival m => Sys2Proof.Machine.execMigrationArrival m s
  | .stealBackoffExpiry core => Sys2Proof.Machine.execStealBackoffExpiry core s
  | .stealAttempt core => Sys2Proof.Machine.execStealAttempt core s
  | .crossbarCycle cluster => Sys2Proof.Machine.execCrossbarCycle cluster s
  | .stageDraw cluster => Sys2Proof.Machine.execStageDraw cluster s
  | .trapEntry who trap => Sys2Proof.Machine.execTrapEntry who trap s
  | .limiterStep group => Sys2Proof.Machine.execLimiterStep group s
  | .startSelector core => Sys2Proof.Machine.execStartSelector core s
  | .taskDispatch die => Sys2Proof.Machine.execTaskDispatch die s
  | .swapOut core => Sys2Proof.Machine.execSwapOut core s
  | .resumeRestore core => Sys2Proof.Machine.execResumeRestore core s
  | .taskCommit die => Sys2Proof.Machine.execTaskCommit die s
  | .tileTagStore core tile value => Sys2Proof.Machine.execTileTagStore core tile value s
  | .tileReadyEntryStore core entry dw value => Sys2Proof.Machine.execTileReadyEntryStore core entry dw value s
  | .tileReadyFire core entry => Sys2Proof.Machine.execTileReadyFire core entry s
  | .consume core ring n => Sys2Proof.Machine.execConsume core ring n s
  | .stallWatchdogTrip group => Sys2Proof.Machine.execStallWatchdogTrip group s
  | .ferryStep => Sys2Proof.Machine.execFerryStep s
  | .ringPause => Sys2Proof.Machine.execRingPause s
  | .lapBoundary => Sys2Proof.Machine.execLapBoundary s
  | .holdback => Sys2Proof.Machine.execHoldback s
  | .refreshWindow => Sys2Proof.Machine.execRefreshWindow s
  | .homeTranslation die tenant kind va => Sys2Proof.Machine.execHomeTranslation die tenant kind va s
  | .pageMigration die tenant va owner frame => Sys2Proof.Machine.execPageMigration die tenant va owner frame s
  | .lreq die value => Sys2Proof.Machine.execLreq die value s
  | .preemptlid die value => Sys2Proof.Machine.execPreemptlid die value s
  | .restorebase die value => Sys2Proof.Machine.execRestorebase die value s
  | .inval die value => Sys2Proof.Machine.execInval die value s
  | .presolve die value => Sys2Proof.Machine.execPresolve die value s
  | .fqbase die value => Sys2Proof.Machine.execFqbase die value s
  | .hostRegisterWrite die offset value => Sys2Proof.Machine.execHostRegisterWrite die offset value s
  | .headPlacement die => Sys2Proof.Machine.execHeadPlacement die s
  | .quantumExhausted lid => Sys2Proof.Machine.execQuantumExhausted lid s
  | .actfcUpdate die => Sys2Proof.Machine.execActfcUpdate die s
  | .linkFlitRefused link dieA dieB again => Sys2Proof.Machine.execLinkFlitRefused link dieA dieB again s
  | .tenantFieldError who va packet copyGood => Sys2Proof.Machine.execTenantFieldError who va packet copyGood s
  | .machineCheck core intact => Sys2Proof.Machine.execMachineCheck core intact s
  | .scrub addr finding => Sys2Proof.Machine.execScrub addr finding s
  | .coreRetirement die rowPair => Sys2Proof.Machine.execCoreRetirement die rowPair s
  | .powerDown core => Sys2Proof.Machine.execPowerDown core s
  | .wake core => Sys2Proof.Machine.execWake core s
  | .routerClockGate core => Sys2Proof.Machine.execRouterClockGate core s
  | .moduleReset => Sys2Proof.Machine.execModuleReset s
  | .rdmaWrite tenant va bytes => Sys2Proof.Machine.execRdmaWrite tenant va bytes s
  | .rdmaRead tenant va len => Sys2Proof.Machine.execRdmaRead tenant va len s
  | .send tenant bytes => Sys2Proof.Machine.execSend tenant bytes s
  | .cxlMemAccess pa write len => Sys2Proof.Machine.execCxlMemAccess pa write len s
  | .getVersion => Sys2Proof.Machine.execGetVersion s
  | .getCapabilities => Sys2Proof.Machine.execGetCapabilities s
  | .negotiateAlgorithms asym hash => Sys2Proof.Machine.execNegotiateAlgorithms asym hash s
  | .getDigests => Sys2Proof.Machine.execGetDigests s
  | .getCertificate slot offset len => Sys2Proof.Machine.execGetCertificate slot offset len s
  | .challenge slot nonce => Sys2Proof.Machine.execChallenge slot nonce s
  | .getMeasurements index => Sys2Proof.Machine.execGetMeasurements index s
  | .prqhead die value => Sys2Proof.Machine.execPrqhead die value s
  | .firmwareImageWrite image => Sys2Proof.Machine.execFirmwareImageWrite image s
  | .junctionLimit die => Sys2Proof.Machine.execJunctionLimit die s

end Sys2Proof.Machine
end

