-- ==== Sys2Proof/Machine/Cycle.lean ====
section
/-! DEFINITION. The order of a core cycle (01 R23; notes/assumptions/1): dated events that are due, then the issue of each core in
ascending core index, then the start of the next core cycle. -/

namespace Sys2Proof.Machine

/-! ### The candidate that issues next -/

/-- A context that may try its next word in this core cycle: live, unparked, and not in its first cycles (01 R17). -/
def Core.mayTry (k : Core) (c : CtxNo) (cycle : Nat) : Bool :=
  let x := k.ctxs.get c
  x.live && decide (x.park = .none) && decide (x.readyAt ≤ cycle) && k.mover.clear c

/-- The j-th context of the round-robin search of a core (01 R23). -/
def Core.candidate (k : Core) (j : Nat) : CtxNo := Fin.ofNat 11 (k.lastIssued + 1 + j)

/-- The next candidate of this core cycle at or after `turn`, in ascending core index and search order; of the core alone whose
request for a butterfly port is being decided. -/
def State.nextCandidate (s : State) : Option (Nat × CtxId) :=
  s.cores.findSome? (fun e =>
    if e.1 * 11 + 10 < s.turn || e.2.halted || e.2.down || s.deciding.any (fun c => decide (c ≠ e.1)) then none
    else (List.range 11).findSome? (fun j =>
      let c := e.2.candidate j
      if s.turn ≤ e.1 * 11 + j && e.2.mayTry c s.cycle then some (e.1 * 11 + j, { core := e.1, ctx := c }) else none))

/-! ### Issue of one word -/

/-- A posted relaxed atomic, which need not wait for the context's earlier ones on their way (06 R128). -/
def postedRelaxed (i : Instr) : Bool :=
  match i with
  | .amoAdd _ _ .rlx d _ _ | .amoAnd _ _ .rlx d _ _ | .amoOr _ _ .rlx d _ _ | .amoXor _ _ .rlx d _ _ | .amoMin _ _ .rlx d _ _
  | .amoMax _ _ .rlx d _ _ | .amoMinu _ _ .rlx d _ _ | .amoMaxu _ _ .rlx d _ _ | .amoFadd _ _ .rlx d _ _
  | .amoSwap _ _ .rlx d _ _ | .amoCas _ _ .rlx d _ _ => decide (d = 0)
  | _ => false

/-- The place in the issue order after a word that is not ready: the search goes on, or waits for the butterfly ports (14 R284). -/
def State.passedOver (t : State) (cursor : Nat) (w : CtxId) : State :=
  { t with turn := if t.asked.contains w then (w.core + 1) * 11 else cursor + 1, stalled := false }

/-- The request of a parked word at a butterfly port is decided (14 R284): a doubleword of its block is read, or a counter's decrement sent. -/
def State.portDecided (s : State) (w : CtxId) : State :=
  match (s.ctx w).park with
  | .patCfg va t got sw =>
    match s.readServed w va got with
    | (s, some (.ok ds)) => s.modCtx w (fun c => { c with park := .patCfg va t ds sw })
    | (s, some (.error e)) => s.patchFails w e
    | (s, none) => s
  | .mxRead va t got d sw =>
    match s.readServed w va got with
    | (s, some (.ok ds)) => s.modCtx w (fun c => { c with park := .mxRead va t ds d sw })
    | (s, some (.error e)) => s.raiseParked w d e
    | (s, none) => s
  | .exiting a => s.tryExit w a
  | _ => s

/-- Once every core has been tried, the requests for butterfly ports are decided one by one: the core's search goes on from the word
that asked, unless the context is parked in it. -/
def State.decide? (s : State) : Option State :=
  match s.asked with
  | [] => none
  | w :: rest =>
    let s' := { s with asked := rest, deciding := some w.core }
    some (if (s.ctx w).park = .none then { s' with turn := w.core * 11 + (w.ctx.val + 10 - (s.core w.core).lastIssued) % 11 }
      else { s' with turn := (w.core + 1) * 11 }.portDecided w)

/-- The core has used its issue slot of this core cycle. -/
def State.slotUsed (s : State) (w : CtxId) : State :=
  { s.modCore w.core (fun k => { k with lastIssued := w.ctx.val, issuedAt := some s.cycle }) with turn := (w.core + 1) * 11, stalled := false }

/-- Issues the word fetched by a candidate: a word that is not ready leaves the search to the next candidate. -/
def State.issueWord (s : State) (cursor : Nat) (w : CtxId) (word : BitVec 32) : Host.Outcome State Fault Refusal :=
  match decode word with
  | .error f => .next ((s.decodeFails w f word).slotUsed w)
  | .ok i =>
    if !postedRelaxed i && s.agenda.any (inFlightOf w) then .next (s.hurry w)
    else match exec i { s with who := w, stalled := false } with
      | .next t => .next (if t.stalled then t.passedOver cursor w else (t.followed w).slotUsed w)
      | .fault f => .fault f
      | .refused r => .refused r

/-- One try of the search of 01 R23. DESIGN CHOICE (notes/assumptions/109): a trap of the fetch or of the decoding uses the core's issue slot, and its
context counts as the one that issued last; the trap of a poisoned acknowledgement, which comes between two words, does neither. -/
def State.tryCandidate (s : State) (cursor : Nat) (w : CtxId) : Host.Outcome State Fault Refusal :=
  if !(s.ctx w).poisonAcks.isEmpty then .next (s.deliverPoison w)
  else match s.fetch w with
    | .busy => .next { s with turn := cursor + 1 }
    | .begin t => .next { t with turn := cursor + 1 }
    | .trap t p => .next ((t.raise w p).slotUsed w)
    | .word t word => t.issueWord cursor w word

/-! ### The start of a core cycle -/

/-- What a parked context waits for is looked at once in each core cycle; waits that an event ends are not looked at here. -/
def State.poll (s : State) (w : CtxId) : State :=
  match (s.ctx w).park with
  | .none | .marker | .trap _ | .ret | .watch .. | .joining .. | .barrier .. | .wired .. | .mxGang .. | .jobWait .. | .held _ | .storeFull
  | .pier .. => s
  | .fence .. | .lock .. | .sending .. | .vfPush .. | .vfPop .. | .vfPopWrite .. => s.pollSync w
  | .exiting a => if (s.ctx w).outstanding.isEmpty then s.tryExit w a else s
  | .patCfg .. => s.pollPatch w
  | .yielding _ => s.pollYield w
  | .gangLead .. => s.pollLead w
  | .gangFollow .. => s.pollFollow w
  | .gangJoin .. => s.pollJoinGang w
  | .mxRead .. => s.pollMatrix w
  | .jobSub .. => s.pollJobSub w
  | .launching .. => s.pollLaunch w
  | .migrating .. => s.pollMigrate w
  | .otaskSub .. => s.pollOtaskSub w
  | .cxDef .. => s.pollCxDef w
  | .cxSample .. => s.pollSample w
  | .srDef .. => s.pollSrDef w
  | .srDrain .. => s.pollDrain w
  | .frBoard .. => s.pollFrBoard w
  | .redTree .. => s.pollRedTree w
  | .redPut .. => s.pollRedPut w
  | .redWait .. => s.pollRedWait w
  | .gate .. => s.pollGate w
  | .invalidating .. => s.pollInvalidate w

/-- The cores, clusters and dies that hold state. -/
def State.coreList (s : State) : List Nat := s.cores.map (·.1)
def State.clusterList (s : State) : List Nat := s.clusters.map (·.1)
def State.dieList (s : State) : List Nat := s.dies.map (·.1)
def State.groupList (s : State) : List Nat := (s.coreList.map groupOf).dedup

/-- A cluster whose launch may act. -/
def State.clusterRuns (s : State) (cl : Nat) : Bool := !(s.core (coreOfCluster cl 0)).halted

/-- The contexts of a core in a core cycle: what has ended for them, and what they wait for. -/
def State.beginCore (s : State) (core : Nat) : State :=
  let s := ((s.ungate core).powerStep core).moverEnd core |>.stopGang core
  -- The pipeline of a core that is down does nothing (24 R420).
  if (s.core core).down then s
  else (List.finRange 11).foldl (fun s c => if ((s.core core).ctxs.get c).live then s.poll { core := core, ctx := c } else s) s

/-- The engines and the crossbar of a cluster in a core cycle (07 R152, R154, R172; 16 R334). -/
def State.beginCluster (s : State) (cl : Nat) : State :=
  let s := s.acceptJobs cl
  if s.clusterRuns cl then
    let s := ((s.startJobs cl).noteGang cl).modCluster cl (fun k => k.crossbar.drawOne s.cycle)
    (coresOfCluster cl).foldl (fun s c => if (s.core c).slice.waiting && !(s.core c).down then s.unstall c else s) s
  else s

/-- The selector of a core and its swap-out in a core cycle (13 R268 to R273). -/
def State.startCore (s : State) (core : Nat) : State :=
  if (s.core core).halted || (s.core core).down then s else (s.select core).swapStep core

/-- Its stealing, once every owner has had its pop (13 R270, R271). -/
def State.stealCore (s : State) (core : Nat) : State :=
  if (s.core core).halted || (s.core core).down then s.stealMove core else ((s.stealMove core).backoffEnd core).stealStep core

/-- What begins a core cycle, once its dated events have been performed (notes/assumptions/1): the die controllers, the second ring cycle,
the contexts, the engines, the limiter, the tasks and the selectors. -/
def State.beginCycle (s : State) : State :=
  let s : State := { s with begun := true }.launchesCycle.interfacesCycle.retirePairs
  let s := s.ringCycle (2 * s.cycle + 1)
  let s := s.dieList.foldl (fun s d => s.moveSweeps d) s
  let s := s.coreList.foldl (fun s c => s.beginCore c) s
  let s := s.clusterList.foldl (fun s c => s.beginCluster c) s
  let s := if s.cycle % 4 = 0 then s.groupList.foldl (fun s g => s.limiter g) s else s
  let s := s.submitAll
  let s := s.dieList.foldl (fun s d => (s.die d).taskLids.foldl (fun s l => s.commitStep d l) s) s
  let s := s.coreList.foldl (fun s c => s.startCore c) s
  s.coreList.foldl (fun s c => s.stealCore c) s

/-- What has been noted in a core cycle takes effect at its end (10 R234, 19 R348). -/
def State.landLate (s : State) : State :=
  s.late.foldl (fun s e => match e.2 with | .write sn v => s.writeLate e.1 sn v | .run => s.startUnit (clusterOf e.1)) { s with late := [] }

/-- The next core cycle begins: what the docks were writing, then its first ring cycle. -/
def State.tick (s : State) : State :=
  let s := s.groupList.foldl (fun s g => s.watchdog g) s
  let s := s.coreList.foldl (fun s c => (s.countQuiet c).countFlits c) s
  let s := (s.dieList.foldl (fun s d => s.commitsAtEnd d) s).landLate
  let s : State := { s with cycle := s.cycle + 1, turn := 0, begun := false, asked := [], deciding := none }
  (s.dieList.foldl (fun s d => s.moveDock d) s).ringCycle (2 * s.cycle)

/-! ### The step -/

/-- What follows once no candidate is left: the next request for a butterfly port is decided, or the core cycle ends. -/
def State.searched (s : State) : State := s.decide?.getD s.tick

/-- One step: a due event, the start of the core cycle, a try of the issue search, or the end of the core cycle. -/
def State.advance (s : State) : Host.Outcome State Fault Refusal :=
  match s.agenda with
  | (due, i) :: rest =>
    if due ≤ s.cycle then (if WellFormed i then exec i { s with agenda := rest } else .fault .illFormedEvent)
    else if !s.begun then .next s.beginCycle
    else match s.nextCandidate with
      | some (cursor, w) => s.tryCandidate cursor w
      | none => .next s.searched
  | [] =>
    if !s.begun then .next s.beginCycle
    else match s.nextCandidate with
      | some (cursor, w) => s.tryCandidate cursor w
      | none => .next s.searched

end Sys2Proof.Machine
end

