-- ==== Sys2Proof/Machine/Step.lean ====
section
/-! DEFINITION. The step of the machine, and the placement of an instruction where the next step fetches it. -/

namespace Sys2Proof.Machine

/-- One step (notes/assumptions/1): a due event, one try of the issue search of a core cycle, or the start of the next core cycle. -/
def step (s : State) : Host.Outcome State Fault Refusal := s.advance

/-- The state in which the next step fetches and runs the word w. Every word has 32 bits (02 R33). -/
def State.withFetchWord (s : State) (_nbits w : Nat) : State := s.placeWord (BitVec.ofNat 32 w)

end Sys2Proof.Machine
end

