-- ==== Sys2Proof/Safety.lean ====
section
/-! DEFINITION. What counts as a safe run, in the terms claims use: the invariants of the machine, and the conditions on a state under
which a word issues and nothing but its own effect takes place. -/

namespace Sys2Proof.Machine

/-- Memory keeps its canonical form. -/
def State.MemOk (s : State) : Prop := Memory.wf s.mem = true

/-- The cores that the state lists stand in ascending order, each once (00 R3). -/
def State.CoresOk (s : State) : Prop := (s.cores.map (·.1)).Pairwise (· < ·)

/-- What every step keeps. -/
structure State.Inv (s : State) : Prop where
  memory : s.MemOk
  cores : s.CoresOk

/-- Nothing stands in the way of the next word of `s.who`, whose sources and destinations are given: it leads no gang (08 R200), no x operand
is a bound queue port (06 R116), and no operand awaits a result (01 R18, R21). Results of other registers may be outstanding. -/
structure State.Clear (s : State) (srcs dests : List Dest) : Prop where
  noLead : (s.core s.who.core).leads s.who = false
  noPort : ∀ r : XReg, Dest.x r ∈ srcs ++ dests → (s.core s.who.core).isPort r = false
  noHazard : ∀ o ∈ (s.ctx s.who).outstanding, o.dest ∉ srcs ++ dests

/-- No hint word is pending (01 R25). -/
def State.NoHints (s : State) : Prop := (s.ctx s.who).hints.pending = false

/-- The pending hint words, if any, are ones that an immediate form accepts (04 R89, R90). -/
def State.ImmHints (s : State) : Prop :=
  (s.ctx s.who).hints.mod = none ∧ (s.ctx s.who).hints.reg = none ∧ ((s.ctx s.who).hints.imx.isSome → (s.ctx s.who).hints.imm.isSome)

/-- The context runs no ordered task (08 R193). -/
def State.NoTask (s : State) : Prop := ∀ slot, (s.ctx s.who).role ≠ .task slot

/-- The core is in monitor mode (00 R4). -/
def State.Monitor (s : State) : Prop := (s.core s.who.core).mode = .monitor

/-- An immediate field as a hint group widens it (04 R89), signed: the data of `imx` above that of `imm` above the field. -/
def Hints.signed (h : Hints) {n : Nat} (f : BitVec n) : Int :=
  match h.imm, h.imx with
  | .none, _ => f.toInt
  | .some i, .none => (i ++ f).toInt
  | .some i, .some j => (j ++ (i ++ f)).toInt

/-- An immediate field as a hint group widens it, unsigned. -/
def Hints.unsigned (h : Hints) {n : Nat} (f : BitVec n) : Nat :=
  match h.imm, h.imx with
  | .none, _ => f.toNat
  | .some i, .none => (i ++ f).toNat
  | .some i, .some j => (j ++ (i ++ f)).toNat

/-- The state after a word that does no more than change its own context by f, and goes on at `next`: the hint group is consumed, and a
switch marker parks the context while results are outstanding (01 R19, R20, R25). Everything else is as before. -/
def State.after (s : State) (sw : Bool) (next : Word) (f : Ctx → Ctx) : State :=
  s.modCtx s.who (fun c => (f c).retire s.cycle sw next false)

/-- The state after a word that goes on at the next word of its line, or of the next line (01 R13). -/
def State.afterWord (s : State) (sw : Bool) (f : Ctx → Ctx) : State := s.after sw (seqNext (s.ctx s.who).pc) f

/-- The state after a word whose result r is written at the end of the core cycle `lat` cycles on: until then its destination, if it is a
register, is outstanding (01 R18, R20). -/
def State.afterResult (s : State) (sw : Bool) (lat : Nat) (by_ : Producer) (r : Result) : State :=
  (s.afterWord sw (fun c => { c with
    outstanding := c.outstanding ++ if r.dest.isNone then [] else [c.mark r.dest by_] })).post (s.cycle + lat + 1) (.resultWrite s.who r)

/-- `afterResult` for a scalar result; nothing is written to x0, and nothing is outstanding (00 R6). -/
def State.afterScalar (s : State) (sw : Bool) (lat : Nat) (by_ : Producer) (d : XReg) (v : Word) : State :=
  if d = 0 then s.afterWord sw id else s.afterResult sw lat by_ (Result.plain (.x d) (v.setWidth 512))

/-- `afterScalar` for the reply of an access: beyond the group the reply may be marked (14 R300), a free choice. -/
def State.afterReply (s : State) (a : Access) (sw : Bool) (lat : Nat) (by_ : Producer) (d : XReg) (v : Word) : State :=
  if a.beyond then
    s.drew.afterResult sw lat by_ { Result.plain (.x d) (v.setWidth 512) with beyond := true, mark := s.mark }
  else s.afterScalar sw lat by_ d v

/-- The state in which an access of a core has been served: its butterfly port has noted it (14 R284), and one beyond the group counts
against the window of 14 R301. -/
def State.served (s : State) (core : Nat) (a : Access) : State := (s.servePort core a).countBeyond core a.beyond

/-- An access of `s.who` to n bytes at `va` passes rows 1 to 3 of 06 R115, and nothing holds it back (14 R284, R301): `t` is the state in
which it has been translated, `a` where it lands. -/
structure State.Reaches (s : State) (kind : AccessKind) (va : Word) (n : Nat) (t : State) (a : Access) : Prop where
  aligned : va.toNat % n = 0
  resolves : s.resolve s.who.core kind va n = (t, .ok a)
  window : a.beyond = true → (t.core s.who.core).beyond < (t.core s.who.core).wn
  port : t.portServes s.who.core a = true

/-- One more access of `s.who` is unacknowledged, until its home's report comes back after the access's latency (06 R120). -/
def State.unacknowledged (s : State) (a : Access) : State :=
  let s := s.modCtx s.who (fun c => { c with unacked := c.unacked + 1 })
  if a.beyond then (s.postEnd a.lat (.storeAcknowledge (s.issuer s.who) true s.mark)).drew else s.postEnd a.lat (.storeAcknowledge (s.issuer s.who) false false)

/-- A lanewise result (05 R95, R97, R98): each active lane takes the value of f, each other lane of the destination is kept, and the
flags are those of the active lanes. -/
structure WritesLanes (r : Result) (ty : LaneTy) (m : BitVec 32) (f : Nat → FRes) : Prop where
  written : ∀ i < ty.count, laneActive ty m i = true → lane ty.width r.value i = (f i).bits % 2 ^ ty.width ∧ lane ty.width r.keep i = 0
  kept : ∀ i < ty.count, laneActive ty m i = false → lane ty.width r.keep i = 2 ^ ty.width - 1
  flags : r.flags = ((List.range ty.count).filter (laneActive ty m)).foldl (fun a i => a.union (f i).flags) FFlags.none

/-- The state while a word parks its context. -/
def State.parkedIn (s : State) (p : Park) : State := s.modCtx s.who (fun c => { c with park := p, parkedAt := s.cycle })

end Sys2Proof.Machine
end

