-- ==== Sys2Proof/Certificates/Slice0/Obligations.lean ====
section
/-! DEFINITION. The statements for the provers, in the order of the files of spec/. A statement about every state holds also in states
that no run reaches. -/

open Sys2Proof Sys2Proof.Machine

/-- With no hint word pending, no port or outstanding result among its operands and no gang led, each single-cycle alu word completes: x[d] takes the
value the rule gives from x[a] and x[b], the context goes on at the next word, and the state is otherwise as before. The twelve conditions hold
exactly as their table says. Rules: R83. -/
def Obligations.SingleCycleAluResult : Prop :=
  (
      ∀ (s : State) (sw : Bool) (d a b : XReg), s.Clear [.x a, .x b] [.x d] → s.NoHints →
        let A := (s.ctx s.who).getX a
        let B := (s.ctx s.who).getX b
        let n := B.toNat % 64
        let gives (i : Instr) (v : Word) : Prop := exec i s = .next (s.afterWord sw (fun c => c.setX d v))
        gives (.aluAdd sw d a b) (A + B) ∧ gives (.aluSub sw d a b) (A - B) ∧ gives (.aluAnd sw d a b) (A &&& B)
          ∧ gives (.aluOr sw d a b) (A ||| B) ∧ gives (.aluXor sw d a b) (A ^^^ B) ∧ gives (.aluAnot sw d a b) (A &&& ~~~B)
          ∧ gives (.aluSll sw d a b) (A <<< n) ∧ gives (.aluSrl sw d a b) (A >>> n)
          ∧ gives (.aluSra sw d a b) (BitVec.ofInt 64 (A.toInt / 2 ^ n)) ∧ gives (.aluRol sw d a b) (A.rotateLeft n)
          ∧ gives (.aluMin sw d a b) (BitVec.ofInt 64 (min A.toInt B.toInt)) ∧ gives (.aluMax sw d a b) (BitVec.ofInt 64 (max A.toInt B.toInt))
          ∧ gives (.aluUmin sw d a b) (BitVec.ofNat 64 (min A.toNat B.toNat)) ∧ gives (.aluUmax sw d a b) (BitVec.ofNat 64 (max A.toNat B.toNat))
          ∧ gives (.aluStep2 sw d a b) (A * 2 + B) ∧ gives (.aluStep4 sw d a b) (A * 4 + B)
          ∧ gives (.aluStep8 sw d a b) (A * 8 + B) ∧ gives (.aluStep64 sw d a b) (A * 64 + B)
          ∧ ∀ c : Cond, gives (.aluCmp sw c d a b) (if condHolds c A B then 1 else 0))
    ∧ (
      ∀ (s : State) (sw : Bool) (d a : XReg), s.Clear [.x a] [.x d] → s.NoHints →
        let A := (s.ctx s.who).getX a
        let gives (i : Instr) (P : Word → Prop) : Prop := ∃ v, P v ∧ exec i s = .next (s.afterWord sw (fun c => c.setX d v))
        gives (.aluLzc sw d a) (fun v => v.toNat ≤ 64 ∧ A.toNat < 2 ^ (64 - v.toNat) ∧ (v.toNat < 64 → 2 ^ (63 - v.toNat) ≤ A.toNat))
          ∧ gives (.aluTzc sw d a) (fun v => v.toNat ≤ 64 ∧ (∀ i < v.toNat, A.getLsbD i = false) ∧ (v.toNat < 64 → A.getLsbD v.toNat = true))
          ∧ gives (.aluOnes sw d a) (fun v => v.toNat = ((List.range 64).filter (fun i => A.getLsbD i)).length)
          ∧ gives (.aluSx8 sw d a) (fun v => v = BitVec.ofInt 64 (A.setWidth 8).toInt)
          ∧ gives (.aluSx16 sw d a) (fun v => v = BitVec.ofInt 64 (A.setWidth 16).toInt)
          ∧ gives (.aluSx32 sw d a) (fun v => v = BitVec.ofInt 64 (A.setWidth 32).toInt)
          ∧ gives (.aluZx32 sw d a) (fun v => v = BitVec.ofNat 64 (A.toNat % 2 ^ 32)))
    ∧ (
      ∀ A B : Word,
        (condHolds .eq A B ↔ A = B) ∧ (condHolds .ne A B ↔ A ≠ B) ∧ (condHolds .lt A B ↔ A.toInt < B.toInt) ∧ (condHolds .ge A B ↔ B.toInt ≤ A.toInt)
          ∧ (condHolds .gt A B ↔ B.toInt < A.toInt) ∧ (condHolds .le A B ↔ A.toInt ≤ B.toInt) ∧ (condHolds .ltu A B ↔ A.toNat < B.toNat)
          ∧ (condHolds .geu A B ↔ B.toNat ≤ A.toNat) ∧ (condHolds .gtu A B ↔ B.toNat < A.toNat) ∧ (condHolds .leu A B ↔ A.toNat ≤ B.toNat)
          ∧ (condHolds .any A B ↔ A &&& B ≠ 0) ∧ (condHolds .none A B ↔ A &&& B = 0))

/-- Each multiply word completes with its result posted for the end of cycle c + 3. Each divide-family word, when the divider is idle, completes with
its result posted for the end of cycle c + 20 and occupies the divider until then; while the divider is occupied the word is not ready. Division by
zero and the most negative quotient give the stated values. Rules: R84. -/
def Obligations.MultiplyAndDivideResult : Prop :=
  ∀ (s : State) (sw : Bool) (d a b : XReg), s.Clear [.x a, .x b] [.x d] → s.NoHints →
    let A := (s.ctx s.who).getX a
    let B := (s.ctx s.who).getX b
    let mul (i : Instr) (v : Word) : Prop := exec i s = .next (s.afterScalar sw 3 .unit d v)
    let div (i : Instr) (v : Word) : Prop :=
      ((s.core s.who.core).divBusy ≤ s.cycle →
        exec i s = .next ((s.modCore s.who.core (fun k => { k with divBusy := s.cycle + 21 })).afterScalar sw 20 .unit d v))
      ∧ (s.cycle < (s.core s.who.core).divBusy → exec i s = .next { s with stalled := true })
    mul (.aluMul sw d a b) (BitVec.ofNat 64 (A.toNat * B.toNat)) ∧ mul (.aluHiss sw d a b) (BitVec.ofInt 64 (A.toInt * B.toInt / 2 ^ 64))
      ∧ mul (.aluHiuu sw d a b) (BitVec.ofNat 64 (A.toNat * B.toNat / 2 ^ 64)) ∧ mul (.aluHisu sw d a b) (BitVec.ofInt 64 (A.toInt * B.toNat / 2 ^ 64))
      ∧ div (.aluQuo sw d a b) (if B = 0 then BitVec.allOnes 64 else BitVec.ofInt 64 (A.toInt.tdiv B.toInt))
      ∧ div (.aluQuou sw d a b) (if B = 0 then BitVec.allOnes 64 else BitVec.ofNat 64 (A.toNat / B.toNat))
      ∧ div (.aluRmd sw d a b) (if B = 0 then A else BitVec.ofInt 64 (A.toInt.tmod B.toInt))
      ∧ div (.aluRmdu sw d a b) (if B = 0 then A else BitVec.ofNat 64 (A.toNat % B.toNat))

/-- If an alu or immediate word answers a next state, every x register but x[d] reads as before, x0 reads 0, every v and m register, every flag, every
trap register and the barrier and acknowledgement counts of the context are unchanged, every other context is unchanged, every byte of memory reads
as before, and the clusters, groups, dies, launches, ferry and host are unchanged. Rules: R6, R83, R84, R87. -/
def Obligations.ScalarWordFrame : Prop :=
  ∀ (s t : State) (sw : Bool) (d a b : XReg) (imm : BitVec 15) (imm11 : BitVec 11) (imm20 : BitVec 20) (c : Cond) (i : Instr),
    s.Clear [.x a, .x b] [.x d] → s.NoHints →
    i ∈ [.aluAdd sw d a b, .aluSub sw d a b, .aluAnd sw d a b, .aluOr sw d a b, .aluXor sw d a b, .aluAnot sw d a b, .aluSll sw d a b, .aluSrl sw d a b,
        .aluSra sw d a b, .aluRol sw d a b, .aluMin sw d a b, .aluMax sw d a b, .aluUmin sw d a b, .aluUmax sw d a b, .aluStep2 sw d a b,
        .aluStep4 sw d a b, .aluStep8 sw d a b, .aluStep64 sw d a b, .aluCmp sw c d a b]
      ∨ i ∈ [.aluLzc sw d a, .aluTzc sw d a, .aluOnes sw d a, .aluSx8 sw d a, .aluSx16 sw d a, .aluSx32 sw d a, .aluZx32 sw d a, .aluMul sw d a b,
        .aluHiss sw d a b, .aluHiuu sw d a b, .aluHisu sw d a b, .aluQuo sw d a b, .aluQuou sw d a b, .aluRmd sw d a b, .aluRmdu sw d a b]
      ∨ i ∈ [.addi sw d a imm, .andi sw d a imm, .ori sw d a imm, .xori sw d a imm, .cmpi sw c d a imm11, .lim sw d imm20] →
    exec i s = .next t →
      let x := s.ctx s.who
      let y := t.ctx s.who
      (∀ r : XReg, r ≠ d → y.getX r = x.getX r) ∧ y.getX 0 = 0 ∧ (∀ v : VReg, y.getV v = x.getV v) ∧ (∀ m : MReg, y.getM m = x.getM m)
        ∧ y.flags = x.flags ∧ y.intrap = x.intrap ∧ y.whtrap = x.whtrap ∧ y.winhaz = x.winhaz ∧ y.trapCause = x.trapCause ∧ y.trapPc = x.trapPc
        ∧ y.trapVal = x.trapVal ∧ y.trapVec = x.trapVec ∧ y.registered = x.registered ∧ y.unacked = x.unacked
        ∧ (∀ w : CtxId, w ≠ s.who → t.ctx w = s.ctx w) ∧ (∀ key, Memory.read t.mem key = Memory.read s.mem key)
        ∧ t.clusters = s.clusters ∧ t.groups = s.groups ∧ t.dies = s.dies ∧ t.ferry = s.ferry ∧ t.launches = s.launches ∧ t.host = s.host

/-- addi, andi, ori, xori, cmpi and lim complete with the stated value of x[a] and the immediate, sign-extended for addi, cmpi and lim and zero-extended
for andi, ori and xori; a pending imm, or imx with imm, stands above the field; the group is consumed. Rules: R82, R87, R89, R90. -/
def Obligations.ImmediateResult : Prop :=
  ∀ (s : State) (sw : Bool) (d a : XReg) (imm : BitVec 15) (imm11 : BitVec 11) (imm20 : BitVec 20) (c : Cond), s.ImmHints →
    let A := (s.ctx s.who).getX a
    let h := (s.ctx s.who).hints
    let gives (i : Instr) (v : Word) : Prop := exec i s = .next (s.afterWord sw (fun c => c.setX d v))
    (s.Clear [.x a] [.x d] →
      gives (.addi sw d a imm) (A + BitVec.ofInt 64 (h.signed imm)) ∧ gives (.andi sw d a imm) (A &&& BitVec.ofNat 64 (h.unsigned imm))
        ∧ gives (.ori sw d a imm) (A ||| BitVec.ofNat 64 (h.unsigned imm)) ∧ gives (.xori sw d a imm) (A ^^^ BitVec.ofNat 64 (h.unsigned imm))
        ∧ gives (.cmpi sw c d a imm11) (if condHolds c A (BitVec.ofInt 64 (h.signed imm11)) then 1 else 0))
      ∧ (s.Clear [] [.x d] → gives (.lim sw d imm20) (BitVec.ofInt 64 (h.signed imm20)))

/-- A br whose condition on x[a] fails goes on at the next word. A taken br, a jmp and a jr check their target; when it passes they go there, jmp and jr
writing the address of the next word to x[d] from the operands as they stood at issue; when it fails they trap with the PC and the link unchanged.
Rules: R82, R89, R91, R92, R15. -/
def Obligations.ControlTransferOutcome : Prop :=
  (
      ∀ (s : State) (sw : Bool) (a : XReg) (cond : Cond) (disp : BitVec 16), s.ImmHints → s.Clear [.x a] [] → WellFormed.br cond = true →
        let A := (s.ctx s.who).getX a
        let target := (s.ctx s.who).pc + BitVec.ofInt 64 ((s.ctx s.who).hints.signed disp * 4)
        let taken : Prop := match cond with
          | .eq => A = 0 | .ne => A ≠ 0 | .lt => A.toInt < 0 | .ge => 0 ≤ A.toInt | .gt => 0 < A.toInt | .le => A.toInt ≤ 0
          | .any => A.getLsbD 0 = true | _ => A.getLsbD 0 = false
        (¬taken → exec (.br sw cond a disp) s = .next (s.afterWord sw id))
          ∧ (taken → ∀ s', s.checkTarget s.who.core target true = (s', none) → exec (.br sw cond a disp) s = .next (s'.retire s.who sw target))
          ∧ (taken → ∀ s' t, s.checkTarget s.who.core target true = (s', some t) → exec (.br sw cond a disp) s = .next (s'.raise s.who t)))
    ∧ (
      ∀ (s : State) (sw : Bool) (d a : XReg) (imm20 : BitVec 20) (imm : BitVec 15), s.ImmHints →
        let c := s.ctx s.who
        let goes (i : Instr) (target : Word) : Prop :=
          (∀ s', s.checkTarget s.who.core target true = (s', none) →
              exec i s = .next ((s'.modCtx s.who (fun c => c.setX d (seqNext c.pc))).retire s.who sw target))
            ∧ (∀ s' t, s.checkTarget s.who.core target true = (s', some t) → exec i s = .next (s'.raise s.who t))
        (s.Clear [] [.x d] → goes (.jmp sw d imm20) (c.pc + BitVec.ofInt 64 (c.hints.signed imm20 * 4)))
          ∧ (s.Clear [.x a] [.x d] → goes (.jr sw d a imm) (c.getX a + BitVec.ofInt 64 (c.hints.signed imm * 4))))

/-- A target whose bits 1:0 are not zero is refused as MISALIGNED; then bits 63:48 as TRANSLATION; a local window as PROTECTION; then whatever the
translation of the fetch answers; then a poisoned header as POISON, a line without CODE as ILLEGAL, slot 0 as HEADER_SLOT and an unmarked slot as
UNMARKED_TARGET; the first and the last two not for a sequential step or a trap return. TRAPVAL is the target. Any other target passes. The header is
memory's, where nothing has been stored over it. Rules: R14, R92, R283. The model's own choices in it: log entries 118. -/
def Obligations.TargetChecksInOrder : Prop :=
  ∀ (s : State) (core : Nat) (target : Word) (all : Bool),
    let fails (s' : State) (c : Cause) : Prop := s.checkTarget core target all = (s', some { cause := c, val := target })
    let aligned : Prop := all = true → target.toNat % 4 = 0
    (¬aligned → fails s .misaligned)
      ∧ (aligned → 2 ^ 48 ≤ target.toNat → fails s .translation)
      ∧ (aligned → target.toNat < 0x2000000 → fails s .protection)
      ∧ (aligned → ∀ s' c, s.resolveFetch core target = (s', .error c) → fails s' c)
      ∧ (aligned → ∀ s' key u header, s.resolveFetch core target = (s', .ok key) → s'.codeWord core (target.toNat / 128 * 128) key 0 = (u, header) →
          let slot := target.toNat % 128 / 4
          let marked (n : Nat) : Prop := header.getLsbD n = true
          let clean : Prop := u.poisoned (key / 128 * 128) 4 = false
          (¬clean → fails u .poison)
            ∧ (clean → ¬marked 0 → fails u .illegal)
            ∧ (clean → marked 0 → all = true → slot = 0 → fails u .headerSlot)
            ∧ (clean → marked 0 → all = true → slot ≠ 0 → ¬marked slot → fails u .unmarkedTarget)
            ∧ (clean → marked 0 → (all = true → slot ≠ 0 ∧ marked slot) → s.checkTarget core target all = (u, none))
            ∧ (kget (target.toNat / 128 * 128) (s'.core core).lines = none → (∀ e ∈ s'.overwritten, e.1 ≠ key / 128 * 128) →
                u = s' ∧ header.toNat = s'.peek (key / 128 * 128) 4))

/-- A hint word whose kind is not pending joins the group and goes on; one whose kind is pending traps ILLEGAL. A word paired with a kind it does not
accept traps ILLEGAL with TRAPVAL its own address, and TRAPPC the group's first word. A word that reads an outstanding destination sets WINHAZ and
traps with WHTRAP = 1, or runs on the old or the incoming value with WHTRAP = 0, and is held back for a patch result. The forms barred from ordered
tasks trap ILLEGAL with TRAPVAL the word. Rules: R21, R25, R26, R27, R88, R89, R90, R193, R204. The model's own choices in it: log entries 13. -/
def Obligations.HintGroupsAndIssueTraps : Prop :=
  (
      ∀ (s : State) (sw : Bool) (data : BitVec 23), (s.core s.who.core).leads s.who = false →
        let c := s.ctx s.who
        let h := c.hints
        let first := if h.pending then h.first else c.pc
        let joins (i : Instr) (held : Bool) (h' : Hints) : Prop :=
          if held then exec i s = .next (s.raise s.who { cause := .illegal, val := c.pc })
          else ∃ t, exec i s = .next t ∧ t = s.modCtx s.who (fun c => { c.retire s.cycle sw (seqNext c.pc) true with hints := h' })
        joins (.hintImm sw data) h.imm.isSome { h with first := first, imm := some data }
          ∧ joins (.hintImx sw data) h.imx.isSome { h with first := first, imx := some data }
          ∧ joins (.hintMod sw data) h.mod.isSome { h with first := first, mod := some data, modSw := sw }
          ∧ joins (.hintReg sw data) h.reg.isSome { h with first := first, reg := some data, regSw := sw })
    ∧ (
      ∀ (s : State) (sw : Bool) (d a b : XReg) (imm : BitVec 15), s.Clear [.x a, .x b] [.x d] → 
        let c := s.ctx s.who
        let traps (i : Instr) : Prop := exec i s = .next (s.raise s.who { cause := .illegal, val := c.pc })
        (c.hints.pending = true → traps (.aluAdd sw d a b) ∧ traps (.aluMul sw d a b) ∧ traps (.aluQuo sw d a b))
          ∧ (c.hints.mod.isSome ∨ c.hints.reg.isSome ∨ (c.hints.imx.isSome ∧ c.hints.imm = none) → traps (.addi sw d a imm) ∧ traps (.jr sw d a imm))
          ∧ (c.hints.pending = true → (c.outstanding = [] ∧ c.popped = [] ∧ c.intrap = false ∧ c.trapVec ≠ 0 ∧ (∀ n, c.role ≠ .task n)) →
              ∀ s', s.checkTarget s.who.core c.trapVec true = (s', none) →
                s.raise s.who { cause := .illegal, val := c.pc } = s'.modCtx s.who (fun c => { c with
                  trapCause := 1, trapHints := true, trapPc := c.hints.first &&& 0xFFFFFFFFFFFC, trapVal := c.pc, intrap := true, pc := c.trapVec
                  newLine := false, hints := Hints.none, park := .none, readyAt := s.cycle + 1 })))
    ∧ (
      (∀ (s : State) (sw : Bool) (d a : XReg) (imm : BitVec 15) (o : Outstanding),
        let c := s.ctx s.who
        (s.core s.who.core).leads s.who = false → (s.core s.who.core).isPort d = false → (s.core s.who.core).isPort a = false → s.NoHints →
          a ≠ 0 → d ≠ 0 → o ∈ c.outstanding → o.dest = .x a → o.past = false →
          (o.by_ = .patch → exec (.addi sw d a imm) s = .next { s with stalled := true })
            ∧ ((∀ o ∈ c.outstanding, o.dest = .x a → o.by_ ≠ .patch) →
              (c.whtrap = true → exec (.addi sw d a imm) s = .next ((s.modCtx s.who (fun c => { c with winhaz := true })).raise s.who
                  { cause := .windowHazard, val := BitVec.ofNat 64 a.val }))
                ∧ (c.whtrap = false → ∃ (t : State) (v : Word), exec (.addi sw d a imm) s = .next t ∧ (t.ctx s.who).winhaz = true
                    ∧ (t.ctx s.who).getX d = v + imm.signExtend 64
                    ∧ (v = c.getX a ∨ ∃ e ∈ s.agenda, ∃ r : Result, e.2 = .resultWrite s.who r ∧ r.dest = .x a
                        ∧ v = ((r.value &&& ~~~r.keep) ||| ((c.getX a).setWidth 512 &&& r.keep)).setWidth 64))))
        ∧ ∀ (s : State) (sw : Bool) (slot : Nat) (sz : Size) (ord : MemOrd) (noWait : Bool) (d a b : XReg), s.Clear [.x d, .x a, .x b] [.x d] → s.NoHints →
          (s.ctx s.who).role = .task slot → (s.ctx s.who).arrivedMesh = false → ∀ i : Instr,
            i ∈ [.amoAdd sw sz ord d a b, .amoAnd sw sz ord d a b, .amoOr sw sz ord d a b, .amoXor sw sz ord d a b, .amoMin sw sz ord d a b,
                .amoMax sw sz ord d a b, .amoMinu sw sz ord d a b, .amoMaxu sw sz ord d a b, .amoFadd sw sz ord d a b, .amoSwap sw sz ord d a b,
                .amoCas sw sz ord d a b]
              ∨ i ∈ [.rwlRacq sw noWait d a, .rwlWacq sw noWait d a, .rwlRrel sw d a, .rwlWrel sw d a, .msgSend sw d a b, .msgBind sw a b, .msgUnbind sw d b,
                .vfPush sw a, .vfPop sw a, .jobSub sw d a, .mxGang sw d a, .xbarCnt sw a b, .xbarTerm sw a b, .xbarRdc sw d a, .xbarPulse sw a, .xbarClr sw a]
              ∨ i ∈ [.workStart sw d a b, .workFork sw d a b, .workLaunch sw d a, .workMigrate sw d a, .barReg sw, .barArrive sw d, .barSync sw, .barWsync sw a,
                .gangLead sw d a, .gangFollow sw d a]
              ∨ i ∈ [.cxDef sw d a, .cxDep sw d a b, .cxRun sw, .cxStop sw, .cxSample sw d a b, .srDef sw a, .srPut sw d a b, .srDone sw a, .srRej sw a,
                .srDrain sw d a, .frBoard sw d a, .frCancel sw d a, .redTree sw d a, .redPut sw d a b, .redWait sw d a] →
            exec i s = .next (s.raise s.who { cause := .illegal, val := wordOf i }))

/-- For a context with nothing outstanding, in no gang and no ordered task: with INTRAP = 0 and a TRAPVEC that passes its checks, a trap sets TRAPCAUSE,
HINTS, TRAPPC (bits 47:2 of the word's address, or of the group's first word's while hints are pending), TRAPVAL and INTRAP, drops the hint group and goes to TRAPVEC; the trap-entry event
does the same, and nothing for a context that is not live. With INTRAP = 1 or TRAPVEC = 0 the context ends. Rules: R26, R236, R237, R238. -/
def Obligations.TrapEntrySavesAndRedirects : Prop :=
  ∀ (s : State) (w : CtxId) (t : Trap),
    let c := s.ctx w
    (s.core w.core).gang.active = false → c.outstanding = [] → c.popped = [] → (∀ n, c.role ≠ .task n) →
      (c.intrap = false → c.trapVec ≠ 0 → ∀ s', s.checkTarget w.core c.trapVec true = (s', none) →
        let u := s'.modCtx w (fun c => { c with
          trapCause := BitVec.ofNat 8 (causeCode t.cause), trapHints := c.hints.pending
          trapPc := (if c.hints.pending then c.hints.first else c.pc) &&& 0xFFFFFFFFFFFC
          trapVal := t.val, intrap := true, pc := c.trapVec, newLine := false, hints := Hints.none, park := .none, readyAt := s.cycle + 1 })
        s.raise w t = u ∧ (c.live = true → exec (.trapEntry w t) s = .next u))
      ∧ (c.live = false → exec (.trapEntry w t) s = .next s)
      ∧ ((c.intrap = true ∨ c.trapVec = 0) → ((s.raise w t).ctx w).live = false)

/-- ld and idx loads that reach an aligned, translated, permitted and unpoisoned address complete: the little-endian bytes at the address, sign- or
zero-extended, are posted for x[d] after the latency of the place the address names. With a mod hint whose WAIT is 1, ld so completes only where its value
meets the condition against x[CREG], or 0, and otherwise parks on a watch, free to be swapped out once the read is back; a condition of 12 to 15, or
reg without WAIT, traps ILLEGAL, and an unassigned hint bit RESERVED_FIELD. Rules: R119, R121, R122, R124, R125, R115, R90, R284, R301. The model's
own choices in it: log entries 7, 8, 10. -/
def Obligations.LoadResult : Prop :=
  ∀ (s t : State) (at_ : Access) (sw sext : Bool) (sz : Size) (ord : MemOrd) (d a b : XReg) (off : BitVec 10), s.NoTask →
    let c := s.ctx s.who
    let loads (i : Instr) (va : Word) : Prop :=
      s.Reaches .read va sz.bytes t at_ → t.loadPoison at_ sz.bytes = none →
        let v : BitVec (8 * sz.bytes) := BitVec.ofNat _ (leValue (Memory.readBytes t.mem at_.key sz.bytes))
        exec i s = .next ((t.served s.who.core at_).afterReply at_ sw at_.lat .load d (if sext then v.signExtend 64 else v.setWidth 64))
    let va := c.getX a + BitVec.ofInt 64 (c.hints.signed off * sz.bytes)
    let mod := (c.hints.mod.getD 0).toNat
    let reg := (c.hints.reg.getD 0).toNat
    let creg : Option XReg := c.hints.reg.map (fun r => Fin.ofNat 32 r.toNat)
    let hint (sw : Bool) (kind data : Nat) : Word := BitVec.ofNat 64 ((if sw then 2 ^ 31 else 0) + 0x3F * 2 ^ 25 + kind * 2 ^ 23 + data)
    let raises (x : Trap) : Prop := exec (.ld sw sz sext ord d a off) s = .next (s.raise s.who x)
    (s.Clear [.x a] [.x d] → s.ImmHints → loads (.ld sw sz sext ord d a off) va)
      ∧ (s.Clear ([.x a] ++ (creg.map Dest.x).toList) [.x d] → (c.hints.imx.isSome → c.hints.imm.isSome) →
        (mod < 2 ^ 22 → (0 < mod → raises { cause := .reservedField, val := hint c.hints.modSw 2 mod })
            ∧ (mod = 0 → c.hints.reg = none → loads (.ld sw sz sext ord d a off) va)
            ∧ (mod = 0 → reg < 32 → c.hints.reg ≠ none → raises { cause := .illegal, val := c.pc }))
          ∧ (2 ^ 22 ≤ mod → 2 ^ 22 + 2 ^ 4 ≤ mod → raises { cause := .reservedField, val := hint c.hints.modSw 2 mod })
          ∧ ((mod = 0 ∨ 2 ^ 22 ≤ mod ∧ mod < 2 ^ 22 + 2 ^ 4) → 32 ≤ reg → raises { cause := .reservedField, val := hint c.hints.regSw 3 reg })
          ∧ (2 ^ 22 ≤ mod → mod < 2 ^ 22 + 2 ^ 4 → reg < 32 →
            (2 ^ 22 + 12 ≤ mod → raises { cause := .illegal, val := c.pc })
              ∧ (∀ k, condOf (mod - 2 ^ 22) = some k → s.Reaches .read va sz.bytes t at_ → t.loadPoison at_ sz.bytes = none →
                let y : Word := match creg with | none => 0 | some r => c.getX r
                let v : BitVec (8 * sz.bytes) := BitVec.ofNat _ (leValue (Memory.readBytes t.mem at_.key sz.bytes))
                let value : Word := if sext then v.signExtend 64 else v.setWidth 64
                exec (.ld sw sz sext ord d a off) s = .next (if condHolds k value y then (t.served s.who.core at_).afterReply at_ sw at_.lat .load d value
                  else ((t.served s.who.core at_).modCtx s.who (fun c => { c with readyAt := s.cycle + at_.lat + 1 })).parkedIn (.watch va at_.key sz sext k y d sw)))))
      ∧ (s.Clear [.x a, .x b] [.x d] → s.NoHints → loads (.idxLd sw sz sext ord d a b) (c.getX a + c.getX b * BitVec.ofNat 64 sz.bytes))

/-- st and idx stores that reach their address complete: the low 2^sz bytes of x[d] are written there, one more access is unacknowledged, nothing is
outstanding. Outside zero-map pages, and in a scratchpad, the bytes written read back and every other byte of memory is unchanged; in a zero-map page an element
of the 512-byte blocks written to that is the negative zero reads as zero, and every other element as written or as before. Rules: R120, R124, R125, R115, R72. The model's own choices in it: log
entries 8. -/
def Obligations.StoreResult : Prop :=
  (
      ∀ (s t : State) (at_ : Access) (sw : Bool) (sz : Size) (ord : MemOrd) (d a b : XReg) (off : BitVec 10), s.NoTask →
        let c := s.ctx s.who
        let stores (i : Instr) (va : Word) : Prop :=
          s.Reaches .write va sz.bytes t at_ →
            exec i s = .next ((((t.served s.who.core at_).storeIssued at_ (leBytes sz.bytes (c.getX d).toNat)).unacknowledged at_).afterWord sw id)
        (s.Clear [.x d, .x a] [] → s.ImmHints → stores (.st sw sz ord d a off) (c.getX a + BitVec.ofInt 64 (c.hints.signed off * sz.bytes)))
          ∧ (s.Clear [.x d, .x a, .x b] [] → s.NoHints → stores (.idxSt sw sz ord d a b) (c.getX a + c.getX b * BitVec.ofNat 64 sz.bytes)))
    ∧ (
      ∀ (s : State) (a : Access) (bytes : List Byte), s.MemOk → bytes ≠ [] →
        let t := s.storeIssued a bytes
        let n := bytes.length
        ((a.attr.format ≠ 9 ∧ a.attr.format ≠ 10) ∨ 2 ^ 50 ≤ a.key →
            (∀ i < n, Memory.read t.mem (a.key + i) = bytes.getD i 0)
              ∧ ∀ k, k < a.key ∨ a.key + n ≤ k → Memory.read t.mem k = Memory.read s.mem k)
          ∧ ∀ w, a.key < 2 ^ 50 → (a.attr.format = 9 ∧ w = 2 ∨ a.attr.format = 10 ∧ w = 4) →
            let u := Memory.writeBytes s.mem a.key bytes
            ∀ e, leValue (Memory.readBytes t.mem (w * e) w) =
              if leValue (Memory.readBytes u (w * e) w) = 2 ^ (8 * w - 1) ∧ a.key / 512 ≤ w * e / 512 ∧ w * e / 512 ≤ (a.key + n - 1) / 512 then 0
              else leValue (Memory.readBytes u (w * e) w))

/-- An idx load or store traps MISALIGNED for an address that is no multiple of its size, then TRANSLATION for bits 63:48, then what the translation
answers; in the control block any size but 8 bytes traps PROTECTION; a load of poison or of a refused tile traps as that check says. Each traps with
TRAPVAL the address. Rules: R115, R125, R286. -/
def Obligations.ScalarAccessTraps : Prop :=
  ∀ (s : State) (sw sext : Bool) (sz : Size) (ord : MemOrd) (d a b : XReg), s.NoHints →
    let c := s.ctx s.who
    let va := c.getX a + c.getX b * BitVec.ofNat 64 sz.bytes
    let traps (t : State) (e : Cause) (kind : AccessKind) : Prop :=
      match kind with
      | .read => s.Clear [.x a, .x b] [.x d] → exec (.idxLd sw sz sext ord d a b) s = .next (t.raise s.who { cause := e, val := va })
      | _ => s.Clear [.x d, .x a, .x b] [] → exec (.idxSt sw sz ord d a b) s = .next (t.raise s.who { cause := e, val := va })
    ∀ kind, kind = .read ∨ kind = .write →
      (va.toNat % sz.bytes ≠ 0 → traps s .misaligned kind)
        ∧ (va.toNat % sz.bytes = 0 → ¬(0x18000 ≤ va.toNat ∧ va.toNat < 0x19000) → ∀ t e, s.resolve s.who.core kind va sz.bytes = (t, .error e) → traps t e kind)
        ∧ (va.toNat % sz.bytes = 0 → 2 ^ 48 ≤ va.toNat → traps s .translation kind)
        ∧ (va.toNat % sz.bytes = 0 → 0x18000 ≤ va.toNat → va.toNat < 0x19000 → sz ≠ .d → traps s .protection kind)
        ∧ (kind = .read → ∀ t at_ e, s.Reaches kind va sz.bytes t at_ → s.NoTask → t.loadPoison at_ sz.bytes = some e → traps t e kind)

/-- Each of the eleven amo words that reaches an aligned, permitted, unpoisoned address completes: with d other than x0 the request is sent and x[d] is
outstanding; with d = x0 it is posted and one more access is unacknowledged. Rules: R126, R127, R128, R120, R115. The model's own choices in it: log
entries 8, 9, 17. -/
def Obligations.AtomicWordSendsRequest : Prop :=
  ∀ (s t : State) (at_ : Access) (sw : Bool) (sz : Size) (ord : MemOrd) (d a b : XReg),
    s.NoHints → s.NoTask → s.Reaches .atomic ((s.ctx s.who).getX a) sz.bytes t at_ → (d ≠ 0 → t.poisoned at_.key sz.bytes = false) →
    let c := s.ctx s.who
    let request (op : AmoOp) (C : Word) : AtomicReq :=
      { op := op, sz := sz, addr := at_.key, va := c.getX a, operand := c.getX b, compare := C, more := [], who := s.issuer s.who
        dest := if d = 0 then none else some d, members := [s.issuer s.who], reply := if at_.beyond then at_.lat else at_.lat + 1
        format := at_.attr.format, beyond := at_.beyond }
    let u := t.served s.who.core at_
    let sends (i : Instr) (op : AmoOp) (C : Word) : Prop :=
      exec i s = .next (
        if d = 0 then ((u.modCtx s.who (fun c => { c with unacked := c.unacked + 1 })).sendPosted (request op C) ord at_).afterWord sw id
        else (u.afterWord sw (fun c => { c with outstanding := c.outstanding ++ [c.mark (.x d) .atomic] })).post s.cycle
          (.amoHomeApply (request op C)))
    (s.Clear [.x a, .x b] [.x d] →
      sends (.amoAdd sw sz ord d a b) .add 0 ∧ sends (.amoAnd sw sz ord d a b) .and 0 ∧ sends (.amoOr sw sz ord d a b) .or 0
        ∧ sends (.amoXor sw sz ord d a b) .xor 0 ∧ sends (.amoMin sw sz ord d a b) .min 0 ∧ sends (.amoMax sw sz ord d a b) .max 0
        ∧ sends (.amoMinu sw sz ord d a b) .minu 0 ∧ sends (.amoMaxu sw sz ord d a b) .maxu 0
        ∧ sends (.amoFadd sw sz ord d a b) .fadd 0 ∧ sends (.amoSwap sw sz ord d a b) .swap 0)
      ∧ (s.Clear [.x d, .x a, .x b] [.x d] → sends (.amoCas sw sz ord d a b) .cas (c.getX d))

/-- For each operation the new value at the address is as the rule gives it from the old value and the operand, every other byte of memory is unchanged,
and the reply posts the old value zero-extended to x[d] of the context that sent it, or an acknowledgement for each member of a posted bundle, one of
them the core's one reply. An integer bundle leaves what its requests give one by one, an fadd bundle the one rounding of the old value plus the exact
sum of its finite operands; under a zero-map format no element of the block is left a negative zero. A request that finds poison leaves memory unchanged; an unposted one traps POISON in that context at its word, a posted
one is acknowledged and its context traps POISON when the acknowledgement arrives.
Rules: R127, R128, R129, R302, R72. The model's own choices in it: log entries 9, 17. -/
def Obligations.AtomicPerformedAtHome : Prop :=
  let acknowledged (s : State) (r : AtomicReq) (t : State) (m : Issuer) : Prop :=
    (∃ first marked, (s.cycle + r.reply + 1, Instr.storeAcknowledge m first marked) ∈ t.agenda)
      ∧ ∃ q ∈ r.members, q.slot.core = m.slot.core ∧ ∃ marked, (s.cycle + r.reply + 1, Instr.storeAcknowledge q r.beyond marked) ∈ t.agenda
  let applied (r : AtomicReq) (n : Nat) (O B : BitVec n) : BitVec n := match r.op with
    | .add => O + B
    | .and => O &&& B
    | .or => O ||| B
    | .xor => O ^^^ B
    | .min => if B.toInt < O.toInt then B else O
    | .max => if O.toInt < B.toInt then B else O
    | .minu => if B.toNat < O.toNat then B else O
    | .maxu => if O.toNat < B.toNat then B else O
    | .fadd => BitVec.ofNat n (fp32.add .rne (fp32.decode O.toNat) (fp32.decode B.toNat)).bits
    | .swap => B
    | .cas => if O = r.compare.setWidth n then B else O
  -- The value of a finite FP32 operand, in units of 2^-149.
  let exactly (b : Nat) : Int :=
    (if b / 2 ^ 31 % 2 = 1 then -1 else 1) * (if b / 2 ^ 23 % 256 = 0 then b % 2 ^ 23 else (2 ^ 23 + b % 2 ^ 23) * 2 ^ (b / 2 ^ 23 % 256 - 1) : Nat)
  (
      ∀ (s : State) (r : AtomicReq), s.MemOk → s.poisoned r.addr r.sz.bytes = false → r.format ≠ 9 → r.format ≠ 10 → r.more = [] → (r.op = .fadd → r.sz = .w) →
        let n := 8 * r.sz.bytes
        let old := s.peek r.addr r.sz.bytes
        let B : BitVec n := r.operand.setWidth n
        let O : BitVec n := BitVec.ofNat n old
        let new : BitVec n := applied r n O B
        ∃ t, exec (.amoHomeApply r) s = .next t
          ∧ t.peek r.addr r.sz.bytes = new.toNat
          ∧ (∀ k, k < r.addr ∨ r.addr + r.sz.bytes ≤ k → Memory.read t.mem k = Memory.read s.mem k)
          ∧ (∀ d w, r.dest = some d → s.placeOf r.who = some (.slot w) → (s.core w.core).isPort d = false → ∃ marked,
              (s.cycle + r.reply + 1, Instr.resultWrite w { Result.plain (.x d) (BitVec.ofNat 512 old) with
                beyond := r.beyond, mark := marked }) ∈ t.agenda)
          ∧ (r.dest = none → ∀ m ∈ r.members, acknowledged s r t m))
    ∧ (
      ∀ (s : State) (r : AtomicReq), s.MemOk → s.poisoned r.addr r.sz.bytes = false → r.format ≠ 9 → r.format ≠ 10 → r.dest = none → r.more ≠ [] →
        let n := 8 * r.sz.bytes
        let O : BitVec n := BitVec.ofNat n (s.peek r.addr r.sz.bytes)
        let operands : List (BitVec n) := (r.operand :: r.more).map (fun b => b.setWidth n)
        ∃ t, exec (.amoHomeApply r) s = .next t
          ∧ (r.op ≠ .fadd → r.op ≠ .swap → r.op ≠ .cas → t.peek r.addr r.sz.bytes = (operands.foldl (applied r n) O).toNat)
          ∧ (r.op = .fadd → r.sz = .w → O.toNat / 2 ^ 23 % 256 < 255 → (∀ b ∈ operands, b.toNat / 2 ^ 23 % 256 < 255) →
              let S := (operands.map (fun b => exactly b.toNat)).sum
              t.peek r.addr r.sz.bytes = (fp32.add .rne (fp32.decode O.toNat) (.fin (decide (S < 0)) S.natAbs (-149))).bits)
          ∧ (∀ k, k < r.addr ∨ r.addr + r.sz.bytes ≤ k → Memory.read t.mem k = Memory.read s.mem k)
          ∧ ∀ m ∈ r.members, acknowledged s r t m)
    ∧ (
      ∀ (s : State) (r : AtomicReq) (w : Nat), s.MemOk → s.poisoned r.addr r.sz.bytes = false → r.more = [] → (r.op = .fadd → r.sz = .w) →
        r.addr < 2 ^ 50 → (r.format = 9 ∧ w = 2 ∨ r.format = 10 ∧ w = 4) →
        let n := r.sz.bytes
        let new := applied r (8 * n) (BitVec.ofNat _ (s.peek r.addr n)) (r.operand.setWidth (8 * n))
        let u := Memory.writeBytes s.mem r.addr (leBytes n new.toNat)
        ∃ t, exec (.amoHomeApply r) s = .next t ∧ ∀ e, leValue (Memory.readBytes t.mem (w * e) w) =
          if leValue (Memory.readBytes u (w * e) w) = 2 ^ (8 * w - 1) ∧ r.addr / 512 ≤ w * e / 512 ∧ w * e / 512 ≤ (r.addr + n - 1) / 512 then 0
          else leValue (Memory.readBytes u (w * e) w))
    ∧ (
      ∀ (s : State) (r : AtomicReq), s.poisoned r.addr r.sz.bytes = true →
        (∀ d w o, r.dest = some d → s.placeOf r.who = some (.slot w) → (s.core w.core).isPort d = false → (s.ctx w).park = .none → (s.ctx w).popped = [] →
            (s.ctx w).outstanding.find? (fun o => o.dest = .x d) = some o →
            exec (.amoHomeApply r) s = .next ((s.modCtx w (fun c => { c with outstanding := dropOut (.x d) c.outstanding, pc := o.pc, hints := o.hints })).raise w
              { cause := .poison, val := r.va }))
          ∧ (r.dest = none → ∃ t, exec (.amoHomeApply r) s = .next t ∧ t.mem = s.mem ∧ t.cores = s.cores
          ∧ ∀ m ∈ r.members, acknowledged s r t m ∧ (s.cycle + r.reply + 1, Instr.postedPoisonTrap m r.va) ∈ t.agenda))

/-- A try acquire and a release answer 1 with the lock word changed when the home grants them and 0 with it unchanged when not. A blocking acquire
parks; when it is granted the lock word changes and the reply is due, and when not it waits at its home, a writer being counted in WWAIT. Every
other byte of memory is unchanged. Rules: R130, R131, R132, R133. The model's own choices in it: log entries 16, 17. -/
def Obligations.LockWords : Prop :=
  (
      ∀ (s t : State) (at_ : Access) (sw : Bool) (d a : XReg),
        s.Clear [.x a] [.x d] → s.NoHints → s.NoTask → s.Reaches .lock ((s.ctx s.who).getX a) 8 t at_ → t.poisoned at_.key 8 = false →
        let x := t.peek at_.key 8
        let held := x / 2 ^ 62 % 2 = 1
        let prefers := x / 2 ^ 63 % 2 = 1
        let waiting := x / 2 ^ 40 % 2 ^ 22
        let readers := x % 2 ^ 32
        let reply := if at_.beyond then at_.lat else at_.lat + 1
        let u := t.served s.who.core at_
        let answers (i : Instr) (granted : Prop) (y : Nat) : Prop :=
          (granted → exec i s = .next ((u.writePage at_.attr at_.key (leBytes 8 y)).afterReply at_ sw reply .atomic d 1))
            ∧ (¬granted → exec i s = .next (u.afterReply at_ sw reply .atomic d 0))
        answers (.rwlRacq sw true d a) (¬held ∧ ¬(prefers ∧ 0 < waiting)) (x + 1)
          ∧ answers (.rwlWacq sw true d a) (¬held ∧ readers = 0) (x + 2 ^ 62)
          ∧ answers (.rwlRrel sw d a) (0 < readers) (x - 1)
          ∧ answers (.rwlWrel sw d a) held (x - 2 ^ 62))
    ∧ (
      ∀ (s t : State) (at_ : Access) (sw : Bool) (d a : XReg),
        s.Clear [.x a] [.x d] → s.NoHints → s.NoTask → s.Reaches .lock ((s.ctx s.who).getX a) 8 t at_ → t.poisoned at_.key 8 = false → t.MemOk →
        at_.attr.format ≠ 9 → at_.attr.format ≠ 10 →
        let x := t.peek at_.key 8
        let held := x / 2 ^ 62 % 2 = 1
        let reply := if at_.beyond then at_.lat else at_.lat + 1
        let parks (i : Instr) (park : Park) (y : Nat) (P : State → Prop) : Prop := ∃ v, exec i s = .next v ∧ (v.ctx s.who).park = park
          ∧ v.peek at_.key 8 = y % 2 ^ 64 ∧ (∀ k, k < at_.key ∨ at_.key + 8 ≤ k → Memory.read v.mem k = Memory.read t.mem k) ∧ P v
        let granted (i : Instr) (y : Nat) : Prop := parks i (.lock d (some (s.cycle + reply + 1)) at_.beyond sw) y (fun _ => True)
        let waits (i : Instr) (op : LockOp) (y : Nat) : Prop :=
          let r : LockReq := { op := op, noWait := false, addr := at_.key, va := (s.ctx s.who).getX a, who := s.who, dest := d, counted := op = .wacq
                               reply := reply, beyond := at_.beyond, format := at_.attr.format, owner := at_.owner }
          ((t.die r.home).locks.filter (fun q => q.sameRouter r)).length < 16 →
            parks i (.lock d none at_.beyond sw) y (fun v => (v.die r.home).locks = (t.die r.home).locks ++ [r])
        let reads := ¬held ∧ ¬(x / 2 ^ 63 % 2 = 1 ∧ 0 < x / 2 ^ 40 % 2 ^ 22)
        let writes := ¬held ∧ x % 2 ^ 32 = 0
        (reads → granted (.rwlRacq sw false d a) (x + 1)) ∧ (¬reads → waits (.rwlRacq sw false d a) .racq x)
          ∧ (writes → granted (.rwlWacq sw false d a) (x + 2 ^ 62)) ∧ (¬writes → waits (.rwlWacq sw false d a) .wacq (x + 2 ^ 40)))

/-- fence.rel completes when no access of the context is unacknowledged and no atomic outstanding, fence.acq when no load or atomic is outstanding,
fence.ar when both hold; else the context parks in the fence. Rules: R134, R135. -/
def Obligations.FenceCompletesOrParks : Prop :=
  ∀ (s : State) (sw : Bool) (scope : Scope), s.Clear [] [] → s.NoHints →
    let c := s.ctx s.who
    let released := c.unacked = 0 ∧ ∀ o ∈ c.outstanding, o.by_ ≠ .atomic
    let acquired := ∀ o ∈ c.outstanding, o.by_ ≠ .atomic ∧ o.by_ ≠ .load
    let fences (i : Instr) (met : Prop) (k : FenceKind) : Prop :=
      (met → exec i s = .next (s.afterWord sw id)) ∧ (¬met → exec i s = .next (s.parkedIn (.fence k scope sw)))
    fences (.fenceRel sw scope) released .rel ∧ fences (.fenceAcq sw scope) acquired .acq ∧ fences (.fenceAr sw scope) (released ∧ acquired) .ar

/-- bind of a free port records the descriptor and pairs two ends that name each other with 8 credits each; a bad descriptor traps ILLEGAL, a peer
outside the berth PROTECTION, and a port already bound ILLEGAL. unbind clears the port, unpairs the other end and returns the number of entries discarded; qlen returns entries and
credits; both trap QUEUE_UNBOUND for a port that is not bound. Rules: R136, R137, R138. The model's own choices in it: log entries 21, 22. -/
def Obligations.QueuePortsBindAndUnbind : Prop :=
  ∀ (s : State) (sw : Bool) (d a b : XReg) (n : Fin 8), portOf b = some n → s.NoHints → s.NoTask →
    let core := s.who.core
    let q := (s.core core).ports.get n
    let desc := ((s.ctx s.who).getX a).toNat
    let peer := desc % 2 ^ 18
    let m : Fin 8 := Fin.ofNat 8 (desc / 2 ^ 18 % 8)
    let bound : Port := { Port.reset with bound := true, peerCore := peer, peerPort := m }
    let r := if peer = core ∧ m = n then bound else (s.core peer).ports.get m
    (s.Clear [.x a] [] →
        (q.bound = false → desc < 2 ^ 21 → s.inBerth core peer = true →
          (¬(r.bound = true ∧ r.peerCore = core ∧ r.peerPort = n) →
              exec (.msgBind sw a b) s = .next ((s.modPort core n (fun _ => bound)).afterWord sw id))
            ∧ (r.bound = true → r.peerCore = core → r.peerPort = n → ∃ t, exec (.msgBind sw a b) s = .next t
                ∧ (t.core core).ports.get n = { bound with paired := true, credits := 8, capacity := 8 }
                ∧ (t.core peer).ports.get m = { r with paired := true, fifo := [], credits := 8, capacity := 8 }
                ∧ ∀ c, (t.core c).ctxs = ((s.afterWord sw id).core c).ctxs))
          ∧ (2 ^ 21 ≤ desc → exec (.msgBind sw a b) s = .next (s.raise s.who { cause := .illegal, val := (s.ctx s.who).getX a }))
          ∧ (desc < 2 ^ 21 → s.inBerth core peer = false → exec (.msgBind sw a b) s = .next (s.raise s.who { cause := .protection, val := (s.ctx s.who).getX a }))
          ∧ (q.bound = true → desc < 2 ^ 21 → s.inBerth core peer = true →
              exec (.msgBind sw a b) s = .next (s.raise s.who { cause := .illegal, val := (s.ctx s.who).getX a })))
      ∧ (s.Clear [] [.x d] → 
          (q.bound = true → ∃ t, exec (.msgUnbind sw d b) s = .next t ∧ (t.core core).ports.get n = Port.reset
            ∧ (q.paired = true → (q.peerCore, q.peerPort) ≠ (core, n) → ((t.core q.peerCore).ports.get q.peerPort).paired = false)
            ∧ (d ≠ 0 → (s.cycle + 2, Instr.resultWrite s.who (Result.plain (.x d) (BitVec.ofNat 512 ((q.fifo.length + entriesInFlight core n s.agenda) % 2 ^ 64)))) ∈ t.agenda))
          ∧ (q.bound = true → q.fifo.length < 16 → q.credits < 16 →
              exec (.msgQlen sw d b) s = .next (s.afterScalar sw 1 .unit d (BitVec.ofNat 64 (q.fifo.length + q.credits * 2 ^ 8))))
          ∧ (q.bound = true → 16 ≤ q.fifo.length ∨ 16 ≤ q.credits → ∃ v, exec (.msgQlen sw d b) s = .next (s.drew.drew.afterScalar sw 1 .unit d v)
              ∧ v.toNat < 2 ^ 12 ∧ (q.fifo.length < 16 → v.toNat % 2 ^ 8 = q.fifo.length) ∧ (q.credits < 16 → v.toNat / 2 ^ 8 = q.credits))
          ∧ (q.bound = false → exec (.msgUnbind sw d b) s = .next (s.raise s.who { cause := .queueUnbound, val := BitVec.ofNat 64 n.val })
              ∧ exec (.msgQlen sw d b) s = .next (s.raise s.who { cause := .queueUnbound, val := BitVec.ofNat 64 n.val })))

/-- With both ports bound, an addi from one port to another is not ready while the source FIFO is empty or the destination has no credit; else it pops
the oldest entry, sends the sum to the peer of the destination port at the cost of a credit, and returns a credit to the peer of the source. Memory
is unchanged, where no entry of the source FIFO lies in a spilled line. Rules: R86, R116, R137, R297. The model's own choices in it: log entries 20. -/
def Obligations.PortsAsOperands : Prop :=
  ∀ (s : State) (sw : Bool) (imm : BitVec 15) (d a : XReg) (p q : Fin 8), s.NoHints → (s.core s.who.core).leads s.who = false → portOf a = some p → portOf d = some q → p ≠ q →
    let core := s.who.core
    let A := (s.core core).ports.get p
    let D := (s.core core).ports.get q
    let word : Instr := .addi sw d a imm
    (∀ o ∈ (s.ctx s.who).outstanding, o.by_ ≠ .patch) → A.bound = true → D.bound = true →
      (A.fifo = [] ∨ D.credits = 0 → ∃ t, exec word s = .next t ∧ t.stalled = true ∧ t.cores = s.cores ∧ t.mem = s.mem ∧ t.agenda = s.agenda)
        ∧ (∀ v rest, A.fifo = v :: rest → 0 < D.credits → ∃ t, exec word s = .next t
            ∧ (t.core core).ports.get p = { A with fifo := rest } ∧ (t.core core).ports.get q = { D with credits := D.credits - 1 }
            ∧ (D.paired = true → ∃ due, s.cycle + linkDelay core D.peerCore + 1 ≤ due ∧ (due, Instr.queueEntryArrival D.peerCore D.peerPort (v + imm.signExtend 64)) ∈ t.agenda)
            ∧ (A.paired = true → ∃ due, s.cycle + linkDelay core A.peerCore + 1 ≤ due ∧ (due, Instr.creditReturn A.peerCore A.peerPort) ∈ t.agenda)
            ∧ t.ctx s.who = (s.ctx s.who).retire s.cycle sw (seqNext (s.ctx s.who).pc) false ∧ (A.fifo.length ≤ 8 → t.mem = s.mem))

/-- A bad descriptor traps ILLEGAL, a misaligned source MISALIGNED, a source beyond the window PROTECTION, in this order; then a source that fails a check
of a load traps as that check says. Else the context parks for the read, one more access is unacknowledged and x[d] is outstanding; each core cycle
checks and reads the next 32 bytes. A part that fails its check traps, POISON with the granule and any other with x[a], and nothing has been sent.
After the last the message with the bytes read arrives no earlier than the link delay and the context goes on. msg.ovf returns OVERFLOW of the ring, or 0 for a ring that the launch did not configure. Rules: R115, R136, R139, R140, R296, R407. The
model's own choices in it: log entries 18, 21. -/
def Obligations.MessageSendParksForItsReads : Prop :=
  ∀ (s t : State) (sw : Bool) (d a b : XReg), s.Clear [.x a, .x b] [.x d] → s.NoHints → s.NoTask →
    let c := s.ctx s.who
    let va := (c.getX a).toNat
    let desc := (c.getX b).toNat
    let len := desc % 2 ^ 11
    let core := desc / 2 ^ 16 % 2 ^ 18
    let sends := exec (.msgSend sw d a b) s
    let valid := desc < 2 ^ 34 ∧ desc / 2 ^ 14 % 4 = 0 ∧ len % 8 = 0 ∧ 8 ≤ len ∧ len ≤ 1024
    let ring := (s.core s.who.core).rings.get (Fin.ofNat 8 (va % 8))
    exec (.msgOvf sw d a) s = .next (s.afterScalar sw 1 .unit d (if ring.size = 0 then 0 else BitVec.ofNat 64 ring.overflow))
      ∧ (¬valid → sends = .next (s.raise s.who { cause := .illegal, val := c.getX b }))
      ∧ (valid → va % 8 ≠ 0 → sends = .next (s.raise s.who { cause := .misaligned, val := c.getX a }))
      ∧ (valid → va % 8 = 0 → 0x18000 < va + len → sends = .next (s.raise s.who { cause := .protection, val := c.getX a }))
      ∧ (valid → va % 8 = 0 → va + len ≤ 0x18000 → s.readOwn s.who (c.getX a) len = (t, none) →
          (groupOf s.who.core = groupOf core ∨ (s.core s.who.core).beyond < (s.core s.who.core).wn) → ∃ u m, sends = .next u
            ∧ (u.ctx s.who).park = .sending (c.getX a) len m sw ∧ (u.ctx s.who).unacked = c.unacked + 1
            ∧ (u.ctx s.who).outstanding = c.outstanding ++ (if d = 0 then [] else [c.mark (.x d) .send])
            ∧ m.src = s.who.core ∧ m.core = core ∧ m.ring = desc / 2 ^ 11 % 8 ∧ m.bytes = [] ∧ linkDelay s.who.core core ≤ m.delay ∧ u.mem = t.mem)
      ∧ (∀ e, valid → va % 8 = 0 → va + len ≤ 0x18000 → s.readOwn s.who (c.getX a) len = (t, some e) → sends = .next (t.raise s.who e))
      ∧ (∀ (w : CtxId) (p : Word) (n : Nat) (m : Message), (s.ctx w).park = .sending p n m sw → (∀ k, (s.ctx w).role ≠ .task k) →
          let at_ := p.toNat + m.bytes.length
          let size := min 32 (n - m.bytes.length)
          let part := p + BitVec.ofNat 64 m.bytes.length
          let read := m.bytes ++ Memory.readBytes t.mem (spadCell w.core at_) size
          (s.readOwn w part size = (t, none) → m.bytes.length + 32 < n →
              ((s.pollSending w).ctx w).park = .sending p n { m with bytes := read } sw ∧ (s.pollSending w).agenda = t.agenda)
            ∧ (s.readOwn w part size = (t, none) → n ≤ m.bytes.length + 32 →
                (∃ due, (due, Instr.messageArrival { m with bytes := read }) ∈ (s.pollSending w).agenda ∧ s.cycle + m.delay + 1 ≤ due)
                ∧ ((s.pollSending w).ctx w).pc = seqNext (s.ctx w).pc ∧ ((s.pollSending w).ctx w).readyAt = s.cycle + 1)
            ∧ (∀ e, s.readOwn w part size = (t, some e) → ∃ u : State, u.agenda = t.agenda ∧ u.mem = t.mem
                ∧ ((∃ o ∈ (s.ctx w).outstanding, o.dest = .x m.dest) → (u.ctx w).outstanding.length + 1 = (s.ctx w).outstanding.length)
                ∧ (u.ctx w).unacked = (s.ctx w).unacked - 1
                ∧ (e.cause = .poison → s.pollSending w = u.raise w e)
                ∧ (e.cause ≠ .poison → s.pollSending w = u.raise w { e with val := p })))

/-- A message for an unconfigured ring or from outside the berth is answered 2 and changes no byte. One that fits before the end of the buffer is placed
at HEAD, one that fits only after a pad at offset 0, with its header and bytes, and answered 0. One without room is answered 1, counted in OVERFLOW,
and changes no byte. Rules: R139, R293, R294, R296. -/
def Obligations.MessageArrivesWholeOrRefused : Prop :=
  ∀ (s : State) (m : Message), s.MemOk →
    let i : Fin 8 := Fin.ofNat 8 m.ring
    let r := (s.core m.core).rings.get i
    let n := 8 + m.bytes.length
    let free := r.size - r.used
    let beyond : Bool := groupOf m.src ≠ groupOf m.core
    let outcome (k : Nat) (t : State) : Prop := exec (.messageArrival m) s = .next t ∧ (s.cycle + m.delay + 1, Instr.sendOutcome m.who m.dest k) ∈ t.agenda
      ∧ ∃ marked, (s.cycle + m.delay + 1, Instr.storeAcknowledge m.who beyond marked) ∈ t.agenda
    let header := m.src * 2 ^ 16 + m.bytes.length
    let placed (off used : Nat) (t : State) : Prop := outcome 0 t
      ∧ Memory.readBytes t.mem (spadCell m.core (r.base + off)) n = leBytes 8 header ++ m.bytes
      ∧ ((t.core m.core).rings.get i).used = r.used + used
    (r.size = 0 ∨ s.inBerth m.src m.core = false → ∃ t, outcome 2 t ∧ t.mem = s.mem)
      ∧ (r.size ≠ 0 → s.inBerth m.src m.core = true →
          (r.head + n ≤ r.size → n ≤ free → ∃ t, placed r.head n t ∧ ((t.core m.core).rings.get i).head = (r.head + n) % r.size)
            ∧ (r.size < r.head + n → r.size - r.head + n ≤ free → ∃ t, placed 0 (r.size - r.head + n) t
                ∧ ((t.core m.core).rings.get i).head = n)
            ∧ ((r.head + n ≤ r.size ∧ free < n) ∨ (r.size < r.head + n ∧ free < r.size - r.head + n) → ∃ t, outcome 1 t ∧ t.mem = s.mem
                ∧ (r.overflow < 2 ^ 32 - 1 → ((t.core m.core).rings.get i).overflow = r.overflow + 1)))

/-- reg registers an unregistered context and counts it; wd withdraws a registered one; arrive and sync of a registered context count an arrival, the
last of which sends the core's arrival, and sync parks; wait completes when the phase has passed and parks otherwise; wsync arrives at its tag and
parks. arrive, sync and wsync of an unregistered context trap ILLEGAL, and so do arrive, sync and wd of a registered one under a BARRECT that breaks its
rule, with TRAPVAL BARRECT. Rules: R142, R143, R144, R145, R146, R147. The model's own choices in it: log entries 19, 21, 85. -/
def Obligations.BarrierWords : Prop :=
  ∀ (s : State) (sw : Bool) (d a : XReg), s.NoHints → s.NoTask →
    let w := s.who
    let c := s.ctx w
    let b := (s.core w.core).bar
    let r := rectOf b.rect
    let inside := 1 ≤ r.w ∧ 1 ≤ r.h ∧ r.col + r.w ≤ 128 ∧ r.row + r.h ≤ 64 ∧ r.col ≤ colOf w.core ∧ colOf w.core < r.col + r.w
      ∧ r.row ≤ rowOf w.core ∧ rowOf w.core < r.row + r.h
    let arrives (i : Instr) (P : State → Prop) : Prop := c.registered = true → inside → c.arrivedMesh = false → ∃ t, exec i s = .next t
      ∧ (t.ctx w).arrivedMesh = true ∧ (t.core w.core).bar.arr = b.arr + 1 ∧ (t.core w.core).bar.phase = b.phase
      ∧ ((t.core w.core).bar.sent = true ↔ b.sent = true ∨ (b.arr + 1 = b.reg ∧ c.unacked = 0
          ∧ (∀ n, n ≠ w.ctx → ((s.core w.core).ctxs.get n).arriveDebt = 0) ∧ (∀ x ∈ (s.core w.core).swapped, x.ctx.arriveDebt = 0)
          ∧ ∀ o ∈ (s.core w.core).orphans, o.debt = 0)) ∧ P t
    let refuses (i : Instr) : Prop := c.registered = false → exec i s = .next (s.raise w { cause := .illegal, val := wordOf i })
    let outside (i : Instr) : Prop := c.registered = true → ¬inside → exec i s = .next (s.raise w { cause := .illegal, val := b.rect.setWidth 64 })
    (s.Clear [] [] →
        (c.registered = false → ∃ t, exec (.barReg sw) s = .next t ∧ (t.ctx w).registered = true ∧ (t.core w.core).bar.reg = b.reg + 1
            ∧ ∀ g : Fin 8, (t.core w.core).bar.tagReg.get g = b.tagReg.get g + (if b.member.getLsbD g.val then 1 else 0)
              ∧ ((t.core w.core).bar.tagSent.getLsbD g.val = true ↔ b.tagSent.getLsbD g.val = true ∨ (b.member.getLsbD g.val = true ∧ b.tagReg.get g = 0)))
          ∧ (c.registered = true → exec (.barReg sw) s = .next (s.afterWord sw id))
          ∧ (c.registered = false → exec (.barWd sw) s = .next (s.afterWord sw id))
          ∧ (c.registered = true → inside → ∃ t, exec (.barWd sw) s = .next t ∧ (t.ctx w).registered = false ∧ (t.core w.core).bar.wd = true
              ∧ (t.core w.core).bar.falls = b.falls + 1 ∧ (t.core w.core).bar.arr = if c.arrivedMesh then b.arr else b.arr + 1)
          ∧ outside (.barWd sw) ∧ outside (.barSync sw)
          ∧ arrives (.barSync sw) (fun t => (t.ctx w).park = .barrier b.phase sw) ∧ refuses (.barSync sw))
      ∧ (s.Clear [] [.x d] → arrives (.barArrive sw d) (fun t => d ≠ 0 → (s.cycle + 2, Instr.resultWrite w (Result.plain (.x d) (b.phase.setWidth 512))) ∈ t.agenda)
          ∧ refuses (.barArrive sw d) ∧ outside (.barArrive sw d))
      ∧ (s.Clear [.x a] [] →
          let p : BitVec 16 := (c.getX a).setWidth 16
          let g : Fin 8 := Fin.ofNat 8 ((c.getX a).toNat % 8)
          (1 ≤ (b.phase - p).toNat → (b.phase - p).toNat ≤ 32767 → exec (.barWait sw a) s = .next (s.afterWord sw id))
            ∧ ((b.phase - p).toNat = 0 ∨ 32767 < (b.phase - p).toNat → exec (.barWait sw a) s = .next (s.parkedIn (.barrier p sw)))
            ∧ (c.registered = true → b.member.getLsbD g.val = true → c.arrivedTags.getLsbD g.val = false → ∃ t, exec (.barWsync sw a) s = .next t
                ∧ (t.ctx w).park = .wired g sw ∧ (t.ctx w).arrivedTags.getLsbD g.val = true ∧ (t.core w.core).bar.tagArr.get g = b.tagArr.get g + 1)
            ∧ refuses (.barWsync sw a)
            ∧ (c.registered = true → b.member.getLsbD g.val = false →
                exec (.barWsync sw a) s = .next (s.raise w { cause := .illegal, val := BitVec.ofNat 64 g.val })))

/-- A mesh release advances BARPHASE of every core whose BARRECT is the rectangle, applies the pending falls of the count, clears the arrivals and frees
the contexts parked on an older phase. A wired release flips the tag's bit in every member and frees its waiters at the next word. A BARRECT write
while the arrival is sent, and a WBARTAG write with an arrival counted, only set MIS; else they take effect. Rules: R143, R144, R145, R147, R148,
R282. The model's own choices in it: log entries 66, 85. -/
def Obligations.BarrierReleasesAndRegisters : Prop :=
  (
      ∀ (s : State) (die : Nat) (g : Fin 8) (r : Rect), s.CoresOk → 1 ≤ r.w → r.w ≤ 128 → r.h ≤ 64 → r.col + r.w ≤ 128 → r.row + r.h ≤ 64 →
        (∃ t, exec (.meshPhaseRelease die r.col r.row r.w r.h) s = .next t
            ∧ ∀ core, core ∈ r.cores die → rectOf (s.core core).bar.rect = r →
              let b := (s.core core).bar
              (t.core core).bar.phase = b.phase + 1 ∧ (t.core core).bar.reg = b.reg - b.falls ∧ (t.core core).bar.falls = 0
                ∧ (t.core core).bar.arr = 0 ∧ (∀ x ∈ (t.core core).swapped, x.ctx.arrivedMesh = false) ∧ ((t.core core).bar.sent = true ↔ b.reg - b.falls = 0)
                ∧ ∀ n p sw, (s.ctx { core := core, ctx := n }).park = .barrier p sw → (s.ctx { core := core, ctx := n }).outstanding = [] →
                  (s.ctx { core := core, ctx := n }).popped = [] →
                  ((t.ctx { core := core, ctx := n }).park = .none ↔ 1 ≤ (b.phase + 1 - p).toNat ∧ (b.phase + 1 - p).toNat ≤ 32767))
          ∧ (∃ t, exec (.wiredTagRelease die g) s = .next t
            ∧ ∀ core, core ∈ s.tagMembers die g →
              let b := (s.core core).bar
              (t.core core).bar.wph = b.wph ^^^ (1#8 <<< g.val) ∧ (t.core core).bar.tagArr.get g = 0
                ∧ (t.core core).bar.tagSent.getLsbD g.val = false ∧ (t.core core).bar.tagReg.get g = b.tagReg.get g - b.tagFalls.get g
                ∧ ∀ n sw, (s.ctx { core := core, ctx := n }).park = .wired g sw → (s.ctx { core := core, ctx := n }).outstanding = [] →
                  (s.ctx { core := core, ctx := n }).popped = [] → (t.ctx { core := core, ctx := n }).park = .none
                    ∧ (t.ctx { core := core, ctx := n }).pc = seqNext (s.ctx { core := core, ctx := n }).pc))
    ∧ (
      ∀ (s : State) (core : Nat) (v : Word),
        let b := (s.core core).bar
        (exec (.barrectWrite core v) s = .next (s.modBar core (fun b => if b.sent then { b with mis := true } else { b with rect := v.setWidth 28 })))
          ∧ ∃ t, exec (.wbartagWrite core v) s = .next t
            ∧ ((b.tagSent ≠ 0 ∨ (∃ g, b.tagArr.get g ≠ 0) ∨ ∃ g : Fin 8, b.member.getLsbD g.val = true ∧ b.tagReg.get g = 0) →
                (t.core core).bar = { b with mis := true })
            ∧ (b.tagSent = 0 → (∀ g, b.tagArr.get g = 0) → (∀ g : Fin 8, b.member.getLsbD g.val = true → b.tagReg.get g ≠ 0) →
                (t.core core).bar.member = v.setWidth 8 ∧ (t.core core).bar.mis = b.mis
                  ∧ ∀ g : Fin 8, (t.core core).bar.tagReg.get g =
                    if v.getLsbD g.val = false then 0
                    else if b.member.getLsbD g.val then b.tagReg.get g
                    else ((s.core core).ctxs.toList.filter (fun c => c.live && c.registered)).length
                      + ((s.core core).swapped.filter (fun x => x.ctx.registered)).length))

/-- push on a lower core appends 64 bytes of its own window, to be popped 2 cycles later, or parks while 8 entries are held; pop on an upper core
removes the oldest entry and parks until it is written, or parks while the FIFO is empty; each traps ILLEGAL on the other kind of die. count returns
the free places on a lower core and the entries on an upper one. Rules: R149, R150, R115. The model's own choices in it: log entries 21. -/
def Obligations.VerticalFifoWords : Prop :=
  ∀ (s t : State) (sw : Bool) (d a : XReg), s.NoHints → s.NoTask →
    let w := s.who
    let va := (s.ctx w).getX a
    let low := if dieOf w.core % 2 = 1 then w.core - 8192 else w.core
    let fifo := (s.core low).vfifo
    let n := fifo.length
    (s.Clear [.x a] [] →
        (dieOf w.core % 2 = 0 → va.toNat % 64 = 0 → va.toNat + 64 ≤ 0x18000 → s.readOwn w va 64 = (t, none) →
          let idle := ∀ c : CtxNo, ((s.core w.core).ctxs.get c).live = true → ((s.core w.core).ctxs.get c).park.isPush = false
          (n < 8 → idle → exec (.vfPush sw a) s = .next ((t.modCore w.core (fun k => { k with
              vfifo := k.vfifo ++ [(s.cycle + 2, BitVec.ofNat 512 (leValue (Memory.readBytes t.mem (spadCell w.core va.toNat) 64)))] })).afterWord sw id))
            ∧ (8 ≤ n ∨ ¬idle → exec (.vfPush sw a) s = .next (t.parkedIn (.vfPush va sw))))
          ∧ (∀ acc, dieOf w.core % 2 = 1 → va.toNat % 64 = 0 → va.toNat + 64 ≤ 0x18000 → s.resolve w.core .write va 64 = (t, .ok acc) →
            let idle := ∀ c : CtxNo, ((s.core w.core).ctxs.get c).live = true → ((s.core w.core).ctxs.get c).park.isPop = false
            (∀ at_ v rest, fifo = (at_, v) :: rest → at_ ≤ s.cycle → idle →
                exec (.vfPop sw a) s = .next ((t.modCore low (fun k => { k with vfifo := rest })).parkedIn (.vfPopWrite va v (s.cycle + 3) sw)))
              ∧ (fifo = [] ∨ (∀ at_ v rest, fifo = (at_, v) :: rest → s.cycle < at_) ∨ ¬idle → exec (.vfPop sw a) s = .next (t.parkedIn (.vfPop va sw))))
          ∧ (dieOf w.core % 2 = 1 → exec (.vfPush sw a) s = .next (s.raise w { cause := .illegal, val := wordOf (.vfPush sw a) }))
          ∧ (dieOf w.core % 2 = 0 → exec (.vfPop sw a) s = .next (s.raise w { cause := .illegal, val := wordOf (.vfPop sw a) })))
      ∧ (s.Clear [] [.x d] →
          exec (.vfCount sw d) s = .next (s.afterScalar sw 1 .unit d (BitVec.ofNat 64 (if dieOf w.core % 2 = 1 then n else 8 - n))))

/-- add, sub, mul, min, max, and, or, xor, sll, srl, sra, mulh, abs and neg, with a vector or a broadcast scalar, complete with a result posted for c +
2: each active lane takes the operation on its lanes, each inactive lane of vd is kept, the flags are those of the active lanes. Rules: R95, R96,
R97, R98, R99, R100. -/
def Obligations.VectorLanewiseResult : Prop :=
  ∀ (s : State) (sw sat : Bool) (ty : LaneTy) (vd va vb : VReg) (xs : XReg) (m : MReg), s.NoHints →
    let c := s.ctx s.who
    let A (i : Nat) : Nat := lane ty.width (c.getV va) i
    let B (i : Nat) : Nat := lane ty.width (c.getV vb) i
    let X (_ : Nat) : Nat := (c.getX xs).toNat % 2 ^ ty.width
    let gives (i : Instr) (f : Nat → FRes) : Prop := ∃ r, exec i s = .next (s.afterResult sw 2 .unit r) ∧ r.dest = .v vd ∧ r.beyond = false
      ∧ WritesLanes r ty (c.getM m) f
    let all (i : VReg → Instr) (op : Nat → Nat → FRes) : Prop := s.Clear ([.v va, .v vb] ++ maskSrc m) [.v vd] → gives (i vb) (fun n => op (A n) (B n))
    let allX (i : XReg → Instr) (op : Nat → Nat → FRes) : Prop := s.Clear ([.v va, .x xs] ++ maskSrc m) [.v vd] → gives (i xs) (fun n => op (A n) (X n))
    (all (fun b => .vopAdd sw ty sat vd va b m) (addLane ty sat) ∧ allX (fun b => .vopAddSx sw ty sat vd va b m) (addLane ty sat))
      ∧ (all (fun b => .vopSub sw ty sat vd va b m) (subLane ty sat) ∧ allX (fun b => .vopSubSx sw ty sat vd va b m) (subLane ty sat))
      ∧ (all (fun b => .vopMul sw ty sat vd va b m) (mulLane ty sat) ∧ allX (fun b => .vopMulSx sw ty sat vd va b m) (mulLane ty sat))
      ∧ (all (fun b => .vopMin sw ty vd va b m) (minMaxLane false ty) ∧ allX (fun b => .vopMinSx sw ty vd va b m) (minMaxLane false ty))
      ∧ (all (fun b => .vopMax sw ty vd va b m) (minMaxLane true ty) ∧ allX (fun b => .vopMaxSx sw ty vd va b m) (minMaxLane true ty))
      ∧ (all (fun b => .vopAnd sw ty vd va b m) (fun x y => .exact (x &&& y)) ∧ allX (fun b => .vopAndSx sw ty vd va b m) (fun x y => .exact (x &&& y)))
      ∧ (all (fun b => .vopOr sw ty vd va b m) (fun x y => .exact (x ||| y)) ∧ allX (fun b => .vopOrSx sw ty vd va b m) (fun x y => .exact (x ||| y)))
      ∧ (all (fun b => .vopXor sw ty vd va b m) (fun x y => .exact (x ^^^ y)) ∧ allX (fun b => .vopXorSx sw ty vd va b m) (fun x y => .exact (x ^^^ y)))
      ∧ (all (fun b => .vopSll sw ty vd va b m) (sllLane ty) ∧ allX (fun b => .vopSllSx sw ty vd va b m) (sllLane ty))
      ∧ (all (fun b => .vopSrl sw ty vd va b m) (srlLane ty) ∧ allX (fun b => .vopSrlSx sw ty vd va b m) (srlLane ty))
      ∧ (all (fun b => .vopSra sw ty vd va b m) (sraLane ty) ∧ allX (fun b => .vopSraSx sw ty vd va b m) (sraLane ty))
      ∧ (all (fun b => .vopMulh sw ty vd va b m) (mulhLane ty) ∧ allX (fun b => .vopMulhSx sw ty vd va b m) (mulhLane ty))
      ∧ (s.Clear ([.v va] ++ maskSrc m) [.v vd] → gives (.vopAbs sw ty sat vd va m) (fun n => absLane ty sat (A n))
        ∧ gives (.vopNeg sw ty sat vd va m) (fun n => negLane ty sat (A n)))

/-- With the unit idle the word completes with its result posted for c + 12 and the unit occupied until then; with the unit busy the word is not ready.
Rules: R97, R98, R99, R100. -/
def Obligations.DivideAndRootResult : Prop :=
  ∀ (s : State) (sw sat : Bool) (ty : LaneTy) (vd va vb : VReg) (xs : XReg) (m : MReg), s.NoHints →
    let c := s.ctx s.who
    let A (i : Nat) : Nat := lane ty.width (c.getV va) i
    let gives (i : Instr) (srcs : List Dest) (f : Nat → FRes) : Prop := s.Clear (srcs ++ maskSrc m) [.v vd] →
      ((s.core s.who.core).rootBusy ≤ s.cycle → ∃ r, exec i s = .next ((s.modCore s.who.core (fun k => { k with rootBusy := s.cycle + 13 })).afterResult sw 12 .unit r)
        ∧ r.dest = .v vd ∧ r.beyond = false ∧ WritesLanes r ty (c.getM m) f)
      ∧ (s.cycle < (s.core s.who.core).rootBusy → exec i s = .next { s with stalled := true })
    gives (.vopDiv sw ty sat vd va vb m) [.v va, .v vb] (fun n => divLane ty sat (A n) (lane ty.width (c.getV vb) n))
      ∧ gives (.vopDivSx sw ty sat vd va xs m) [.v va, .x xs] (fun n => divLane ty sat (A n) ((c.getX xs).toNat % 2 ^ ty.width))
      ∧ gives (.vopSqrt sw ty vd va m) [.v va] (fun n => sqrtLane ty (A n))

/-- For every integer lane type, add, sub, mul, min, max, abs, neg, shifts, high product and the four fused forms give the exact result wrapped to the
lane or, with sat, saturated, with no flag. A magnitude rounded to a multiple of 2^k by RoundRNE is within half a multiple, and even on a tie; by
RoundRZ it is the multiple below; inexact is set exactly when the value is no multiple. For every float lane type each lane operation, compare,
reduction, conversion and patch cell gives what the rules state on NaN, infinities and zeros of either sign, with NV and DZ; a float converted to an
integer is the nearest integer, wrapped or saturated, with NV out of range and NX when inexact. Rules: R10, R54, R55, R56, R57, R58, R60, R100, R101,
R102, R103, R112. The model's own choices in it: log entry 29. -/
def Obligations.IntegerLanesAndRounding : Prop :=
  (
      ∀ (ty : LaneTy) (sat : Bool) (a b c : Nat), fmtOf ty = none → a < 2 ^ ty.width → b < 2 ^ ty.width → c < 2 ^ ty.width →
        let n := ty.width
        let A := (BitVec.ofNat n a).toInt
        let B := (BitVec.ofNat n b).toInt
        let C := (BitVec.ofNat n c).toInt
        let bounded (i : Int) : Int := if sat then max (-(2 ^ (n - 1) : Int)) (min i (2 ^ (n - 1) - 1 : Int)) else i
        let is (r : FRes) (i : Int) : Prop := r.flags = .none ∧ r.bits < 2 ^ n ∧ (BitVec.ofNat n r.bits) = BitVec.ofInt n i
        is (addLane ty sat a b) (bounded (A + B)) ∧ is (subLane ty sat a b) (bounded (A - B)) ∧ is (mulLane ty sat a b) (bounded (A * B))
          ∧ is (minMaxLane false ty a b) (min A B) ∧ is (minMaxLane true ty a b) (max A B) ∧ is (absLane ty sat a) (bounded |A|) ∧ is (negLane ty sat a) (bounded (-A))
          ∧ is (sllLane ty a b) (A * 2 ^ (b % n)) ∧ is (srlLane ty a b) (a / 2 ^ (b % n)) ∧ is (sraLane ty a b) (A / 2 ^ (b % n)) ∧ is (mulhLane ty a b) (A * B / 2 ^ n)
          ∧ is (fmaLane false false ty sat a b c) (bounded (A * B + C)) ∧ is (fmaLane false true ty sat a b c) (bounded (A * B - C))
          ∧ is (fmaLane true false ty sat a b c) (bounded (-(A * B) + C)) ∧ is (fmaLane true true ty sat a b c) (bounded (-(A * B) - C)))
    ∧ (
      ∀ (mag k : Nat) (e : Int), 
        let near := (roundAt .rne mag e (e + k) false)
        let zero := (roundAt .rz mag e (e + k) false)
        (2 * (near.1 * 2 ^ k - mag) ≤ 2 ^ k ∧ 2 * (mag - near.1 * 2 ^ k) ≤ 2 ^ k)
          ∧ (2 * (near.1 * 2 ^ k - mag) = 2 ^ k ∨ 2 * (mag - near.1 * 2 ^ k) = 2 ^ k → near.1 % 2 = 0)
          ∧ (zero.1 * 2 ^ k ≤ mag ∧ mag < (zero.1 + 1) * 2 ^ k)
          ∧ (near.2 = true ↔ near.1 * 2 ^ k ≠ mag) ∧ (zero.2 = true ↔ zero.1 * 2 ^ k ≠ mag))
    ∧ (
      ∀ (ty : LaneTy) (inf nan : Nat) (sat : Bool) (a b c : Nat), (ty, inf, nan) ∈ [(LaneTy.f32, 0x7F800000, 0x7FC00000), (.bf16, 0x7F80, 0x7FC0), (.f16, 0x7C00, 0x7E00)] →
        a < 2 ^ ty.width → b < 2 ^ ty.width → c < 2 ^ ty.width →
        let top := 2 ^ (ty.width - 1)
        let mag (x : Nat) : Nat := x % top
        let minus (x : Nat) : Bool := decide (top ≤ x)
        let flip (x : Nat) : Nat := if minus x then x - top else x + top
        let signed (s : Bool) (x : Nat) : Nat := if s then x + top else x
        let isNan (x : Nat) : Prop := inf < mag x
        let isInf (x : Nat) : Prop := mag x = inf
        let isZero (x : Nat) : Prop := mag x = 0
        let isFin (x : Nat) : Prop := mag x < inf
        let xs : Bool := minus a != minus b
        let quiet : FRes := { bits := nan, flags := .none }
        let bad : FRes := { bits := nan, flags := .invalid }
        let is (r : FRes) (x : Nat) : Prop := r = { bits := x, flags := .none }
        let num (x : Nat) : Int := if minus x then -(mag x : Int) else mag x
        let key (x : Nat) : Int := if minus x then -(mag x : Int) - 1 else mag x
        (isNan a ∨ isNan b → addLane ty sat a b = quiet ∧ subLane ty sat a b = quiet ∧ mulLane ty sat a b = quiet ∧ divLane ty sat a b = quiet
            ∧ (∀ isMax, minMaxLane isMax ty a b = quiet))
          ∧ (isInf a → isInf b → a ≠ b → addLane ty sat a b = bad)
          ∧ (isInf a → ¬ isNan b → (isInf b → a = b) → is (addLane ty sat a b) a ∧ is (addLane ty sat b a) a)
          ∧ (isZero a → isZero b → is (addLane ty sat a b) (if a = b then a else 0))
          ∧ (isFin a → ¬ isZero a → isZero b → is (addLane ty sat a b) a ∧ is (addLane ty sat b a) a)
          ∧ (isFin a → ¬ isZero a → is (addLane ty sat a (flip a)) 0)
          ∧ subLane ty sat a b = addLane ty sat a (flip b)
          ∧ (isInf a → isZero b → mulLane ty sat a b = bad ∧ mulLane ty sat b a = bad)
          ∧ (isInf a → ¬ isNan b → ¬ isZero b → is (mulLane ty sat a b) (signed xs inf) ∧ is (mulLane ty sat b a) (signed xs inf))
          ∧ (isZero a → isFin b → is (mulLane ty sat a b) (signed xs 0) ∧ is (mulLane ty sat b a) (signed xs 0))
          ∧ (isZero a ∧ isZero b ∨ isInf a ∧ isInf b → divLane ty sat a b = bad)
          ∧ (isFin a → ¬ isZero a → isZero b → divLane ty sat a b = { bits := signed xs inf, flags := .divZero })
          ∧ (isInf a → isFin b → is (divLane ty sat a b) (signed xs inf))
          ∧ (isFin a → isInf b → is (divLane ty sat a b) (signed xs 0))
          ∧ (isZero a → isFin b → ¬ isZero b → is (divLane ty sat a b) (signed xs 0))
          ∧ (isNan a → sqrtLane ty a = quiet) ∧ (isZero a → is (sqrtLane ty a) a) ∧ is (sqrtLane ty inf) inf
          ∧ (minus a = true → ¬ isZero a → ¬ isNan a → sqrtLane ty a = bad)
          ∧ is (absLane ty sat a) (mag a) ∧ is (negLane ty sat a) (flip a)
          ∧ (¬ isNan a → ¬ isNan b → is (minMaxLane false ty a b) (if key b < key a then b else a) ∧ is (minMaxLane true ty a b) (if key a < key b then b else a))
          ∧ (∀ np nc : Bool,
              let ps := xs != np
              let cs := minus c != nc
              let fma := fmaLane np nc ty sat a b c
              (isNan a ∨ isNan b ∨ isNan c → fma = quiet)
                ∧ (isInf a ∧ isZero b ∨ isZero a ∧ isInf b → ¬ isNan c → fma = bad)
                ∧ (isInf a ∧ ¬ isNan b ∧ ¬ isZero b ∨ isInf b ∧ ¬ isNan a ∧ ¬ isZero a → ¬ isNan c →
                  if isInf c ∧ cs ≠ ps then fma = bad else is fma (signed ps inf))
                ∧ (isFin a → isFin b → isInf c → is fma (signed cs inf))
                ∧ (isZero a ∧ isFin b ∨ isFin a ∧ isZero b → isZero c → is fma (signed (ps && cs) 0)))
          ∧ (isNan a ∨ isNan b → vcmpLane ty .un a b = (true, false) ∧ vcmpLane ty (.cond .ne) a b = (true, false) ∧ vcmpLane ty (.cond .eq) a b = (false, false)
            ∧ ∀ k ∈ [Cond.lt, .ge, .gt, .le], vcmpLane ty (.cond k) a b = (false, true))
          ∧ (¬ isNan a → ¬ isNan b → vcmpLane ty .un a b = (false, false)
            ∧ vcmpLane ty (.cond .eq) a b = (decide (num a = num b), false) ∧ vcmpLane ty (.cond .ne) a b = (decide (num a ≠ num b), false)
            ∧ vcmpLane ty (.cond .lt) a b = (decide (num a < num b), false) ∧ vcmpLane ty (.cond .ge) a b = (decide (num b ≤ num a), false)
            ∧ vcmpLane ty (.cond .gt) a b = (decide (num b < num a), false) ∧ vcmpLane ty (.cond .le) a b = (decide (num a ≤ num b), false))
          ∧ (∀ ls : List Nat, (∀ x ∈ ls, x < 2 ^ ty.width) →
              let pinf := inf ∈ ls
              let ninf := inf + top ∈ ls
              (∀ isMax : Bool, ((∃ x ∈ ls, isNan x) → minMaxLanes isMax ty ls = quiet)
                  ∧ (ls = [] → is (minMaxLanes isMax ty ls) (signed isMax inf))
                  ∧ (ls ≠ [] → (∀ x ∈ ls, ¬ isNan x) → ∃ r ∈ ls, is (minMaxLanes isMax ty ls) r ∧ ∀ x ∈ ls, if isMax then key x ≤ key r else key r ≤ key x))
                ∧ ((∃ x ∈ ls, isNan x) → sumLanes ty sat ls = quiet)
                ∧ ((∀ x ∈ ls, ¬ isNan x) → (pinf → ninf → sumLanes ty sat ls = bad)
                  ∧ (pinf → ¬ ninf → is (sumLanes ty sat ls) inf) ∧ (ninf → ¬ pinf → is (sumLanes ty sat ls) (inf + top)))
                ∧ ((∀ x ∈ ls, isZero x) → is (sumLanes ty sat ls) (if ls ≠ [] ∧ ∀ x ∈ ls, x = top then top else 0)))
          ∧ (∀ (dst : LaneTy) (dinf dnan : Nat), (dst, dinf, dnan) ∈ [(LaneTy.f32, 0x7F800000, 0x7FC00000), (.bf16, 0x7F80, 0x7FC0), (.f16, 0x7C00, 0x7E00)] →
              let dsign : Nat := if minus a then 2 ^ (dst.width - 1) else 0
              (isNan a → is (cvtLane ty dst sat a) dnan) ∧ (isInf a → is (cvtLane ty dst sat a) (dinf + dsign)) ∧ (isZero a → is (cvtLane ty dst sat a) dsign)
                ∧ (dst = ty → isFin a → is (cvtLane ty dst sat a) a))
          ∧ (∀ dst : LaneTy, fmtOf dst = none →
              let n := dst.width
              let frac : Nat := if ty = .f32 then 23 else if ty = .bf16 then 7 else 10
              let bias : Int := if ty = .f16 then 15 else 127
              let e := mag a / 2 ^ frac
              let value : ℚ := (if minus a then -1 else 1) * ((mag a % 2 ^ frac + (if e = 0 then 0 else 2 ^ frac) : Nat) : ℚ) * (2 : ℚ) ^ (((max e 1 : Nat) : Int) - bias - (frac : Int))
              let lo : Int := -(2 ^ (n - 1) : Nat)
              let hi : Int := (2 ^ (n - 1) : Nat) - 1
              (isNan a → cvtLane ty dst sat a = { bits := 0, flags := .invalid })
                ∧ (isInf a → cvtLane ty dst sat a
                  = { bits := if sat then (if minus a then 2 ^ (n - 1) else 2 ^ (n - 1) - 1) else 0, flags := .invalid })
                ∧ (isFin a → ∀ i : Int, |(i : ℚ) - value| ≤ 1 / 2 → (|(i : ℚ) - value| = 1 / 2 → i % 2 = 0) →
                  (cvtLane ty dst sat a).bits = (BitVec.ofInt n (if sat then max lo (min i hi) else i)).toNat
                    ∧ ((cvtLane ty dst sat a).flags.nv = true ↔ i < lo ∨ hi < i) ∧ ((cvtLane ty dst sat a).flags.nx = true ↔ (i : ℚ) ≠ value)))
          ∧ (ty = .f32 → ∀ op : Nat, 
              is (cellOp 1 a b c) a ∧ cellOp 2 a b c = addLane ty false a b ∧ cellOp 3 a b c = subLane ty false a b ∧ cellOp 4 a b c = mulLane ty false a b
                ∧ cellOp 5 a b c = fmaLane false false ty false a b c ∧ cellOp 6 a b c = minMaxLane false ty a b ∧ cellOp 7 a b c = minMaxLane true ty a b
                ∧ is (cellOp 8 a b c) (mag a) ∧ is (cellOp 9 a b c) (flip a)
                ∧ (isNan a ∨ isNan b → is (cellOp 0x0A a b c) 0)
                ∧ (¬ isNan a → ¬ isNan b → is (cellOp 0x0A a b c) (if num a < num b then 0x3F800000 else 0))
                ∧ is (cellOp 0x0B a b c) ((a + b) % 2 ^ 32) ∧ (b ≤ a → is (cellOp 0x0C a b c) (a - b)) ∧ (a < b → is (cellOp 0x0C a b c) (a + 2 ^ 32 - b))
                ∧ is (cellOp 0x0D a b c) (a * b % 2 ^ 32) ∧ is (cellOp 0x0E a b c) (a &&& b) ∧ is (cellOp 0x0F a b c) (a ||| b) ∧ is (cellOp 0x10 a b c) (a ^^^ b)
                ∧ is (cellOp 0x11 a b c) (a * 2 ^ (b % 32) % 2 ^ 32) ∧ is (cellOp 0x12 a b c) (a / 2 ^ (b % 32)) ∧ (op = 0 → is (cellOp op a b c) 0)))

/-- Each completes with its result posted for c + 4: the active lanes take the fused result of A, B and C, where the broadcast form takes the scalar for
B and the previous vd for C; dot2 and dot4 sum their products into 32-bit lanes. Rules: R97, R98, R101. -/
def Obligations.FusedMultiplyResult : Prop :=
  ∀ (s : State) (sw sat : Bool) (ty : LaneTy) (vd va vb vc : VReg) (xs : XReg) (m : MReg), s.NoHints →
    let c := s.ctx s.who
    let A := c.getV va
    let B := c.getV vb
    let C := c.getV vc
    let D := c.getV vd
    let x := (c.getX xs).toNat
    let gives (i : Instr) (ty : LaneTy) (f : Nat → FRes) : Prop := ∃ r, exec i s = .next (s.afterResult sw 4 .unit r) ∧ r.dest = .v vd ∧ r.beyond = false
      ∧ WritesLanes r ty (c.getM m) f
    let n := ty.width
    let half := (fmtOf ty).getD bf16
    let dot4 (b : Nat → Nat) (v : Vec) (i : Nat) : FRes := .exact (narrowInt 32 sat (sintN 32 (lane 32 v i)
      + sintN 8 (lane 8 A (4 * i)) * sintN 8 (b (4 * i)) + sintN 8 (lane 8 A (4 * i + 1)) * sintN 8 (b (4 * i + 1))
      + sintN 8 (lane 8 A (4 * i + 2)) * sintN 8 (b (4 * i + 2)) + sintN 8 (lane 8 A (4 * i + 3)) * sintN 8 (b (4 * i + 3))))
    (s.Clear ([.v va, .v vb, .v vc] ++ maskSrc m) [.v vd] →
        gives (.vfmaFma sw ty sat vd va vb vc m) ty (fun i => fmaLane false false ty sat (lane n A i) (lane n B i) (lane n C i))
          ∧ gives (.vfmaFms sw ty sat vd va vb vc m) ty (fun i => fmaLane false true ty sat (lane n A i) (lane n B i) (lane n C i))
          ∧ gives (.vfmaFnma sw ty sat vd va vb vc m) ty (fun i => fmaLane true false ty sat (lane n A i) (lane n B i) (lane n C i))
          ∧ gives (.vfmaFnms sw ty sat vd va vb vc m) ty (fun i => fmaLane true true ty sat (lane n A i) (lane n B i) (lane n C i))
          ∧ gives (.vfmaDot2 sw ty sat vd va vb vc m) .f32
              (fun i => dot2Lane half sat (lane 16 A (2 * i)) (lane 16 B (2 * i)) (lane 16 A (2 * i + 1)) (lane 16 B (2 * i + 1)) (lane 32 C i))
          ∧ gives (.vfmaDot4 sw sat vd va vb vc m) .i32 (dot4 (lane 8 B) C))
      ∧ (s.Clear ([.v va, .x xs, .v vd] ++ maskSrc m) [.v vd] →
        gives (.vfmaFmaSx sw ty sat vd va xs m) ty (fun i => fmaLane false false ty sat (lane n A i) (x % 2 ^ n) (lane n D i))
          ∧ gives (.vfmaFmsSx sw ty sat vd va xs m) ty (fun i => fmaLane false true ty sat (lane n A i) (x % 2 ^ n) (lane n D i))
          ∧ gives (.vfmaFnmaSx sw ty sat vd va xs m) ty (fun i => fmaLane true false ty sat (lane n A i) (x % 2 ^ n) (lane n D i))
          ∧ gives (.vfmaFnmsSx sw ty sat vd va xs m) ty (fun i => fmaLane true true ty sat (lane n A i) (x % 2 ^ n) (lane n D i))
          ∧ gives (.vfmaDot2Sx sw ty sat vd va xs m) .f32
              (fun i => dot2Lane half sat (lane 16 A (2 * i)) (x % 2 ^ 16) (lane 16 A (2 * i + 1)) (x / 2 ^ 16 % 2 ^ 16) (lane 32 D i))
          ∧ gives (.vfmaDot4Sx sw sat vd va xs m) .i32 (dot4 (fun k => x / 2 ^ (8 * (k % 4)) % 2 ^ 8) D))

/-- vcmp with a vector or a broadcast scalar completes with its mask posted for c + 2: bit i is 1 exactly when lane i exists, is active and its
condition holds; NV is raised exactly when an active lane's compare raises it. Rules: R97, R98, R102. -/
def Obligations.VectorCompareResult : Prop :=
  ∀ (s : State) (sw : Bool) (ty : LaneTy) (cond : VCond) (md : MReg) (va vb : VReg) (xs : XReg) (m : MReg), s.NoHints →
    let c := s.ctx s.who
    let gives (i : Instr) (b : Nat → Nat) : Prop := ∃ r, exec i s = .next (s.afterResult sw 2 .unit r) ∧ r.dest = .m md ∧ r.beyond = false ∧ r.keep = 0
      ∧ (∀ i < 32, (r.value.getLsbD i = true ↔ i < ty.count ∧ laneActive ty (c.getM m) i = true ∧ (vcmpLane ty cond (lane ty.width (c.getV va) i) (b i)).1 = true))
      ∧ (r.flags = .none ∨ r.flags = .invalid)
      ∧ (r.flags = .invalid ↔ ∃ i < ty.count, laneActive ty (c.getM m) i = true ∧ (vcmpLane ty cond (lane ty.width (c.getV va) i) (b i)).2 = true)
    (ty ≠ .i8 → s.Clear ([.v va, .v vb] ++ maskSrc m) [.m md] → gives (.vcmp sw ty cond md va vb m) (lane ty.width (c.getV vb)))
      ∧ (ty ≠ .i8 → s.Clear ([.v va, .x xs] ++ maskSrc m) [.m md] → gives (.vcmpSx sw ty cond md va xs m) (fun _ => (c.getX xs).toNat % 2 ^ ty.width))

/-- and, or, xor, min, max and sum over the active lanes are posted for c + 4 in lane 0 with every other lane zero; an integer sum is the exact sum
wrapped or saturated; perm and rot take each active lane from the lane the index names. Rules: R97, R98, R103. -/
def Obligations.VectorReductionResult : Prop :=
  ∀ (s : State) (sw sat : Bool) (ty : LaneTy) (vd va vb : VReg) (xs : XReg) (m : MReg), s.NoHints →
    let c := s.ctx s.who
    let w := ty.width
    let act := (List.range ty.count).filter (laneActive ty (c.getM m))
    let ls := act.map (lane w (c.getV va))
    let gives (i : Instr) (v : FRes) : Prop := exec i s = .next (s.afterResult sw 4 .unit
      { dest := .v vd, value := BitVec.ofNat 512 v.bits, keep := 0, flags := v.flags, beyond := false, mark := false })
    let moves (i : Instr) (f : Nat → Nat) : Prop := ∃ r, exec i s = .next (s.afterResult sw 4 .unit r) ∧ r.dest = .v vd ∧ r.beyond = false
      ∧ WritesLanes r ty (c.getM m) (fun i => .exact (lane w (c.getV va) (f i)))
    (s.Clear ([.v va] ++ maskSrc m) [.v vd] →
        gives (.vredAnd sw ty vd va m) (.exact (ls.foldl (· &&& ·) (2 ^ w - 1))) ∧ gives (.vredOr sw ty vd va m) (.exact (ls.foldl (· ||| ·) 0))
          ∧ gives (.vredXor sw ty vd va m) (.exact (ls.foldl (· ^^^ ·) 0))
          ∧ gives (.vredMin sw ty vd va m) (minMaxLanes false ty ls) ∧ gives (.vredMax sw ty vd va m) (minMaxLanes true ty ls)
          ∧ gives (.vredSum sw ty sat vd va m) (sumLanes ty sat ls)
          ∧ (fmtOf ty = none → (sumLanes ty sat ls).bits = narrowInt w sat ((ls.map (sintN w)).sum)))
      ∧ (s.Clear ([.v va, .v vb] ++ maskSrc m) [.v vd] → moves (.vredPerm sw ty vd va vb m) (fun i => lane w (c.getV vb) i % ty.count))
      ∧ (s.Clear ([.v va, .x xs] ++ maskSrc m) [.v vd] → moves (.vredRot sw ty vd va xs m) (fun i => (i + (c.getX xs).toNat) % ty.count))

/-- mov, sel, bcast, zero, ext, getm and setm complete with the stated result posted for c + 2, and so does vcvt, whose destination lanes take the
converted source lanes, from va and vb in a narrowing and from the chosen half in a widening. Rules: R97, R98, R104, R105, R106. -/
def Obligations.VectorMoveAndConvertResult : Prop :=
  ∀ (s : State) (sw sat high : Bool) (ty src dst : LaneTy) (vd va vb : VReg) (xs : XReg) (m : MReg), s.NoHints →
    let c := s.ctx s.who
    let A := c.getV va
    let M := c.getM m
    let lanes (i : Instr) (ty : LaneTy) (mask : BitVec 32) (f : Nat → FRes) : Prop := ∃ r, exec i s = .next (s.afterResult sw 2 .unit r) ∧ r.dest = .v vd
      ∧ r.beyond = false ∧ WritesLanes r ty mask f
    (s.Clear ([.v va] ++ maskSrc m) [.v vd] → lanes (.vmovMov sw vd va m) .f32 M (fun i => .exact (lane 32 A i)))
      ∧ (s.Clear ([.v va, .v vb] ++ maskSrc m) [.v vd] → lanes (.vmovSel sw ty vd va vb m) ty (BitVec.allOnes 32)
          (fun i => .exact (if laneActive ty M i then lane ty.width A i else lane ty.width (c.getV vb) i)))
      ∧ (s.Clear ([.x xs] ++ maskSrc m) [.v vd] → lanes (.vmovBcast sw ty vd xs m) ty M (fun _ => .exact ((c.getX xs).toNat % 2 ^ ty.width)))
      ∧ (s.Clear (maskSrc m) [.v vd] → lanes (.vmovZero sw vd m) .f32 M (fun _ => .exact 0))
      ∧ (s.Clear (cvtSrcs src dst va vb ++ maskSrc m) [.v vd] → lanes (.vcvt sw src dst high sat vd va vb m) dst M (fun i => cvtLane src dst sat (match cvtKind src dst with
          | some .narrow => if i < src.count then lane src.width A i else lane src.width (c.getV vb) (i - src.count)
          | some .widen => lane src.width A (if high then i + dst.count else i)
          | _ => lane src.width A i)))
      ∧ (s.Clear ([.v va] ++ maskSrc m) [.x xs] →
          (∀ i < ty.count, laneActive ty M i = true → (∀ j < i, laneActive ty M j = false) →
            exec (.vmovExt sw ty va xs m) s = .next (s.afterScalar sw 2 .unit xs
              (if ty.isFloat then BitVec.ofNat 64 (lane ty.width A i) else (BitVec.ofNat ty.width (lane ty.width A i)).signExtend 64)))
          ∧ ((∀ i < ty.count, laneActive ty M i = false) → exec (.vmovExt sw ty va xs m) s = .next (s.afterScalar sw 2 .unit xs 0)))
      ∧ (s.Clear (maskSrc m) [.x xs] → exec (.vmovGetm sw xs m) s = .next (s.afterScalar sw 2 .unit xs (M.setWidth 64)))
      ∧ (s.Clear [.x xs] [.m m] → exec (.vmovSetm sw xs m) s = .next (s.afterResult sw 2 .unit (Result.plain (.m m) (((c.getX xs).setWidth 32).setWidth 512))))

/-- A load posts the words of its active lanes and keeps the others; a store writes the words of its active lanes and no others; with no active lane
they complete with no access; an address that is no multiple of 64 traps MISALIGNED. Rules: R107, R108, R97, R115. The model's own choices in it:
log entries 7, 8, 27. -/
def Obligations.VectorLoadAndStoreResult : Prop :=
  ∀ (s t : State) (at_ : Access) (sw : Bool) (ord : MemOrd) (v : VReg) (m : MReg) (a : XReg) (off : BitVec 10), s.ImmHints → s.NoTask →
    let c := s.ctx s.who
    let va := c.getX a + BitVec.ofInt 64 (c.hints.signed off * 64)
    let active := (List.range 16).filter (fun i => (c.getM m).getLsbD i)
    (s.Clear ([.x a] ++ maskSrc m) [.v v] →
        (va.toNat % 64 = 0 → active = [] → exec (.vmemLd sw ord v m a off) s = .next (s.afterResult sw 2 .load
            { Result.plain (.v v) 0 with keep := BitVec.allOnes 512 }))
          ∧ (s.Reaches .read va 64 t at_ → active ≠ [] →
              (∀ i ∈ active, t.loadPoison { at_ with key := at_.key + 4 * i, spad := at_.spad.map (fun q => (q.1, q.2 + 4 * i)) } 4 = none) →
              ∃ r, exec (.vmemLd sw ord v m a off) s = .next
                  ((if at_.beyond then (t.served s.who.core at_).drew else t.served s.who.core at_).afterResult sw (if at_.spad.isSome then at_.lat + 1 else at_.lat) .load r)
                ∧ r.dest = .v v ∧ r.beyond = at_.beyond ∧ WritesLanes r .f32 (c.getM m) (fun i => .exact (leValue (Memory.readBytes t.mem (at_.key + 4 * i) 4))))
          ∧ (va.toNat % 64 ≠ 0 → exec (.vmemLd sw ord v m a off) s = .next (s.raise s.who { cause := .misaligned, val := va })))
      ∧ (s.Clear ([.v v, .x a] ++ maskSrc m) [] →
        (va.toNat % 64 = 0 → active = [] → exec (.vmemSt sw ord v m a off) s = .next (s.afterWord sw id))
          ∧ (s.Reaches .write va 64 t at_ → active ≠ [] → exec (.vmemSt sw ord v m a off) s = .next
              (((active.foldl (fun u i => u.storeIssued { at_ with key := at_.key + 4 * i } (leBytes 4 (lane 32 (c.getV v) i))) (t.served s.who.core at_)).unacknowledged
                at_).afterWord sw id))
          ∧ (va.toNat % 64 ≠ 0 → exec (.vmemSt sw ord v m a off) s = .next (s.raise s.who { cause := .misaligned, val := va })))

/-- For each format of the page the active lanes take the element at their place, converted to FP32 or BF16, saturated where mod bit 22 says so. On a
PL8 page each active lane takes the value that its element's bits in the first p planes have under the scale byte that reg names, 127 without it; an
element at n or beyond is +0, a scale of 255 gives +0 and NV, and a refused p, n or g traps ILLEGAL. A misaligned address traps MISALIGNED, an
unassigned hint bit RESERVED_FIELD, and with no active lane no access is made. Rules: R109, R108, R90, R62, R63, R64, R65, R67, R68, R69, R70. The
model's own choices in it: log entries 25, 27, 108. -/
def Obligations.FormatLoadResult : Prop :=
  ∀ (s t : State) (at_ : Access) (sw : Bool) (ord : MemOrd) (v : VReg) (m : MReg) (a : XReg) (off : BitVec 10), s.NoTask →
    let c := s.ctx s.who
    let h := c.hints
    let scaleReg : Option XReg := h.reg.map (fun r => Fin.ofNat 32 r.toNat)
    (h.imx.isSome → h.imm.isSome) → s.Clear ([.x a] ++ (scaleReg.map Dest.x).toList ++ maskSrc m) [.v v] →
    let va := c.getX a + BitVec.ofInt 64 (h.signed off * 64)
    let key := at_.key
    let d := (h.mod.getD 0).toNat
    let n := d / 2 ^ 8 % 2 ^ 9
    let g := d / 2 ^ 4 % 2 ^ 4
    let p := d % 2 ^ 4
    let sat : Bool := decide (d / 2 ^ 22 = 1)
    let modOk := d / 2 ^ 17 % 2 ^ 5 = 0
    let regOk := (h.reg.getD 0).toNat < 32
    let loads (i : Instr) (dst : LaneTy) (f : Fmt) : Prop :=
      let L := dst.count
      let active := (List.range L).filter (fun i => (c.getM m).getLsbD i)
      let w := match at_.attr.format with
        | 0 => dst.width / 8 | 1 | 6 | 10 => 4 | 2 | 3 | 5 | 9 => 2 | 4 => 1 | _ => 8
      let decoded (b : Nat) : FRes := match at_.attr.format with
        | 1 | 10 => if dst = .f32 then .exact b else cvtLane .f32 dst sat b
        | 2 => cvtLane .f16 dst sat b
        | 3 | 9 => if dst = .bf16 then .exact b else cvtLane .bf16 dst sat b
        | 4 => cvtLane .i8 dst sat b | 5 => cvtLane .i16 dst sat b | 6 => cvtLane .i32 dst sat b | 7 => cvtLane .i64 dst sat b
        | _ => .exact b
      (modOk → regOk → s.resolve s.who.core .read va 4 = (t, .ok at_) → at_.attr.format ≤ 10 → va.toNat % 4 = 0 → active ≠ [] →
        (at_.attr.format ≠ 8 → va.toNat % (w * L) = 0 → (at_.beyond = true → (t.core s.who.core).beyond < (t.core s.who.core).wn) →
          t.portServes s.who.core at_ = true →
          (∀ i ∈ active, t.loadPoison { at_ with key := key + w * i, spad := at_.spad.map (fun q => (q.1, q.2 + w * i)) } w = none) →
          ∃ r, exec i s = .next ((if at_.beyond then (t.served s.who.core at_).drew else t.served s.who.core at_).afterResult sw
              (if at_.spad.isSome then at_.lat + 1 else at_.lat) .load r)
            ∧ r.dest = .v v ∧ r.beyond = at_.beyond ∧ WritesLanes r dst (c.getM m) (fun i => decoded (leValue (Memory.readBytes t.mem (key + w * i) w))))
        ∧ (at_.attr.format = 8 → at_.attr.blockg ≤ 3 → at_.attr.planesn ≤ 7 →
          let B := 32 * 2 ^ at_.attr.blockg
          let P := at_.attr.planesn + 1
          let refused := p = 1 ∨ 8 < p ∨ B < n ∨ B / L ≤ g
          let len := if n = 0 then B else n
          let planes := if p = 0 then P else min p P
          let present := (active.map (L * g + ·)).filter (fun k => decide (k < len))
          (refused → ∃ u, (u = s ∨ u = t) ∧ exec i s = .next (u.raise s.who { cause := .illegal, val := c.pc }))
            ∧ (¬ refused → ∀ (u y : State) (pieces : List (Nat × Access)) (scale : Option Access),
              t.resolvePieces s.who.core va 1 (planeBytes B planes present) = (u, .ok pieces) →
              (scaleReg = none → y = u ∧ scale = none) →
              (∀ r, scaleReg = some r → ∃ x, u.resolve s.who.core .read (c.getX r) 1 = (y, .ok x) ∧ scale = some x) →
              let all := pieces.map (·.2) ++ scale.toList
              let e := match scale with | some x => (Memory.read y.mem x.key).toNat | none => 127
              let lat := all.foldl (fun l x => max l (if x.spad.isSome then x.lat + 1 else x.lat)) 2
              let bit (k j : Nat) : Nat := match pieces.find? (fun x => x.1 = j * (B / 8) + k / 8) with
                | some x => (Memory.read y.mem x.2.key).toNat / 2 ^ (k % 8) % 2
                | none => 0
              let value (i : Nat) : FRes :=
                let k := L * g + i
                if len ≤ k then .exact 0 else if e = 255 then { bits := 0, flags := .invalid }
                else f.narrow (rneOf sat) (planeValue planes ((List.range planes).foldl (fun q j => q + bit k j * 2 ^ (planes - 1 - j)) 0) e)
              (∀ x ∈ all, y.loadPoison x 1 = none) →
              (all = [] → ∃ r, exec i s = .next (y.afterResult sw 2 .load r) ∧ r.dest = .v v ∧ r.beyond = false ∧ WritesLanes r dst (c.getM m) value)
                ∧ (∀ first rest, all = first :: rest → (∀ x ∈ rest, x.beyond = first.beyond) → y.portServes s.who.core first = true →
                  (first.beyond = true → (y.core s.who.core).beyond < (y.core s.who.core).wn) →
                  ∃ r, exec i s = .next ((if first.beyond then (y.served s.who.core first).drew else y.served s.who.core first).afterResult sw lat .load r)
                    ∧ r.dest = .v v ∧ r.beyond = first.beyond ∧ WritesLanes r dst (c.getM m) value))))
      ∧ (modOk → regOk → va.toNat % 4 ≠ 0 → p ≠ 1 → p ≤ 8 → n ≤ 32 → g < 32 / L → exec i s = .next (s.raise s.who { cause := .misaligned, val := va }))
      ∧ (modOk → regOk → va.toNat % 4 = 0 → active = [] → exec i s = .next (s.afterResult sw 2 .load { Result.plain (.v v) 0 with keep := BitVec.allOnes 512 }))
      ∧ (¬ modOk → exec i s = .next (s.raise s.who { cause := .reservedField
                                                     val := BitVec.ofNat 64 ((if h.modSw then 2 ^ 31 else 0) + 0x3F * 2 ^ 25 + 2 * 2 ^ 23 + d) }))
      ∧ (modOk → ¬ regOk → exec i s = .next (s.raise s.who { cause := .reservedField
                                                             val := BitVec.ofNat 64 ((if h.regSw then 2 ^ 31 else 0) + 0x3F * 2 ^ 25 + 3 * 2 ^ 23
                                                               + (h.reg.getD 0).toNat) }))
    loads (.vmemLdf sw ord v m a off) .f32 fp32 ∧ loads (.vmemLdb sw ord v m a off) .bf16 bf16

/-- pat.cfg of a block in a window parks until its 17 doublewords are read, one in a core cycle, each through its butterfly port where it has one; the
last configures the patch. pat.exec posts for c + 5 the outputs of the two cells that the header names,
with the flags of the cells, or 0 when no patch is configured. Each cell applies its operation to the inputs, the constant, zero or an earlier cell,
as its selectors say. Rules: R110, R111, R112, R113, R114. The model's own choices in it: log entries 28. -/
def Obligations.PatchWords : Prop :=
  (
      ∀ (s t : State) (acc : Access) (sw : Bool) (d a b : XReg), s.NoHints → (s.core s.who.core).patchLoading = false →
        let c := s.ctx s.who
        let va := c.getX a
        (s.Clear [.x a] [] → (∀ n : CtxNo, ∀ o ∈ ((s.core s.who.core).ctxs.get n).outstanding, o.by_ ≠ .patch) → va.toNat % 8 = 0 →
            inGroupWindow s.who.core va.toNat = true → inGroupWindow s.who.core (va.toNat + 135) = true → s.resolve s.who.core .read va 136 = (t, .ok acc) →
            exec (.patCfg sw a) s = .next ((t.modCore s.who.core (fun k => { k with patchLoading := true })).parkedIn (.patCfg va (s.cycle + acc.lat + 1) [] sw)))
          ∧ (∀ (w : CtxId) (p : Word) (n : Nat) (block : List Word) (v : Word) (lat : Nat), (s.ctx w).park = .patCfg p n block sw → block.length < 17 →
              let at_ := p + BitVec.ofNat 64 (8 * block.length)
              let u := s.pollPatch w
              (s.resolve w.core .read at_ 8).2 = .ok acc →
              (acc.port w.core = none → s.cycle < n + block.length → (u.ctx w).park = .patCfg p n block sw ∧ u.agenda = s.agenda)
                ∧ (acc.port w.core = none → n + block.length ≤ s.cycle → s.readScalar w at_ .d false = (t, .ok (acc, v, lat)) →
                  (block.length < 16 → (u.ctx w).park = .patCfg p n (block ++ [v]) sw ∧ (u.core w.core).patch = (t.core w.core).patch)
                    ∧ (block.length = 16 → (∀ i < 17, blockFault i ((block ++ [v]).getD i 0) = none) → (u.core w.core).patchLoading = false
                        ∧ (u.core w.core).patch = some { header := (block ++ [v]).headD 0, cells := (block ++ [v]).tail } ∧ (u.ctx w).pc = seqNext (t.ctx w).pc))
                ∧ (∀ q, acc.port w.core = some q → (u.ctx w).park = .patCfg p n block sw
                  ∧ (s.readScalar w at_ .d false = (t, .ok (acc, v, lat)) → t.portServes w.core acc = true →
                      ((s.portDecided w).ctx w).park = .patCfg p n (block ++ [v]) sw)))
          ∧ (s.Clear [.x a, .x b] [.x d] →
            ((s.core s.who.core).patch = none → exec (.patExec sw d a b) s = .next (s.afterScalar sw 5 .patch d 0))
              ∧ ∀ p, (s.core s.who.core).patch = some p →
                let r := patchCells (c.getX a) (c.getX b) p.cells
                let hi := r.1.getD (p.header.toNat / 16 % 16) 0
                let lo := r.1.getD (p.header.toNat % 16) 0
                exec (.patExec sw d a b) s = .next (if d = 0 ∧ r.2 = FFlags.none then s.afterWord sw id
                  else s.afterResult sw 5 .patch { Result.plain (.x d) (BitVec.ofNat 512 ((hi * 2 ^ 32 + lo) % 2 ^ 64)) with flags := r.2 })))
    ∧ (
      ∀ (x y : Word) (cells : List Word) (n : Nat), n < cells.length →
        let outs := (patchCells x y cells).1
        let w := (cells.getD n 0).toNat
        let k := w / 2 ^ 32
        let sel (i : Nat) : Nat := match i with
          | 0 => x.toNat % 2 ^ 32 | 1 => x.toNat / 2 ^ 32 | 2 => y.toNat % 2 ^ 32 | 3 => y.toNat / 2 ^ 32 | 4 => k | 5 => 0
          | i => if i - 16 < n then outs.getD (i - 16) 0 else 0
        outs.length = cells.length ∧ outs.getD n 0 = (cellOp (w % 2 ^ 8) (sel (w / 2 ^ 12 % 2 ^ 6)) (sel (w / 2 ^ 18 % 2 ^ 6)) k).bits)

/-- job.sub parks while it reads its card, a doubleword in each core cycle from the second on; poll returns the status word, and wait returns it once the
job has ended and parks until then; mx.gang of position 0 parks while it reads the descriptor, and of another position arrives at the gang barrier and parks; mx.rowout of a drain-row helper hands
the row of v0 to v3 to the drain path, and traps ILLEGAL elsewhere. Rules: R157, R160, R164, R169, R171. -/
def Obligations.EngineWords : Prop :=
  ∀ (s t : State) (sw : Bool) (d a : XReg), s.NoHints →
    let w := s.who
    let c := s.ctx w
    let va := c.getX a
    let k := s.cluster (clusterOf w.core)
    let status := (k.statusOf (va.setWidth 16)).2
    (s.Clear [.x a] [.x d] →
        (s.NoTask → va.toNat % 32 = 0 → va.toNat + 32 ≤ 0x18000 → s.readOwn w va 32 = (t, none) →
            exec (.jobSub sw d a) s = .next (t.parkedIn (.jobSub va (s.cycle + 2) [] d sw)))
          ∧ exec (.jobPoll sw d a) s = .next (s.afterScalar sw 2 .unit d status)
          ∧ ((k.statusOf (va.setWidth 16)).1 = true → exec (.jobWait sw d a) s = .next (s.afterScalar sw 2 .unit d status))
          ∧ ((k.statusOf (va.setWidth 16)).1 = false → exec (.jobWait sw d a) s = .next (s.parkedIn (.jobWait (va.setWidth 16) d sw)))
          ∧ (s.NoTask → s.gangHeld w.core = false →
              (posOf w.core = 0 → va.toNat % 64 = 0 → inClusterWindow w.core va.toNat = true → inClusterWindow w.core (va.toNat + 71) = true →
                  s.readOwn w va 72 = (t, none) →
                  exec (.mxGang sw d a) s = .next (t.parkedIn (.mxRead va (s.cycle + t.windowLat w.core va.toNat + 1) [] d sw)))
                ∧ (posOf w.core ≠ 0 → ∃ u, exec (.mxGang sw d a) s = .next u ∧ (u.ctx w).park = .mxGang d false sw
                    ∧ (∀ p : Fin 8, (u.cluster (clusterOf w.core)).gangArrivals.getLsbD p.val = (k.gangArrivals.getLsbD p.val || p.val = posOf w.core))
                    ∧ ((∀ p : Fin 8, k.gangArrivals.getLsbD p.val = true ∨ p.val = posOf w.core) →
                        (s.cycle + 1, Instr.gangBarrierConsume (clusterOf w.core)) ∈ u.agenda))))
      ∧ (s.Clear [.v 0, .v 1, .v 2, .v 3] [] →
          (∀ row job addr outf, c.role = .drainRow row job addr outf false → ∃ u lat, exec (.mxRowout sw) s = .next u
              ∧ (u.ctx w).role = .drainRow row job addr outf true
              ∧ (∃ b ∈ (u.core c.origin).slice.buffers, b.row = row ∧ b.job = job ∧ b.addr = addr ∧ b.outf = outf ∧ b.due = some (s.cycle + lat + 1)
                  ∧ b.vals = (List.range 64).map (fun j => BitVec.ofNat 32 (lane 32 (c.getV (Fin.ofNat 8 (j / 16))) (j % 16))))
              ∧ (s.cycle + lat + 1, Instr.drainPathWrite (clusterOf c.origin) (Fin.ofNat 8 (posOf c.origin))) ∈ u.agenda)
          ∧ ((∀ row job addr outf, c.role ≠ .drainRow row job addr outf false) →
              exec (.mxRowout sw) s = .next (s.raise w { cause := .illegal, val := wordOf (.mxRowout sw) })))
      ∧ ∀ (v : CtxId) (p : Word) (n from_ lat : Nat) (got : List Word) (x : Word) (acc : Access), got.length < n →
          let at_ := p + BitVec.ofNat 64 (8 * got.length)
          (s.resolve v.core .read at_ 8).2 = .ok acc → acc.port v.core = none →
          (s.cycle < from_ + got.length → s.readCard v p n from_ got = (s, .ok got))
            ∧ (from_ + got.length ≤ s.cycle → s.readScalar v at_ .d false = (t, .ok (acc, x, lat)) → s.readCard v p n from_ got = (t, .ok (got ++ [x])))
            ∧ (∀ e, from_ + got.length ≤ s.cycle → s.readScalar v at_ .d false = (t, .error e) → s.readCard v p n from_ got = (t, .error { cause := e, val := p }))

/-- cnt writes a counter and clears its count, term writes a term's mask, rdc returns a counter, pulse raises the tag lines of x[a], clr clears the
counts of x[a]; cnt and term trap ILLEGAL for bits of x[b] outside their fields. Rules: R172, R174. -/
def Obligations.CrossbarWords : Prop :=
  ∀ (s : State) (sw : Bool) (d a b : XReg), s.NoHints → s.NoTask →
    let c := s.ctx s.who
    let n : Fin 16 := Fin.ofNat 16 ((c.getX a).toNat % 16)
    let y := (c.getX b).toNat
    let cl := clusterOf s.who.core
    let k := s.cluster cl
    let changes (i : Instr) (f : Cluster → Cluster) : Prop := exec i s = .next ((s.modCluster cl f).afterWord sw id)
    (s.Clear [.x a, .x b] [] →
        (y < 2 ^ 33 → changes (.xbarCnt sw a b) (fun k => k.setCounter n { src := BitVec.ofNat 16 y, thresh := y / 2 ^ 16 % 2 ^ 16, auto := y / 2 ^ 32 % 2 == 1, count := 0, fired := decide (y / 2 ^ 16 % 2 ^ 16 = 0) }))
          ∧ (2 ^ 33 ≤ y → exec (.xbarCnt sw a b) s = .next (s.raise s.who { cause := .illegal, val := c.getX b }))
          ∧ (y < 2 ^ 16 → changes (.xbarTerm sw a b) (fun k => { k with terms := k.terms.set n.val (BitVec.ofNat 16 y) n.isLt }))
          ∧ (2 ^ 16 ≤ y → exec (.xbarTerm sw a b) s = .next (s.raise s.who { cause := .illegal, val := c.getX b })))
      ∧ (s.Clear [.x a] [.x d] → 
          let x := k.counters.get n
          exec (.xbarRdc sw d a) s = .next (s.afterScalar sw 2 .unit d (BitVec.ofNat 64 ((if x.thresh ≤ x.count then 2 ^ 49 else 0)
            + (if x.auto then 2 ^ 48 else 0) + x.src.toNat * 2 ^ 32 + x.thresh * 2 ^ 16 + x.count))))
      ∧ (s.Clear [.x a] [] →
          changes (.xbarPulse sw a) (fun k => { k with pulses := k.pulses ||| (c.getX a).setWidth 16 })
            ∧ ∃ f : Cluster → Cluster, changes (.xbarClr sw a) f ∧ (∀ i : Fin 16, (f k).counters.get i =
                if (c.getX a).getLsbD i.val then { k.counters.get i with count := 0, fired := decide ((k.counters.get i).thresh = 0) } else k.counters.get i)
              ∧ (f k).terms = k.terms ∧ (f k).pulses = k.pulses ∧ (f k).jobs = k.jobs ∧ (f k).sets = k.sets ∧ (f k).vars = k.vars)

/-- start from the control context takes the lowest free helper slot, with entry, arguments and trap registers as stated and its number in x[d], or
writes 0 when there is none; from a helper it traps ILLEGAL. fork pushes a task and writes the depth, or 0 when the deque holds 32. Rules: R176,
R177, R178, R179. -/
def Obligations.StartAndForkResult : Prop :=
  ∀ (s : State) (sw : Bool) (d a b : XReg), s.Clear [.x d, .x a, .x b] [.x d] → s.NoHints → s.NoTask →
    let w := s.who
    let c := s.ctx w
    let k := s.core w.core
    let free (n : CtxNo) : Prop := 1 ≤ n.val ∧ ¬(n = 10 ∧ s.slotReserved w.core = true) ∧ k.slotFree n s.cycle = true
    (w.ctx ≠ 0 → exec (.workStart sw d a b) s = .next (s.raise w { cause := .illegal, val := wordOf (.workStart sw d a b) }))
      ∧ (w.ctx = 0 → (∀ n, ¬free n) → exec (.workStart sw d a b) s = .next (s.afterScalar sw 2 .unit d 0))
      ∧ (w.ctx = 0 → ∀ n, free n → (∀ i < n, ¬free i) → ∀ u, s.checkTarget w.core (c.getX a) true = (u, none) → ∃ (t : State) (x : Ctx),
          exec (.workStart sw d a b) s = .next (t.afterScalar sw 2 .unit d (BitVec.ofNat 64 n.val))
          ∧ t.ctx { core := w.core, ctx := n } = x ∧ t.ctx w = c ∧ x.live = true ∧ x.pc = c.getX a ∧ x.src = 1 ∧ x.getX 10 = c.getX b ∧ x.getX 11 = c.getX d
          ∧ x.readyAt = s.cycle + 1 ∧ x.park = .none ∧ x.intrap = false ∧ x.outstanding = [] ∧ (∀ r : XReg, r ≠ 10 → r ≠ 11 → x.getX r = 0)
          ∧ x.trapVec = (s.launchTrap w.core).1 ∧ x.whtrap = (s.launchTrap w.core).2)
      ∧ (32 ≤ k.deque.length → exec (.workFork sw d a b) s = .next (s.afterScalar sw 2 .unit d 0))
      ∧ (k.deque.length < 32 → exec (.workFork sw d a b) s = .next ((s.modCore w.core (fun k => { k with
          deque := k.deque ++ [{ entry := c.getX a, arg0 := c.getX b, arg1 := c.getX d, pushed := s.cycle }]
          steal := { k.steal with backoff := none } })).afterScalar sw 2 .unit d (BitVec.ofNat 64 (k.deque.length + 1))))

/-- join of a counter that reads 0 completes and otherwise parks on a watch; exit ends the context once nothing is outstanding, decrementing the counter
it names; hold and release return the old mask; migrate parks towards another core of the berth, completes for its own and traps otherwise; launch
parks while it reads its request; yield parks only when it may be swapped for a start that waits. Rules: R180, R181, R183, R184, R186, R187, R272.
The model's own choices in it: log entries 42. -/
def Obligations.WorkWords : Prop :=
  ∀ (s t : State) (at_ : Access) (sw : Bool) (d a : XReg), s.NoHints →
    let w := s.who
    let c := s.ctx w
    let va := c.getX a
    let low : BitVec 8 := va.setWidth 8
    let old := (s.core w.core).hold
    (s.Clear [.x a] [] → s.NoTask → s.Reaches .read va 8 t at_ → inGroupWindow w.core va.toNat = true → t.loadPoison at_ 8 = none →
        (leValue (Memory.readBytes t.mem at_.key 8) = 0 → exec (.workJoin sw a) s = .next ((t.served w.core at_).afterWord sw id))
          ∧ (leValue (Memory.readBytes t.mem at_.key 8) ≠ 0 → exec (.workJoin sw a) s = .next (((t.served w.core at_).modCtx w (fun c => { c with
              readyAt := s.cycle + at_.lat + 1 })).parkedIn (.joining va at_.key sw))))
      ∧ (s.Clear [.x a] [] → s.NoTask → c.popped = [] →
          (c.outstanding ≠ [] → (∀ n, c.role ≠ .exit n) → exec (.workExit sw a) s = .next (s.parkedIn (.exiting (if a = 0 then none else some va))))
            ∧ (∀ n, c.outstanding ≠ [] → c.role = .exit n → ∃ u, exec (.workExit sw a) s = .next u
                ∧ (u.ctx w).park = .exiting (if a = 0 then none else some va) ∧ (u.ctx w).outstanding = c.outstanding)
            ∧ (c.outstanding = [] → a = 0 → exec (.workExit sw a) s = .next (s.endCtx w false) ∧ ((s.endCtx w false).ctx w).live = false)
            ∧ (c.outstanding = [] → a ≠ 0 → va.toNat % 8 = 0 → s.resolve w.core .atomic va 8 = (t, .ok at_) →
                (at_.beyond = true → (t.core w.core).beyond < (t.core w.core).wn) → t.portServes w.core at_ = true → 
                ∃ u, exec (.workExit sw a) s = .next u ∧ (u.ctx w).live = false ∧ ∃ r, (s.cycle, Instr.amoHomeApply r) ∈ u.agenda
                  ∧ r.op = .add ∧ r.sz = .d ∧ r.addr = at_.key ∧ r.operand = BitVec.allOnes 64 ∧ r.dest = none))
      ∧ (s.Clear [.x a] [.x d] →
          exec (.workHold sw d a) s = .next ((s.modCore w.core (fun k => { k with hold := old ||| low })).afterScalar sw 1 .unit d (old.setWidth 64))
            ∧ exec (.workRelease sw d a) s = .next ((s.modCore w.core (fun k => { k with hold := old &&& ~~~low })).afterScalar sw 1 .unit d (old.setWidth 64)))
      ∧ (s.Clear [.x a] [.x d] → s.NoTask →
          let target := va.toNat % 2 ^ 18
          (w.ctx ≠ 0 → s.inBerth w.core target = true → target = w.core →
              exec (.workMigrate sw d a) s = .next (s.afterScalar sw 1 .unit d (BitVec.ofNat 64 target)))
            ∧ (w.ctx ≠ 0 → s.inBerth w.core target = true → target ≠ w.core → exec (.workMigrate sw d a) s = .next (s.parkedIn (.migrating target d sw)))
            ∧ (w.ctx ≠ 0 → s.inBerth w.core target = false → exec (.workMigrate sw d a) s = .next (s.raise w { cause := .protection, val := va }))
            ∧ (w.ctx = 0 → exec (.workMigrate sw d a) s = .next (s.raise w { cause := .illegal, val := wordOf (.workMigrate sw d a) }))
            ∧ (va.toNat % 32 = 0 → va.toNat + 32 ≤ 0x18000 → s.readOwn w va 32 = (t, none) →
                exec (.workLaunch sw d a) s = .next (t.parkedIn (.launching va none [] d sw))))
      ∧ (s.Clear [] [] →
          let k := s.core w.core
          (w.ctx = 0 ∨ k.inGang w = true ∨ s.startsWait w.core = false ∨ k.spillRoom < 1024 → exec (.workYield sw) s = .next (s.afterWord sw id))
            ∧ (w.ctx ≠ 0 → k.inGang w = false → s.startsWait w.core = true → 1024 ≤ k.spillRoom → exec (.workYield sw) s = .next (s.parkedIn (.yielding sw))))

/-- sub parks while it reads its card, and its card's checks trap as listed; a task at or before the last commit is answered 1, one with no free entry
0, and else the lowest free entry takes the card's order, entry, argument and footprint and its identifier is answered. stat returns the runs, the
held-trap bit and the state. Rules: R189, R190, R191, R192, R197. The model's own choices in it: log entries 39, 40. -/
def Obligations.OrderedTaskWords : Prop :=
  ∀ (s t : State) (sw : Bool) (d a : XReg),
    let w := s.who
    let va := (s.ctx w).getX a
    let lid := (s.core w.core).lid
    let D := s.die (dieOf w.core)
    (s.Clear [.x a] [.x d] → s.NoHints →
        (va.toNat % 32 = 0 → va.toNat + 32 ≤ 0x18000 → s.readOwn w va 32 = (t, none) →
            exec (.otaskSub sw d a) s = .next (t.parkedIn (.otaskSub va (s.cycle + 2) [] d sw)))
          ∧ (va.toNat % 32 ≠ 0 → exec (.otaskSub sw d a) s = .next (s.raise w { cause := .misaligned, val := va }))
          ∧ (va.toNat % 32 = 0 → 0x18000 < va.toNat + 32 → exec (.otaskSub sw d a) s = .next (s.raise w { cause := .protection, val := va }))
          ∧ (∀ o, 512 ≤ va.toNat % 2 ^ 16 → kget (lid * 512 + va.toNat % 512) D.tasks = some o → o.gen = va.toNat % 2 ^ 16 / 512 → o.state < 8 →
              exec (.otaskStat sw d a) s = .next (s.drew.afterScalar sw 2 .unit d
                (BitVec.ofNat 64 (min 255 o.runs * 2 ^ 8 + (if o.held.isSome then 8 else 0) + o.state))))
          ∧ (va.toNat % 2 ^ 16 < 512 → exec (.otaskStat sw d a) s = .next (s.drew.afterScalar sw 2 .unit d 4)))
      ∧ (∀ va n got d sw ds, (s.ctx w).park = .otaskSub va n got d sw → got.length < 4 → s.readCard w va 4 n got = (t, .ok ds) →
          (ds.length < 4 → ((s.pollOtaskSub w).ctx w).park = .otaskSub va n ds d sw) ∧ (ds.length = 4 →
          ((ds.getD 3 0).toNat < 2 ^ 48 → ds.getD 3 0 = 0 →
              s.pollOtaskSub w = (t.submitTask w ds []).1.completeX w d (t.submitTask w ds []).2 sw t.cycle)
            ∧ (2 ^ 48 ≤ (ds.getD 3 0).toNat → s.pollOtaskSub w = t.raiseParked w d { cause := .reservedField, val := va + 24 })
            ∧ ((ds.getD 3 0).toNat < 2 ^ 48 → (ds.getD 3 0).toNat % 8 ≠ 0 → s.pollOtaskSub w = t.raiseParked w d { cause := .misaligned, val := ds.getD 3 0 })))
      ∧ ∀ (card : List Word) (foot : List FootRange), s.taskOf w = none →
          let ts := (card.getD 0 0).toNat
          let key := (card.getD 1 0).toNat / 2 ^ 48
          let free (n : Nat) : Prop := ∀ o, kget (lid * 512 + n) D.tasks = some o → o.open_ = false
          (∀ q, (D.commitsOf lid).last = some q → ts < q.1 ∨ ts = q.1 ∧ key ≤ q.2 → s.submitTask w card foot = (s, 1))
            ∧ ((∀ q, (D.commitsOf lid).last = some q → q.1 < ts ∨ q.1 = ts ∧ q.2 < key) →
                ((∀ n < 512, ¬free n) → s.submitTask w card foot = (s, 0))
                  ∧ ∀ n < 512, free n → (∀ m < n, ¬free m) → ∃ u gen, s.submitTask w card foot = (u, BitVec.ofNat 64 (gen * 512 + n))
                    ∧ gen = (match kget (lid * 512 + n) D.tasks with | some o => if o.gen = 127 then 1 else o.gen + 1 | none => 1)
                    ∧ ∃ o, kget (lid * 512 + n) (u.die (dieOf w.core)).tasks = some o ∧ o.gen = gen ∧ o.ts = ts ∧ o.key = key
                      ∧ o.entry = card.getD 1 0 &&& 0xFFFFFFFFFFFF ∧ o.arg = card.getD 2 0 ∧ o.foot = foot ∧ o.state = 0 ∧ o.runs = 0)

/-- lead and follow park until the gang is formed and trap ILLEGAL for a bad argument or a core that already takes part; once each member named follows
the leader all join at once. stat returns the mask and the attachment; join and end outside a gang go on; join of a detached member waits at its
rendezvous; end completes: a follower's takes it out of the gang, and the leader's ends the gang, whose attached followers go on at its next word, unless they lag behind it. Rules: R198, R199, R201, R202. The model's own choices in it: log entries 44, 47. -/
def Obligations.GangWords : Prop :=
  ∀ (s : State) (sw : Bool) (d a : XReg), s.NoHints →
    let w := s.who
    let k := s.core w.core
    let v := (s.ctx w).getX a
    let g := k.gang
    (s.Clear [.x a] [.x d] → s.NoTask →
        (k.ganged = false → v.toNat < 2 ^ 8 → v.getLsbD (posOf w.core) = true → exec (.gangLead sw d a) s = .next (s.parkedIn (.gangLead (v.setWidth 8) d sw)))
          ∧ (k.ganged = false → v.toNat < 8 → exec (.gangFollow sw d a) s = .next (s.parkedIn (.gangFollow (Fin.ofNat 8 v.toNat) d sw)))
          ∧ (k.ganged = true ∨ 2 ^ 8 ≤ v.toNat ∨ v.getLsbD (posOf w.core) = false →
              exec (.gangLead sw d a) s = .next (s.raise w { cause := .illegal, val := v }))
          ∧ (k.ganged = true ∨ 8 ≤ v.toNat → exec (.gangFollow sw d a) s = .next (s.raise w { cause := .illegal, val := v })))
      ∧ (s.Clear [] [.x d] → exec (.gangStat sw d) s = .next (s.afterScalar sw 1 .unit d (BitVec.ofNat 64 (if g.active then g.mask.toNat
            + (if g.attached then 2 ^ 8 else 0) + (if g.leader.val = posOf w.core then 2 ^ 9 else 0) else 0))))
      ∧ (s.Clear [.x a] [] →
          (g.active = false → exec (.gangJoin sw a) s = .next (s.afterWord sw id))
            ∧ (g.active = true → g.ctx = w.ctx → g.attached = true → exec (.gangJoin sw a) s = .next (s.afterWord sw id))
            ∧ (g.active = true → g.ctx = w.ctx → g.attached = false → exec (.gangJoin sw a) s = .next ((s.modCore w.core (fun k => { k with
                gang := { k.gang with rendezvous := some (v.setWidth 4) } })).parkedIn (.gangJoin (v.setWidth 4) sw))))
      ∧ (s.Clear [] [] → 
          (k.inGang w = false → exec (.gangEnd sw) s = .next (s.afterWord sw id))
            ∧ (k.inGang w = true → ∃ t, exec (.gangEnd sw) s = .next t ∧ (t.core w.core).gang = Gang.reset ∧ t.ctx w = (s.afterWord sw id).ctx w
                ∧ ∀ m ∈ coresOfCluster (clusterOf w.core), m ≠ w.core → (s.core m).gang.active = true → (s.core m).gang.leader = g.leader →
                    (t.core m).gang = { (s.core m).gang with mask := (s.core m).gang.mask &&& ~~~(1#8 <<< posOf w.core) }))
      ∧ (k.leads w = true → s.gangFull w = false → ∃ t, exec (.gangEnd sw) s = .next t ∧ (t.core w.core).gang = Gang.reset ∧ t.ctx w = (s.afterWord sw id).ctx w
          ∧ ∀ m ∈ s.gangMates w.core, ((s.core m).gang.attached = true → (s.core m).gang.behind = none → (t.core m).gang.stop = some (seqNext (s.ctx w).pc) ∧ (t.core m).gang.active = true)
              ∧ ((s.core m).gang.attached = false ∨ (s.core m).gang.behind ≠ none → (t.core m).gang = Gang.reset))
      ∧ ∀ mask sw, (s.ctx w).park = .gangLead mask d sw → k.isPort d = false →
          let pos : Fin 8 := Fin.ofNat 8 (posOf w.core)
          let member (c : Nat) : Prop := c ∈ coresOfCluster (clusterOf w.core) ∧ c ≠ w.core ∧ mask.getLsbD (posOf c) = true
          let joined (c : CtxNo) : Gang := { Gang.reset with active := true, mask := mask, leader := pos, ctx := c, attached := true }
          ((∃ c, member c ∧ s.followerOf c pos = none) → s.pollLead w = s)
            ∧ ((∀ c, member c → (s.followerOf c pos).isSome = true) → ((s.pollLead w).core w.core).gang = joined w.ctx
                ∧ ∀ c f, member c → s.followerOf c pos = some f → ((s.pollLead w).core c).gang = joined f.1.ctx)

/-- def parks while it reads its card and defines the lowest free record, or answers 0; dep appends a dependant and returns its count, or 0 at 32; rd
returns the field x[b] names; slope replaces S of a stopped unit's variable; sample parks with the words it captures at once where both conditions hold, or
answers all ones for a tick already passed; run starts the unit at the end of its core cycle, and stop stops it; each traps ILLEGAL as stated, and an
append that the list's protection refuses with that cause. Rules: R205, R207, R208, R209, R210, R211, R212, R348, R381. The model's own choices in it: log
entries 50, 111, 121. -/
def Obligations.CrossingWords : Prop :=
  ∀ (s t : State) (sw : Bool) (d a b : XReg), s.NoHints → s.NoTask →
    let w := s.who
    let c := s.ctx w
    let x := c.getX a
    let y := c.getX b
    let cl := clusterOf w.core
    (s.Clear [.x a, .x b] [.x d] →
        ((s.cluster cl).cxRunning = false → x.toNat % 32 = 0 → x.toNat + 32 ≤ 0x18000 → s.readOwn w x 32 = (t, none) →
            exec (.cxDef sw d a) s = .next (t.parkedIn (.cxDef x (s.cycle + 2) [] d sw)))
          ∧ ((s.cluster cl).cxRunning = true → exec (.cxDef sw d a) s = .next (s.raise w { cause := .illegal, val := wordOf (.cxDef sw d a) }))
          ∧ (∀ c' slot v, x.toNat < 2 ^ 16 → s.findVar w.core x.toNat = some (c', slot, v) → y.toNat < 2 ^ 16 → (s.findVar w.core y.toNat).isSome = true →
              (s.cluster c').cxRunning = false →
              let entry := v.deps.toNat + 2 * v.deplist.length
              (∀ attr, v.deplist.length < 32 → protCheck (s.core v.owner) false true entry 2 = .ok attr → exec (.cxDep sw d a b) s = .next (((s.writeMem (spadCell v.owner entry) (leBytes 2 y.toNat)).modVar c' slot
                  (fun v => { v with deplist := v.deplist ++ [y.toNat] })).afterScalar sw 4 .unit d (BitVec.ofNat 64 (v.deplist.length + 1))))
                ∧ (∀ e, v.deplist.length < 32 → protCheck (s.core v.owner) false true entry 2 = .error e →
                    exec (.cxDep sw d a b) s = .next (s.raise w { cause := e, val := BitVec.ofNat 64 entry }))
                ∧ (32 ≤ v.deplist.length → exec (.cxDep sw d a b) s = .next (s.afterScalar sw 4 .unit d 0)))
          ∧ (∀ slot v, s.findVar w.core (x.toNat % 2 ^ 16) = some (cl, slot, v) → y.toNat ≤ 5 →
              exec (.cxRd sw d a b) s = .next (s.afterScalar sw 4 .load d (match y.toNat with
                | 0 => v.x.setWidth 64 | 1 => BitVec.ofNat 64 v.t | 2 => v.s.setWidth 64 | 3 => v.q.setWidth 64 | 4 => BitVec.ofNat 64 v.next
                | _ => BitVec.ofNat 64 v.deplist.length)))
          ∧ (5 < y.toNat → exec (.cxRd sw d a b) s = .next (s.raise w { cause := .illegal, val := y }))
          ∧ (y.toNat % 64 = 0 → y.toNat + 2048 ≤ 0x18000 → (∀ i < 4, ∃ e, s.resolve w.core .write (y + BitVec.ofNat 64 (512 * i)) 512 = (s, .ok e)) →
              (∀ ts, s.lastTs w.core = some ts → ts ≤ x.toNat) →
              (s.sampleReady w.core x.toNat = false → exec (.cxSample sw d a b) s = .next (s.parkedIn (.cxSample x y d none sw)))
                ∧ (s.sampleReady w.core x.toNat = true → ∃ u, exec (.cxSample sw d a b) s = .next u
                    ∧ (u.ctx w).park = .cxSample x y d (some (s.cycle, (s.cluster cl).sample x.toNat)) sw ∧ u.mem = s.mem
                    ∧ (x.toNat, s.cycle + 512) ∈ ((u.die (dieOf w.core)).commitsOf (s.core w.core).lid).holds))
          ∧ (∀ ts, y.toNat % 64 = 0 → y.toNat + 2048 ≤ 0x18000 → (∀ i < 4, ∃ e, s.resolve w.core .write (y + BitVec.ofNat 64 (512 * i)) 512 = (s, .ok e)) →
              s.lastTs w.core = some ts → x.toNat < ts → exec (.cxSample sw d a b) s = .next (s.afterScalar sw 1 .unit d (BitVec.allOnes 64))))
      ∧ (s.Clear [.x a, .x b] [] →
          (∀ c' slot v, s.findVar w.core (x.toNat % 2 ^ 16) = some (c', slot, v) → y.toNat < 2 ^ 32 → y.toNat / 2 ^ 23 % 2 ^ 8 ≠ 255 →
              (s.cluster c').cxRunning = false →
              exec (.cxSlope sw a b) s = .next ((s.modVar c' slot (fun v => { v with s := y.setWidth 32 })).afterWord sw id))
            ∧ (2 ^ 32 ≤ y.toNat ∨ y.toNat / 2 ^ 23 % 2 ^ 8 = 255 → exec (.cxSlope sw a b) s = .next (s.raise w { cause := .illegal, val := y }))
            ∧ exec (.cxRun sw) s = .next ((if (s.cluster cl).cxRunning then s else s.addLate w.core .run).afterWord sw id)
            ∧ (({ s with late := [(w.core, .run)] } : State).landLate.cluster cl).cxRunning = true
            ∧ (∃ u, exec (.cxStop sw) s = .next u ∧ (u.cluster cl).cxRunning = false ∧ (∀ v ∈ (u.cluster cl).vars, v.2.due = none)
                ∧ (u.cluster cl).vars.map (·.1) = (s.cluster cl).vars.map (·.1)))
      ∧ ∀ va n got d sw ds, (s.ctx w).park = .cxDef va n got d sw → s.readCard w va 4 n got = (t, .ok ds) → ds.length = 4 → dwFault va (varCardCheck t w.core) ds = none →
          ((∀ n < 512, kget n (t.cluster cl).vars ≠ none) → s.pollCxDef w = t.completeX w d 0 sw t.cycle)
            ∧ ∀ n < 512, kget n (t.cluster cl).vars = none → (∀ m < n, kget m (t.cluster cl).vars ≠ none) → ∃ (v : CxVar) (u : State), s.pollCxDef w = u.completeX w d (BitVec.ofNat 64 (n + 1)) sw t.cycle
              ∧ kget n (u.cluster cl).vars = some v ∧ v.x = (ds.getD 0 0).setWidth 32 ∧ v.q = (ds.getD 0 0 >>> 32).setWidth 32 ∧ v.qb = v.q
              ∧ v.s = (ds.getD 1 0).setWidth 32 ∧ v.index = (ds.getD 1 0).toNat / 2 ^ 32 % 2 ^ 16 ∧ v.t = 0 ∧ v.deplist = []

/-- def parks while it reads its set card; put injects a record into the lowest free entry and answers 1, or 0 when 256 are held, and traps ILLEGAL for
a bad header; done and rej end the stage of the header the helper received, setting DONE or REJ; stat reports a stage; drain parks until its set
holds no record and then answers the number that left. Rules: R214, R216, R217, R219, R220. The model's own choices in it: log entries 48. -/
def Obligations.StageWords : Prop :=
  ∀ (s t : State) (sw : Bool) (d a b : XReg), s.NoHints → s.NoTask →
    let w := s.who
    let c := s.ctx w
    let x := c.getX a
    let k := s.cluster (clusterOf w.core)
    let n := setCardLength (s.peek (spadCell w.core (x.toNat % 2 ^ 17)) 8)
    let i : Fin 4 := Fin.ofNat 4 (x.toNat % 4)
    let g := k.sets.get i
    (s.Clear [.x a] [] →
        (x.toNat % 8 = 0 → x.toNat + 8 * n ≤ 0x18000 → s.readOwn w x (8 * n) = (t, none) → exec (.srDef sw a) s = .next (t.parkedIn (.srDef x (s.cycle + 2) [] sw)))
          ∧ (∀ r h, c.role = .stage r h false → x = h → ∃ u, exec (.srDone sw a) s = .next u ∧ (u.ctx w).role = .stage r h true ∧
              ∀ e, kget r (s.cluster (clusterOf c.origin)).records = some e → ∃ e', kget r (u.cluster (clusterOf c.origin)).records = some e' ∧
                e'.header = e.header ||| (1#64 <<< (54 + headerCur e.header)) ∧ e'.payload = e.payload)
          ∧ (∀ r h st, c.role = .stage r h false → x = h →
              ((s.cluster (clusterOf c.origin)).sets.get (headerSet h)).stages[headerCur h]? = some st → st.cls = 0 →
              ∃ u, exec (.srRej sw a) s = .next u ∧ (u.ctx w).role = .stage r h true ∧
                ∀ e, kget r (s.cluster (clusterOf c.origin)).records = some e → ∃ e', kget r (u.cluster (clusterOf c.origin)).records = some e' ∧
                  e'.header = e.header ||| (1#64 <<< 53) ∧ e'.queued = some (8, s.cycle + 2))
          ∧ ((∀ r h, c.role ≠ .stage r h false) → exec (.srDone sw a) s = .next (s.raise w { cause := .illegal, val := x })
              ∧ exec (.srRej sw a) s = .next (s.raise w { cause := .illegal, val := x })))
      ∧ (s.Clear [.x a, .x b] [.x d] →
          let h := x
          let r : Record := { header := h, payload := c.getX b, injector := w.core, draw := some s.cycle, queued := none, delivering := false }
          let set_ := k.sets.get (Fin.ofNat 4 (h.toNat / 2 ^ 62))
          (h.toNat / 2 ^ 48 % 2 ^ 14 = 0 → set_.defined = true →
              ((∀ m < 256, kget m k.records ≠ none) → exec (.srPut sw d a b) s = .next (s.afterScalar sw 4 .unit d 0))
                ∧ ∀ m < 256, kget m k.records = none → (∀ j < m, kget j k.records ≠ none) →
                  exec (.srPut sw d a b) s = .next ((s.modCluster (clusterOf w.core) (fun k => { k with records := kset m r k.records })).afterScalar sw 4 .unit d 1))
            ∧ (h.toNat / 2 ^ 48 % 2 ^ 14 ≠ 0 ∨ set_.defined = false → exec (.srPut sw d a b) s = .next (s.raise w { cause := .illegal, val := h }))
            ∧ (x.toNat < 2 ^ 5 → g.defined = true → ∀ st, g.stages[x.toNat / 4]? = some st →
                let queue := k.records.filter (fun r => decide (r.2.header.toNat / 2 ^ 62 = i.val)
                  && (match r.2.queued with | some (q, age) => decide (q = x.toNat / 4) && decide (age ≤ s.cycle + 1) | none => false))
                exec (.srStat sw d a) s = .next (s.afterScalar sw 4 .unit d (BitVec.ofNat 64 (min 65535 st.weight * 2 ^ 48 + min 65535 st.rejects * 2 ^ 32
                  + min 65535 queue.length * 2 ^ 16 + min 65535 st.passed))))
            ∧ (2 ^ 5 ≤ x.toNat ∨ g.defined = false ∨ g.stages[x.toNat / 4]? = none → exec (.srStat sw d a) s = .next (s.raise w { cause := .illegal, val := x }))
            ∧ (g.defined = true → exec (.srDrain sw d a) s = .next (s.parkedIn (.srDrain i d sw)))
            ∧ (g.defined = false → exec (.srDrain sw d a) s = .next (s.raise w { cause := .illegal, val := x })))
      ∧ ∀ j d sw, c.park = .srDrain j d sw → s.pollDrain w =
          if (k.records.filter (fun r => r.2.header.toNat / 2 ^ 62 = j.val)) = [] then s.completeX w d (BitVec.ofNat 64 (k.sets.get j).left) sw s.cycle else s

/-- board of a launch that owns the ferry parks while it reads its card, else traps PROTECTION; the pier answers 0 with no free record, or the
identifier of a new boarding, live when its lap is open and missed otherwise; cancel answers 1 and ends a live boarding, and 0 otherwise; stat
returns a boarding's fields, or 6 for an unknown one. Rules: R222, R223, R224, R225, R398. The model's own choices in it: log entries 64. -/
def Obligations.FerryWords : Prop :=
  ∀ (s t : State) (sw : Bool) (d a : XReg) (r : BoardReq), 
    let w := s.who
    let c := s.ctx w
    let x := c.getX a
    let q := dieOf w.core
    let D := s.die q
    let mine : Prop := s.ferry.running = true ∧ s.ferry.leaving = false ∧ s.ferry.owner = (s.core w.core).lid
    let ident := x.toNat % 2 ^ 16
    (s.NoHints → s.Clear [.x a] [.x d] →
        (s.NoTask → mine → x.toNat % 32 = 0 → x.toNat + 32 ≤ 0x18000 → s.readOwn w x 32 = (t, none) →
            exec (.frBoard sw d a) s = .next (t.parkedIn (.frBoard x (s.cycle + 2) [] d sw)))
          ∧ (s.NoTask → ¬mine → exec (.frBoard sw d a) s = .next (s.raise w { cause := .protection, val := x }))
          ∧ (s.NoTask → exec (.frCancel sw d a) s = .next ((s.postPier (s.cycle + 2) w.core (.cancelRequest w d ident)).parkedIn (.pier d sw)))
          ∧ (D.dock = [] → D.boarding (s.core w.core).lid ident = none → exec (.frStat sw d a) s = .next (s.afterScalar sw 6 .unit d 6))
          ∧ (∀ b, D.dock = [] → D.boarding (s.core w.core).lid ident = some b → 1 ≤ b.state → b.state ≤ 5 → exec (.frStat sw d a) s = .next (s.afterScalar sw 6 .unit d
              (BitVec.ofNat 64 (b.lap % 2 ^ 20 * 2 ^ 44 + min 255 b.misses * 2 ^ 28 + b.bad.length * 2 ^ 20 + b.landed.length * 2 ^ 12 + b.reason * 2 ^ 4 + b.state)))))
      ∧ (∀ d sw, (s.ctx r.who).park = .pier d sw →
          let D := s.die (dieOf r.who.core)
          let free (n : Nat) : Prop := ∀ b, kget n D.boardings = some b → b.live = false
          ((∀ n < 1024, ¬free n) → exec (.boardingRequest r) s = .next (s.completeX r.who d 0 sw (s.cycle + 1)))
            ∧ (∀ n l lap, s.ferry.layer r.layer = some l → n < 1024 → free n → (∀ m < n, ¬free m) → r.next = false → s.ferry.namedLap r.lap = some lap →
                ∃ (u : State) (b : Boarding), exec (.boardingRequest r) s = .next (u.completeX r.who d (BitVec.ofNat 64 (b.gen * 1024 + n)) sw (s.cycle + 1))
                  ∧ kget n (u.die (dieOf r.who.core)).boardings = some b ∧ b.live = true ∧ b.lid = r.lid ∧ b.core = r.who.core ∧ b.tiles = r.tiles
                  ∧ b.gen = (match kget n D.boardings with | some o => if o.gen = 63 then 1 else o.gen + 1 | none => 1)
                  ∧ (s.ferry.open_ l (r.chunk0 / 2) (dieOf r.who.core) lap = true → b.lap = lap ∧ b.state = 0 ∧ b.misses = 0 ∧ b.reason = 0)
                  ∧ (s.ferry.open_ l (r.chunk0 / 2) (dieOf r.who.core) lap = false → b.state = 4 ∧ b.misses = 1 ∧ b.reason = 1)))
      ∧ ∀ (v : CtxId) (e : XReg) (n : Nat) d sw, (s.ctx v).park = .pier d sw →
          let D := s.die (dieOf v.core)
          ((∀ b, D.boarding (s.core v.core).lid n = some b → b.live = false) → exec (.cancelRequest v e n) s = .next (s.completeX v e 0 sw (s.cycle + 1)))
            ∧ ∀ b, D.boarding (s.core v.core).lid n = some b → b.live = true → ∃ (u : State) (b' : Boarding),
                exec (.cancelRequest v e n) s = .next (u.completeX v e 1 sw (s.cycle + 1)) ∧ kget (n % 1024) (u.die (dieOf v.core)).boardings = some b'
                  ∧ b' = { b with live := false, state := 5, reason := 4 }

/-- tree parks while it reads its card and takes the lowest free slot of the root's die; put of the current step sends a contribution of the 128
elements with its manifest and returns the manifest, refuses another step with 0, and parks while the tile is not readable; wait parks; stat returns
a chunk's state; man returns the manifest of n elements. Rules: R227, R228, R229, R230, R231, R77, R78. The model's own choices in it: log entries
55, 56, 57. -/
def Obligations.ReductionWords : Prop :=
  ∀ (s t : State) (sw : Bool) (d a b : XReg), s.NoHints →
    let w := s.who
    let c := s.ctx w
    let x := c.getX a
    let y := c.getX b
    let lid := (s.core w.core).lid
    (s.Clear [.x a] [.x d] → s.NoTask →
        (x.toNat % 32 = 0 → x.toNat + 32 ≤ 0x18000 → s.readOwn w x 32 = (t, none) → exec (.redTree sw d a) s = .next (t.parkedIn (.redTree x (s.cycle + 2) [] d sw)))
          ∧ (∀ r, s.treeOf lid (x.toNat % 2 ^ 15) = some r → exec (.redWait sw d a) s = .next (s.parkedIn (.redWait (x.toNat % 2 ^ 15) none d sw)))
          ∧ (s.treeOf lid (x.toNat % 2 ^ 15) = none → exec (.redWait sw d a) s = .next (s.raise w { cause := .illegal, val := x })))
      ∧ (s.Clear [.x a, .x b] [.x d] →
          let object := x.toNat / 2 ^ 48 % 2 ^ 15
          (∀ r, s.NoTask → s.treeOf lid object = some r → 2 ^ 63 ≤ x.toNat → x.toNat / 2 ^ 20 % 2 ^ 28 < r.nchunk → y.toNat % 512 = 0 → y.toNat + 512 ≤ 0x18000 →
              (x.toNat % 2 ^ 20 ≠ r.step % 2 ^ 20 → exec (.redPut sw d a b) s = .next (s.afterScalar sw 12 .unit d 0))
                ∧ (x.toNat % 2 ^ 20 = r.step % 2 ^ 20 → s.tileReadable w.core y.toNat = true → s.readOwn w y 512 true = (t, none) → ∃ (u : State) (k : Contribution),
                    exec (.redPut sw d a b) s = .next (u.afterScalar sw 12 .unit d (manifestField 5 k.manifest))
                      ∧ u = ((t.moves w.core).post (s.cycle + 13 + Config.contention t.free) (.contributionArrival w.core 0 k)).drew ∧ k.count = 1
                      ∧ k.die = object / 1024 ∧ k.slot = object % 1024 ∧ k.chunk = x.toNat / 2 ^ 20 % 2 ^ 28 ∧ k.step = x.toNat % 2 ^ 20
                      ∧ k.accs = (List.range 128).map (fun i => (accOf (leValue (Memory.readBytes t.mem (spadCell w.core (y.toNat + 4 * i)) 4))).1) ∧ k.good = true)
                ∧ (∀ acc, x.toNat % 2 ^ 20 = r.step % 2 ^ 20 → s.tileReadable w.core y.toNat = false → s.resolve w.core .read y 512 = (t, .ok acc) →
                    exec (.redPut sw d a b) s = .next (t.parkedIn (.redPut x y d sw))))
            ∧ (∀ r, s.treeOf lid (x.toNat % 2 ^ 15) = some r → groupOf w.core = groupOf r.root →
                let n := y.toNat % 2 ^ 16
                let k := (kget n (if r.fresh then r.chunks else r.last)).getD TreeChunk.start
                (n < r.nchunk → exec (.redStat sw d a b) s = .next (s.drew.afterScalar sw (if w.core = r.root then 1 else if clusterOf w.core = clusterOf r.root then 3 else 5) .unit d
                    (BitVec.ofNat 64 ((if k.state = 2 then k.hop.toNat * 2 ^ 32 else 0) + k.merged * 4 + k.state))))
                  ∧ (r.nchunk ≤ n → exec (.redStat sw d a b) s = .next (s.raise w { cause := .illegal, val := y })))
            ∧ (let kind := y.toNat / 2 ^ 61
               let n := y.toNat % 2 ^ 12
               let sz : Size := if kind = 1 then .b else if kind = 2 then .h else if kind = 4 then .d else .w
               ∀ es v acc, y.toNat / 2 ^ 12 % 2 ^ 49 = 0 → 1 ≤ kind → kind ≤ 5 → 1 ≤ n → n ≤ 2048 → x.toNat % sz.bytes = 0 → s.readElements w x sz n = (t, .ok es) →
                t.resolve w.core .read x sz.bytes = (v, .ok acc) → (acc.beyond = true → (v.core w.core).beyond < (v.core w.core).wn) → v.portServes w.core acc = true →
                exec (.redMan sw d a b) s = .next ((v.served w.core acc).afterScalar sw (4 + (n + 15) / 16) .load d
                  (manifestField kind (manifestSum (es.reverse.map (fun v => if kind = 5 then accImage (accOf v).1 else v)) 0)))))
      ∧ ∀ ds, ds.length = 4 → 
          let root := (ds.getD 0 0).toNat % 2 ^ 18
          let D := s.die (dieOf root)
          ((∀ n < 1024, 1 ≤ n → kget n D.trees ≠ none) → s.enterTree lid ds = (s, 0))
            ∧ ∀ n < 1024, 1 ≤ n → kget n D.trees = none → (∀ m < n, 1 ≤ m → kget m D.trees ≠ none) → ∃ (u : State) (r : Tree),
                s.enterTree lid ds = (u, dieOf root * 1024 + n) ∧ kget n (u.die (dieOf root)).trees = some r ∧ r.root = root ∧ r.lid = lid ∧ r.step = 0
                  ∧ r.count = (ds.getD 0 0).toNat / 2 ^ 24 % 2 ^ 19 ∧ r.nchunk = (ds.getD 1 0).toNat % 2 ^ 16 ∧ r.dst = (ds.getD 2 0).toNat % 2 ^ 48 ∧ r.chunks = []

/-- gets writes the register's fields as laid out (01 R22, R32; 06 R141, R147, R148, R151; 07 R168; 14 R292; 22 R405) to x[d] at once; sets changes
exactly the writable fields, ignores read-only ones, clears write-one-to-clear bits, ignores refused PROT values, and writes BARRECT, WBARTAG, SRSEED, FRSPEED, CXTICK, CXSTORM and LOST at the end of the cycle; a tenant's set of FRSPEED traps
PRIVILEGE. A written SEED of 0 loads 1. A write of FRSPEED behind another one keeps that one's DIV where its own is ignored. Rules: R22, R32, R141, R147,
R148, R168, R213, R221, R233, R234, R359, R397. The model's own choices in it: log entries 61, 62, 66, 67, 103, 110. -/
def Obligations.StateRegisterWords : Prop :=
  ∀ (s : State) (sw : Bool) (d : XReg) (sn : SReg), s.NoHints →
    let w := s.who
    let c := s.ctx w
    let k := s.core w.core
    let b := k.bar
    let cl := s.cluster (clusterOf w.core)
    let D := s.die (dieOf w.core)
    let one (p : Bool) (n : Nat) : Nat := if p then 2 ^ n else 0
    let v : Word := match sn with
      | .pc => c.pc
      | .ctxstat => BitVec.ofNat 64 (w.core * 2 ^ 46 + w.ctx.val * 2 ^ 42 + one (k.mode = .monitor) 41 + c.src.toNat * 2 ^ 36 + one c.flags.nv 12
          + one c.flags.dz 11 + one c.flags.ofl 10 + one c.flags.ufl 9 + one c.flags.nx 8 + one c.intrap 3 + one c.parked 2 + one c.whtrap 1 + one c.winhaz 0)
      | .trapcause => BitVec.ofNat 64 (one c.trapHints 8 + c.trapCause.toNat)
      | .trappc => c.trapPc
      | .trapval => c.trapVal
      | .trapvec => c.trapVec
      | .barrect => b.rect.setWidth 64
      | .barphase => BitVec.ofNat 64 (b.wph.toNat * 2 ^ 32 + b.phase.toNat * 2 ^ 16 + b.reg % 16 * 2 ^ 12 + b.arr % 16 * 2 ^ 8 + one b.mis 1 + one b.wd 0)
      | .wbartag => b.member.setWidth 64
      | .qmap => BitVec.ofNat 64 (((List.finRange 8).filter (fun p => (k.ports.get p).bound)).foldl (fun n p => n + 2 ^ p.val) 0)
      | .spillbase => BitVec.ofNat 64 (k.spillUsed * 2 ^ 32 + k.spillBase)
      | .spillovf => k.spillOvf
      | .rowprog =>
        let unhanded := k.slice.buffers.filter (fun b => decide (b.job = k.slice.jobId) && b.held && !b.handler && b.due.isNone && !b.paged)
        BitVec.ofNat 64 (k.slice.jobId.toNat * 2 ^ 32 + k.slice.drained % 16 * 2 ^ 8 + (k.slice.rows - unhanded.length) % 16 * 2 ^ 4 + k.slice.state % 4)
      | .slewstat =>
        let filled := match k.slice.stopReq with | some r => s.cycle - 1 - r | none => k.slice.fillCyc
        BitVec.ofNat 64 (min 65535 k.slice.startWait * 2 ^ 32 + min 255 filled * 2 ^ 24 + (s.group (groupOf w.core)).level % 2 ^ 7 * 2 ^ 9 + k.slice.slewState)
      | .vfstat =>
        let n := (s.core (if dieOf w.core % 2 = 1 then w.core - 8192 else w.core)).vfifo.length
        BitVec.ofNat 64 (n * 2 ^ 4 + (8 - n))
      | .prot n => k.prot.get n
      | .cxtick => cl.cxTick.setWidth 64
      | .cxstorm => BitVec.ofNat 64 (cl.stormW.toNat * 2 ^ 16 + cl.stormS.toNat)
      | .srseed => cl.lfsr.setWidth 64
      | .frspeed => BitVec.ofNat 64 (s.ferry.cur * 2 ^ 32 + s.ferry.thresh % 2 ^ 16 * 2 ^ 16 + one s.ferry.auto 8 + s.ferry.div)
      | .frlap => BitVec.ofNat 64 (one s.ferry.running 63 + (s.ferry.stepNo - s.ferry.lapStart) % 2 ^ 32 * 2 ^ 20 + s.ferry.lap % 2 ^ 20)
      | .wsref => BitVec.ofNat 64 (wsref s.cycle (Config.freeWord s.free).toNat)
      | .actfc => BitVec.ofNat 64 (D.actPend % 2 ^ 8 * 2 ^ 48 + D.actActive % 2 ^ 14 * 2 ^ 32 + D.actMatrix % 2 ^ 14 * 2 ^ 16 + (s.cycle - D.actAt) % 2 ^ 11)
      | .launchstat => BitVec.ofNat 64 (one D.lost 43 + D.lastLid % 2 ^ 21 * 2 ^ 22 + D.lastCause % 2 ^ 6 * 2 ^ 16 + D.store.length % 2 ^ 8)
    let x := c.getX d
    let word (f : Ctx → Ctx) : State := s.modCtx w f
    let wrote : State := match sn with
      | .ctxstat => word (fun c => { c with
          intrap := x.getLsbD 3, whtrap := x.getLsbD 1, winhaz := c.winhaz && !x.getLsbD 0
          flags := { nv := c.flags.nv && !x.getLsbD 12, dz := c.flags.dz && !x.getLsbD 11, ofl := c.flags.ofl && !x.getLsbD 10
                     ufl := c.flags.ufl && !x.getLsbD 9, nx := c.flags.nx && !x.getLsbD 8 } })
      | .trappc => word (fun c => { c with trapPc := x &&& 0xFFFFFFFFFFFC })
      | .trapval => word (fun c => { c with trapVal := x })
      | .trapvec => word (fun c => { c with trapVec := x &&& 0xFFFFFFFFFFFC })
      | .barrect | .wbartag | .srseed | .frspeed | .launchstat => s.addLate w.core (.write sn x)
      | .barphase => s.modBar w.core (fun b => { b with mis := b.mis && !x.getLsbD 1, wd := b.wd && !x.getLsbD 0 })
      | .spillovf => s.modCore w.core (fun k => if k.ovfUsed = [] then { k with spillOvf := x &&& 0xFFFFFFFFFFFFF000 } else k)
      | .prot n =>
        let stops := x.toNat / 2 ^ 16 % 2 ^ 8
        if 2 ^ 63 ≤ x.toNat ∧ (stops ≤ x.toNat % 2 ^ 8 ∨ 192 < stops) then s
        else s.modCore w.core (fun k => { k with prot := k.prot.set n.val (x &&& 0xFFF0000000FF00FF) n.isLt })
      | .cxtick | .cxstorm => if cl.cxRunning then s else s.addLate w.core (.write sn x)
      | .pc | .trapcause | .qmap | .spillbase | .rowprog | .slewstat | .vfstat | .frlap | .wsref | .actfc => s
    (s.Clear [] [.x d] → exec (.sysGets sw d sn) s = .next ((if sn = .wsref then s.drew else s).afterWord sw (fun c => c.setX d v)))
      ∧ (s.Clear [.x d] [] → s.NoTask →
          (sn ≠ .frspeed ∨ k.mode = .monitor → exec (.sysSets sw d sn) s = .next (wrote.afterWord sw id))
            ∧ (sn = .frspeed → k.mode = .tenant → exec (.sysSets sw d sn) s = .next (s.raise w { cause := .privilege, val := 0x80 })))
      ∧ (∀ v : Word,
          let lands (sn : SReg) : State := ({ s with late := [(w.core, .write sn v)] } : State).landLate
          let t : State := { s with late := [] }
          lands .cxtick = t.modCluster (clusterOf w.core) (fun k => { k with cxTick := v.setWidth 6 })
            ∧ lands .cxstorm = t.modCluster (clusterOf w.core) (fun k => { k with stormS := v.setWidth 16, stormW := (v >>> 16).setWidth 6 })
            ∧ lands .launchstat = t.modDie (dieOf w.core) (fun d => { d with lost := d.lost && !v.getLsbD 43 })
            ∧ exec (.barrectWrite w.core v) t = .next (lands .barrect) ∧ exec (.wbartagWrite w.core v) t = .next (lands .wbartag)
            ∧ exec (.srseedWrite (clusterOf w.core) v) t = .next (lands .srseed) ∧ exec (.frspeedWrite v) t = .next (lands .frspeed))
      ∧ (∀ cl v, exec (.srseedWrite cl v) s = .next (s.modCluster cl (fun k => { k with lfsr := if v.toNat % 2 ^ 32 = 0 then 1 else v.setWidth 32 })))
      ∧ ∀ v : Word,
          (s.ferry.speedWrite = none ∨ (1 ≤ v.toNat % 2 ^ 5 ∧ v.toNat % 2 ^ 5 ≤ 16) →
              exec (.frspeedWrite v) s = .next { s with ferry := { s.ferry with speedWrite := some v } })
            ∧ ∀ u : Word, s.ferry.speedWrite = some u → ¬(1 ≤ v.toNat % 2 ^ 5 ∧ v.toNat % 2 ^ 5 ≤ 16) →
              exec (.frspeedWrite v) s = .next { s with ferry := { s.ferry with speedWrite := some ((v &&& ~~~0x1F#64) ||| (u &&& 0x1F#64)) } }

/-- brk traps BREAK with TRAPVAL x[a] and TRAPPC the next word; ret goes to TRAPPC with INTRAP cleared, or traps, and waits for outstanding results;
mret leaves monitor mode; gate parks for a count within its bound and traps ILLEGAL beyond it; invp and inva park until the drop is done and no access
to what they drop is on its way, after which no lookaside holds an entry that it did not hold before; mret, invp and inva trap PRIVILEGE in tenant mode. Rules: R232, R237, R239, R240,
R241, R242. The model's own choices in it: log entries 68, 69. -/
def Obligations.SystemWords : Prop :=
  ∀ (s t : State) (sw : Bool) (d a b : XReg), s.NoHints →
    let w := s.who
    let c := s.ctx w
    let k := s.core w.core
    let x := c.getX a
    let y := c.getX b
    let privilege (i : Instr) : Prop := k.mode = .tenant → exec i s = .next (s.raise w { cause := .privilege, val := wordOf i })
    (s.Clear [.x a] [] → exec (.sysBrk sw a) s = .next ((s.modCtx w (fun c => { c with pc := seqNext c.pc })).raise w { cause := .brk, val := x }))
      ∧ (s.Clear [] [] →
          let target := if c.trapPc.toNat % 128 = 0 then c.trapPc + 4 else c.trapPc
          let u := s.modCtx w (fun c => { c with pc := target, newLine := false, intrap := false, park := .none, readyAt := s.cycle + 1 })
          (c.outstanding = [] → u.checkTarget w.core target false = (t, none) → exec (.sysRet sw) s = .next t)
            ∧ (∀ e, c.outstanding = [] → u.checkTarget w.core target false = (t, some e) →
                exec (.sysRet sw) s = .next ((t.modCtx w (fun d => { d with pc := c.trapPc })).raise w { e with val := c.trapPc }))
            ∧ (c.outstanding ≠ [] → exec (.sysRet sw) s = .next (s.parkedIn .ret))
            ∧ (s.Monitor → exec (.sysMret sw) s = .next ((s.modCore w.core (fun k => { k with mode := .tenant, halted := false })).afterWord sw id))
            ∧ privilege (.sysMret sw))
      ∧ (s.Clear [.x a] [.x d] →
          let most := if dieOf w.core % 2 = 1 then 8 else 0
          (x.toNat ≤ most → exec (.sysGate sw d a) s = .next (s.parkedIn (.gate x.toNat k.messages d sw)))
            ∧ (most < x.toNat → exec (.sysGate sw d a) s = .next (s.raise w { cause := .illegal, val := x })))
      ∧ (s.Clear [.x a, .x b] [] → s.Monitor →
          let due := s.cycle + 176 + Config.contention s.free
          (x.toNat < 2 ^ 48 → y.toNat < 2 ^ 16 → exec (.sysInvp sw a b) s = .next (s.drew.parkedIn (.invalidating y.toNat (some (x.toNat / 4096)) due sw)))
            ∧ (2 ^ 48 ≤ x.toNat → exec (.sysInvp sw a b) s = .next (s.raise w { cause := .illegal, val := x }))
            ∧ (x.toNat < 2 ^ 48 → 2 ^ 16 ≤ y.toNat → exec (.sysInvp sw a b) s = .next (s.raise w { cause := .illegal, val := y }))
            ∧ (y.toNat < 2 ^ 16 → exec (.sysInva sw b) s = .next (s.drew.parkedIn (.invalidating y.toNat none due sw)))
            ∧ (2 ^ 16 ≤ y.toNat → exec (.sysInva sw b) s = .next (s.raise w { cause := .illegal, val := y })))
      ∧ (s.Clear [.x a, .x b] [] → privilege (.sysInvp sw a b) ∧ privilege (.sysInva sw b))
      ∧ ∀ tenant page sw, c.park = .invalidating tenant page s.cycle sw → c.unacked = 0 → s.pageBusy tenant page = false → ∃ u : State, s.pollInvalidate w = u.finishPark w sw s.cycle
          ∧ u.cores = s.cores ∧ u.mem = s.mem ∧ ∀ n, ∀ e ∈ (u.die n).ranges ++ (u.die n).pages, e ∈ (s.die n).ranges ++ (s.die n).pages
              ∧ ¬(e.tenant = tenant ∧ ∀ p, page = some p → e.base ≤ p * 4096 ∧ p * 4096 < e.limit)

/-- A result writes its register, raises its flags and ends its outstanding entry, freeing a context parked on its last one; an acknowledgement lowers
the counts and adapts the window; a watch whose condition holds completes; a poisoned acknowledgement traps POISON; an outcome writes x[d]; entries
and credits reach a paired port only. A waiting or resent lock request is granted exactly when the lock word allows it. Rules: R18, R20, R120, R122,
R129, R133, R137, R301. The model's own choices in it: log entries 16, 36, 102. -/
def Obligations.AccessAndLockEvents : Prop :=
  (
      ∀ (s t : State) (w : CtxId) (r : Result) (mark : Bool) (key : Nat) (va : Word),
        let c := s.ctx w
        let k := s.core w.core
        (c.live = true → r.beyond = false → (∀ o ∈ c.outstanding, o.stale = false) →
            (c.park = .none → ∃ u, exec (.resultWrite w r) s = .next u ∧ u.mem = s.mem ∧ (u.ctx w).flags = c.flags.union r.flags
                ∧ (u.ctx w).outstanding = dropOut r.dest c.outstanding ∧ (u.ctx w).pc = c.pc
                ∧ (∀ d : XReg, d ≠ 0 → r.dest = .x d → (u.ctx w).getX d = (r.value &&& ~~~r.keep).setWidth 64 ||| (c.getX d &&& r.keep.setWidth 64))
                ∧ (∀ v : VReg, r.dest = .v v → (u.ctx w).getV v = (r.value &&& ~~~r.keep) ||| (c.getV v &&& r.keep))
                ∧ (∀ d : XReg, r.dest ≠ .x d → (u.ctx w).getX d = c.getX d) ∧ (∀ v : VReg, r.dest ≠ .v v → (u.ctx w).getV v = c.getV v))
              ∧ (∀ o, c.park = .marker → c.outstanding = [o] → o.dest = r.dest → ∃ u, exec (.resultWrite w r) s = .next u
                  ∧ (u.ctx w).park = .none ∧ (u.ctx w).readyAt = max c.readyAt s.cycle ∧ (u.ctx w).outstanding = []))
          ∧ (∀ i, s.issuing i = some w → s.arrivalsClear w.core = true →
              exec (.storeAcknowledge i false mark) s = .next (s.modCtx w (fun c => { c with
                  unacked := c.unacked - 1, arriveDebt := if i.epoch < c.epoch then c.arriveDebt - 1 else c.arriveDebt }))
                ∧ ∃ u, exec (.storeAcknowledge i true mark) s = .next u ∧ (u.core w.core).beyond = k.beyond - 1 ∧ (u.ctx w).unacked = c.unacked - 1
                  ∧ (u.core w.core).wn = if mark = true ∧ k.wn ≤ k.sinceHalving then max 1 (k.wn / 2)
                    else if mark = false ∧ k.run + 1 = k.wn then min 64 (k.wn + 1) else k.wn)
          ∧ (∀ a v p key' sz sext cond y d sw ready, s.cores.map (·.1) = [w.core] → k.swapped = [] → (∀ n : CtxNo, n ≠ w.ctx → (k.ctxs.get n).live = false) → c.live = true →
              c.park = .watch va key' sz sext cond y d sw → va.toNat < 0x2000000 → key' / 64 = key / 64 → s.readScalar w va sz sext = (t, .ok (a, v, p)) →
              (condHolds cond v y = true → exec (.watchReevaluate { addr := key, ready := ready }) s = .next (t.completeX w d v sw (ready + (if a.beyond then a.lat / 2 else a.lat) - 1)))
                ∧ (condHolds cond v y = false → exec (.watchReevaluate { addr := key, ready := ready }) s = .next t))
          ∧ (∀ i, s.placeOf i = some (.slot w) → c.live = true → c.park = .none → c.poisonAcks = [] →
              exec (.postedPoisonTrap i va) s = .next ((s.modCtx w (fun c => { c with poisonAcks := [] })).raise w { cause := .poison, val := va }))
          ∧ (∀ (i : Issuer) (d : XReg) (n : Nat), d ≠ 0 → k.isPort d = false → s.placeOf i = some (.slot w) → c.live = true → c.park = .none →
              (∀ o ∈ c.outstanding, o.stale = false) → ∃ u, exec (.sendOutcome i d n) s = .next u
              ∧ (u.ctx w).getX d = BitVec.ofNat 64 n ∧ (u.ctx w).outstanding = dropOut (.x d) c.outstanding ∧ (∀ e : XReg, e ≠ d → (u.ctx w).getX e = c.getX e))
          ∧ ∀ (core : Nat) (p : Fin 8) (v : Word),
              let q := (s.core core).ports.get p
              (∃ u, exec (.queueEntryArrival core p v) s = .next u ∧ (u.core core).ports.get p = if q.paired then { q with fifo := q.fifo ++ [v] } else q)
                ∧ ∃ u, exec (.creditReturn core p) s = .next u ∧ (u.core core).ports.get p = if q.paired then { q with credits := q.credits + 1 } else q)
    ∧ (
      ∀ (s : State) (r : LockReq), s.MemOk → r.format ≠ 9 → r.format ≠ 10 →
        let x := s.peek r.addr 8
        let held := x / 2 ^ 62 % 2 = 1
        let granted : Prop := match r.op with
          | .racq => ¬held ∧ ¬(x / 2 ^ 63 % 2 = 1 ∧ 0 < x / 2 ^ 40 % 2 ^ 22)
          | .wacq => ¬held ∧ x % 2 ^ 32 = 0
          | .rrel => 0 < x % 2 ^ 32
          | .wrel => held
        let y := match r.op with
          | .racq => x + 1 | .wacq => x + 2 ^ 62 - (if r.counted then 2 ^ 40 else 0) | .rrel => x - 1 | .wrel => x - 2 ^ 62
        let waiting := (s.die r.home).locks
        let full := 16 ≤ (waiting.filter (fun q => q.sameRouter r)).length
        let grants (i : Instr) (P : State → Prop) : Prop := ∀ d b sw, (s.ctx r.who).park = .lock d none b sw → ∃ u, exec i s = .next u ∧ u.peek r.addr 8 = y % 2 ^ 64
          ∧ (u.ctx r.who).park = .lock d (some (s.cycle + r.reply + 1)) b sw ∧ (∀ n, n < r.addr ∨ r.addr + 8 ≤ n → Memory.read u.mem n = Memory.read s.mem n) ∧ P u
        (granted → grants (.lockResend r) (fun _ => True))
          ∧ (¬granted → r.op ≠ .wacq ∨ r.counted = true →
              (full → exec (.lockResend r) s = .next (s.post (s.cycle + r.reply + 64) (.lockResend r)))
                ∧ (¬full → exec (.lockResend r) s = .next (s.modDie r.home (fun d => { d with locks := d.locks ++ [r] }))))
          ∧ (s.dies.flatMap (fun d => d.2.locks.filter (fun q => q.addr / 8 = r.addr / 8)) = [r] →
              (granted → grants (.lockReevaluate r.addr) (fun u => ∀ q ∈ (u.die r.home).locks, q ∈ waiting ∧ q.who ≠ r.who))
                ∧ (¬granted → r.op ≠ .wacq ∨ r.counted = true ∨ r.noWait = true → exec (.lockReevaluate r.addr) s = .next s)))

/-- Eight arrivals consume the gang barrier, once the queue has answered the operation before; a job starts in the idle engine, an operation with a start
request of each slice, and ends with STATE 2 and its pulse, or 3 with cause and address; the end
of a row puts it in a free buffer and the drain path writes it; a crossbar cycle counts pulses up to 65,535 and evaluates fires and terms; a limiter
step grants a lone request. Rules: R153, R160, R161, R163, R165, R166, R169, R172, R29, R263, R405. The model's own choices in it: log entries 30, 33. -/
def Obligations.EngineEvents : Prop :=
  ∀ (s t : State) (cl : Nat),
    let k := s.cluster cl
    let ends (i : Instr) (slot : Fin 32) (state cause va : Nat) (pulse : Bool) (P : State → Prop) : Prop := ∃ u, exec i s = .next u
      ∧ ((u.cluster cl).jobs.get slot).taken = false ∧ ((u.cluster cl).jobs.get slot).state = state ∧ ((u.cluster cl).jobs.get slot).cause = cause
      ∧ ((u.cluster cl).jobs.get slot).va = va ∧ ((u.cluster cl).jobs.get slot).gen = (k.jobs.get slot).gen
      ∧ (u.cluster cl).pulses = k.pulses ||| (match (k.jobs.get slot).job with
          | some (.matrix op) => if pulse && op.tagen then 1#16 <<< op.tag else 0
          | some (.copy j) => if pulse && j.tagen then 1#16 <<< j.tag else 0
          | none => 0) ∧ P u
    (k.gangOffer = none → k.gangArrivals = BitVec.allOnes 8 → ∃ u, exec (.gangBarrierConsume cl) s = .next u ∧ (u.cluster cl).gangArrivals = 0
        ∧ (u.cluster cl).gangOffer = k.gangOp.map (fun op => (s.cycle, op)) ∧ (u.cluster cl).gangOp = none
        ∧ ∀ w : CtxId, clusterOf w.core = cl → ∀ d b sw, (s.ctx w).park = .mxGang d b sw → (u.ctx w).park = .mxGang d true sw)
      ∧ (k.gangOffer = none → k.gangArrivals ≠ BitVec.allOnes 8 → exec (.gangBarrierConsume cl) s = .next s)
      ∧ (k.gangOffer ≠ none → exec (.gangBarrierConsume cl) s = .next (s.post (s.cycle + 1) (.gangBarrierConsume cl)))
      ∧ (∀ slot op, k.running = none → s.nextJob cl true = some (slot, .matrix op) →
          let at_ := if (k.jobs.get slot).accepted = s.cycle ∧ k.gangReady = true then s.cycle - 1 else s.cycle
          ∃ v : State, exec (.jobStart cl .matrix) s = .next (v.raiseStarts cl op at_) ∧ (v.cluster cl).running = some slot.val
            ∧ ((v.cluster cl).jobs.get slot).state = 1 ∧ v.mem = s.mem
            ∧ ∀ c ∈ coresOfCluster cl, (v.core c).slice.jobId = (k.jobs.get slot).ident slot.val ∧ (v.core c).slice.rows = 0
              ∧ (v.core c).slice.drained = 0 ∧ (v.core c).slice.state = 1)
      ∧ (∀ (op : MatrixOp) v fa fb at_, s.attrAt (coreOfCluster cl 0) op.abase = (t, .ok fa) → t.attrAt (coreOfCluster cl 0) op.bbase = (v, .ok fb) →
          (∀ time, op.mode fa fb = .ok time → ((s.raiseStarts cl op at_).cluster cl).rowTime = time
              ∧ ∀ c ∈ coresOfCluster cl, ((s.raiseStarts cl op at_).core c).slice.startReq = some at_)
            ∧ (∀ e, op.mode fa fb = .error e → exec (.operationFailure cl .matrix e (BitVec.ofNat 64 op.bbase)) v = .next (s.raiseStarts cl op at_)))
      ∧ (∀ slot j, k.copyRunning = some (slot, j) → ∀ cause va,
          ends (.operationFailure cl .copy cause va) slot 3 (causeCode cause) (va.toNat % 2 ^ 48) false (fun u => (u.cluster cl).copying = none))
      ∧ (∀ slot j, k.copying = none → s.nextJob cl false = some (slot, .copy j) → ∃ u due, exec (.jobStart cl .copy) s = .next u
          ∧ (u.cluster cl).copying = some slot.val ∧ ((u.cluster cl).jobs.get slot).state = 1 ∧ (due, Instr.copyJobComplete cl) ∈ u.agenda
          ∧ s.cycle + (j.len - (k.jobs.get slot).done + 63) / 64 ≤ due)
      ∧ (∀ slot op, k.matrixRunning = some (slot, op) →
          ends (.matrixOperationComplete cl) slot 2 0 0 true (fun u => (u.cluster cl).running = none)
            ∧ ∀ cause va, ends (.operationFailure cl .matrix cause va) slot 3 (causeCode cause) (va.toNat % 2 ^ 48) false (fun u => (u.cluster cl).running = none))
      ∧ (∀ slot j done u', k.copyRunning = some (slot, j) → s.copyPieces cl j j.len (j.len / 64 + 1) (k.jobs.get slot).done = (u', done, none) → u'.cluster cl = k →
          ends (.copyJobComplete cl) slot 2 0 0 true (fun u => (u.cluster cl).copying = none ∧ u.mem = u'.mem))
      ∧ (∀ (p : Fin 8) slot op vals e,
          let core := coreOfCluster cl p.val
          let sl := (s.core core).slice
          sl.rowEnd = some e → e < s.cycle → k.matrixRunning = some (slot, op) → (sl.buffers.filter (·.held)).length < 2 → clusterOf core = cl → posOf core = p.val →
          s.computeRow core op (8 * p.val + sl.rows) = (t, .ok vals) → t.cores = s.cores → ∃ (u : State) (row : DrainRow), exec (.rowEnd cl p) s = .next u
            ∧ (u.core core).slice.rows = sl.rows + 1 ∧ (u.core core).slice.buffers = sl.buffers ++ [row] ∧ row.row = 8 * p.val + sl.rows ∧ row.vals = vals
            ∧ row.addr = op.cbase + (8 * p.val + sl.rows) * op.cstride ∧ row.held = true ∧ (op.drain = true ↔ row.due = none))
      ∧ (∀ (p : Fin 8) b,
          let core := coreOfCluster cl p.val
          (s.core core).slice.dueRow s.cycle = some b → s.engineWrite core b.addr (rowOut b.outf b.vals) = (t, none) → ∃ u, exec (.drainPathWrite cl p) s = .next u
            ∧ u.mem = t.mem)
      ∧ (∃ u, exec (.crossbarCycle cl) s = .next u ∧ (u.cluster cl).pulses = 0
          ∧ (∀ i : Fin 16, let x := k.counters.get i
              (u.cluster cl).counters.get i = { x with
                count := min 65535 (x.count + ((List.range 16).filter (fun n => (x.src &&& k.pulses).getLsbD n)).length)
                fired := decide (x.thresh ≤ min 65535 (x.count + ((List.range 16).filter (fun n => (x.src &&& k.pulses).getLsbD n)).length)) })
          ∧ (∀ n : Fin 16, (u.cluster cl).termTrue.getLsbD n.val = true ↔ k.terms.get n ≠ 0 ∧ ∀ i : Fin 16, (k.terms.get n).getLsbD i.val = true → (k.counters.get i).fired = true)
          ∧ (u.cluster cl).terms = k.terms ∧ (u.cluster cl).jobs = k.jobs)
      ∧ (∀ g, (∀ c ∈ coresOfGroup g, (s.core c).slice.startReq = none ∧ (s.core c).slice.stopReq = none) → ∃ u, exec (.limiterStep g) s = .next u ∧ (u.group g).level = (s.group g).level
          ∧ u.mem = s.mem ∧ u.agenda = s.agenda)
      ∧ (∀ g c r, c ∈ coresOfGroup g → (s.core c).slice.startReq = some r → r < s.cycle → (s.core c).down = false →
              (∀ c' ∈ coresOfGroup g, (s.core c').slice.stopReq = none ∧ (c' ≠ c → (s.core c').slice.startReq = none)) → ∃ u, exec (.limiterStep g) s = .next u
                ∧ (u.group g).level = (s.group g).level + 1 ∧ (u.core c).slice.state = 2 ∧ (u.core c).slice.startReq = none
                ∧ (∀ slot op, (s.cluster (clusterOf c)).matrixRunning = some (slot, op) →
                    let stall := ((op.abase + (8 * posOf c + (s.core c).slice.rows) * op.astride) :: (List.range 64).map (fun j => op.bbase + j * op.bstride)).foldl
                      (fun n a => match s.storeCell c a with | some key => max n (refreshStall key s.cycle) | none => n) 0
                    (u.core c).slice.rowEnd = some (s.cycle + ((s.cluster (clusterOf c)).rowTime + stall) - 1)))

/-- The selector takes the first pending start into the lowest free slot with its entry, arguments and source; the dispatcher starts a waiting task; a
resume is restored and a victim swapped out in 32 cycles; a steal attempt goes to the next victim or backs off; a migrant's arrival is noted; a
forwarded word is queued; a fetched line is held. Rules: R177, R266, R267, R268, R270, R271, R272, R273, R200, R12. The model's own choices in it:
log entries 41, 43, 45, 54. -/
def Obligations.StartEvents : Prop :=
  ∀ (s t : State) (core : Nat),
    let k := s.core core
    let at_ (n : CtxNo) : CtxId := { core := core, ctx := n }
    let taken := firstPending ((s.pending core).filter (fun p => (s.slotFor core p.2).isSome))
    let starts (i : Instr) (n : CtxNo) (entry a b : Word) (src : BitVec 4) (role : Role) (from_ : Nat) (P : State → Prop) : Prop :=
      s.checkTarget core entry true = (t, none) → ∃ u, exec i s = .next u ∧ (u.ctx (at_ n)).live = true ∧ (u.ctx (at_ n)).pc = entry
        ∧ (u.ctx (at_ n)).getX 10 = a ∧ (u.ctx (at_ n)).getX 11 = b ∧ (u.ctx (at_ n)).src = src ∧ (u.ctx (at_ n)).role = role ∧ (u.ctx (at_ n)).readyAt = from_ ∧ P u
    (taken = none → exec (.startSelector core) s = .next s)
      ∧ (∀ n e, taken = some .deque → s.freeSlot core = some n → k.deque.getLast? = some e →
          starts (.startSelector core) n e.entry e.arg0 e.arg1 2 .plain (s.cycle + 1) (fun u => (u.core core).deque = k.deque.dropLast))
      ∧ (∀ n (i : Fin 16) age entry arg rest, taken = some (.tile i) → s.freeSlot core = some n → (k.tileReady.get i).fired = (age, entry, arg) :: rest →
          starts (.startSelector core) n entry arg (BitVec.ofNat 64 i.val) 4 .plain (s.cycle + 1) (fun u => ((u.core core).tileReady.get i).fired = rest))
      ∧ (∀ n key o, (s.cores.map (·.1)).filter (fun c => dieOf c = dieOf core) = [core] → taken = some (.task key) → s.freeSlot core = some n →
          kget key (s.die (dieOf core)).tasks = some o → o.crossing = none →
          starts (.taskDispatch (dieOf core)) n o.entry o.arg (BitVec.ofNat 64 (o.gen * 512 + key % 512)) 6 (.task key) (s.cycle + 4) (fun u =>
            (u.ctx (at_ n)).getX 12 = BitVec.ofNat 64 o.ts ∧ (u.ctx (at_ n)).getX 13 = BitVec.ofNat 64 o.key
              ∧ ∃ o', kget key (u.die (dieOf core)).tasks = some o' ∧ o'.state = 1 ∧ o'.runs = min 255 (o.runs + 1) ∧ o'.running = some (at_ n) ∧ o'.home = core))
      ∧ (∀ die, (s.cores.map (·.1)).filter (fun c => dieOf c = die) = [] → exec (.taskDispatch die) s = .next s)
      ∧ (∀ i n x, taken = some (.resume i) → s.freeSlot core = some n → k.swapped[i]? = some x → x.ctx.popped = [] →
          (s.spillAccess core .read x.space.far).2 = true → ∃ u, exec (.resumeRestore core) s = .next u
          ∧ u.ctx (at_ n) = { x.ctx with
              readyAt := s.cycle + 32, outstanding := x.ctx.outstanding.map (fun o => { o with past := true })
              park := if x.ctx.outstanding = [] ∧ x.ctx.park = .marker then .none else x.ctx.park } ∧ (u.core core).mover = .back n (s.cycle + 32) ∧ (u.core core).swapped = k.swapped.eraseIdx i)
      ∧ (∀ n sp, k.mover = .idle → 1024 ≤ k.spillRoom → s.victim core = some n → s.takeSpill core 1024 = (t, some sp) → ∃ u, exec (.swapOut core) s = .next u
          ∧ (u.core core).mover = .out n (s.cycle + 32) ∧ (u.ctx (at_ n)).live = false ∧ (u.ctx (at_ n)).readyAt = s.cycle + 32
          ∧ (u.core core).swapped.length = k.swapped.length + 1)
      ∧ (k.mover ≠ .idle ∨ k.spillRoom < 1024 ∨ s.victim core = none → exec (.swapOut core) s = .next s)
      ∧ (∀ n e, k.mover = .out n e → (e ≤ s.cycle → exec (.swapOutComplete core) s = .next (s.modCore core (fun k => { k with mover := .idle })))
          ∧ (s.cycle < e → exec (.swapOutComplete core) s = .next s))
      ∧ (∀ (m : Migrant) before after, k.arrivals = before ++ m :: after → m.arrived = none → (∀ x ∈ before ++ after, x.ctx.serial ≠ m.ctx.serial) →
          exec (.migrationArrival { core := core, serial := m.ctx.serial }) s = .next (s.modCore core (fun k => { k with arrivals := before ++ after ++ [{ m with arrived := some s.cycle }] })))
      ∧ (∀ e, k.steal.backoff = some e → (e ≤ s.cycle → exec (.stealBackoffExpiry core) s = .next (s.modCore core (fun k => { k with steal := { k.steal with backoff := none } })))
          ∧ (s.cycle < e → exec (.stealBackoffExpiry core) s = .next s))
      ∧ (∀ l b d, s.launchOf core = some l → l.berth = some b → l.desc = some d → l.state = .running → k.steal.attempt = none → k.steal.backoff = none → k.deque = [] →
          (s.freeSlot core).isSome = true → s.pending core = [] →
          (d.steal < k.steal.level → ∃ u, exec (.stealAttempt core) s = .next u ∧ (u.core core).steal.backoff = some (s.cycle + 64) ∧ (u.core core).steal.level = 0)
            ∧ ∀ v, k.steal.level ≤ d.steal → k.steal.nextVictim core b = some v → ∃ u, exec (.stealAttempt core) s = .next u
              ∧ (u.core core).steal.attempt = some { victim := v, there := s.cycle + s.linkDelay core v, back := s.cycle + 2 * s.linkDelay core v, got := none })
      ∧ (∀ word pc, k.gang.active = true → k.gang.attached = true → exec (.forwardedWordArrival core word pc) s = .next (s.modCore core (fun k => { k with
          gang := { k.gang with inFlight := k.gang.inFlight - 1, queue := k.gang.queue ++ [(word, pc)] } })))
      ∧ ∀ line key, s.resolveFetch core (BitVec.ofNat 64 line) = (t, .ok key) → ∃ u, exec (.lineFetched core line) s = .next u
          ∧ kget line (u.core core).lines = some (key, t.lineWords key) ∧ line ∉ (u.core core).fetching ∧ u.mem = t.mem

/-- The commit point's task commits and becomes the last order; a draw chooses by the LFSR and the weights; a sample is captured when ready; a due
crossing is submitted; tag and entry stores act as laid out; an armed entry fires when its tiles are ready; consumption frees whole messages; a trip
enlarges one FIFO by 8. Rules: R194, R335, R212, R325, R288, R290, R291, R295, R299. The model's own choices in it: log entries 51, 52, 70. -/
def Obligations.UnitEvents : Prop :=
  ∀ (s : State) (cl : Nat),
    let k := s.cluster cl
    (∀ (die key : Nat) (o : OTask), (s.die die).tasks = [(key, o)] → ((s.die die).commitsOf (key / 512)).busy = none →
        ((s.die die).commitsOf (key / 512)).from_ ≤ s.cycle → ((s.die die).commitsOf (key / 512)).holds = [] → o.state = 2 → o.lid = key / 512 →
        o.buffered = [] → o.exitDec = none → o.crossing = none → o.killed = false → ∃ u, exec (.taskCommit die) s = .next u
          ∧ ((u.die die).commitsOf (key / 512)).last = some (o.ts, o.key) ∧ ((u.die die).commitsOf (key / 512)).from_ = s.cycle + 1
          ∧ (∃ o', kget key (u.die die).tasks = some o' ∧ o'.state = 3 ∧ o'.gen = o.gen) ∧ u.mem = s.mem)
      ∧ (∀ n r, k.nextDraw s.cycle = some (n, r) →
          let g := k.sets.get (headerSet r.header)
          let chosen (st : Nat) (lfsr : BitVec 32) : Prop := ∃ u, exec (.stageDraw cl) s = .next u ∧ (u.cluster cl).lfsr = lfsr
            ∧ kget n (u.cluster cl).records = some { r with draw := none, queued := some (st, s.cycle + 1) }
          let next : BitVec 32 := if k.lfsr.getLsbD 0 then (k.lfsr >>> 1) ^^^ 0x80200003#32 else k.lfsr >>> 1
          (g.candidates r.header = [] → chosen (g.effectOrExit r.header) k.lfsr)
            ∧ (∀ st w, g.candidates r.header = [(st, w)] → chosen st k.lfsr)
            ∧ (∀ a b rest, g.candidates r.header = a :: b :: rest → ∀ pre st w post, g.candidates r.header = pre ++ (st, w) :: post →
                let total := ((a :: b :: rest).map (·.2)).sum
                let ticket := next.toNat * total / 2 ^ 32
                (pre.map (·.2)).sum ≤ ticket → ticket < (pre.map (·.2)).sum + w → chosen st next))
      ∧ (∀ w tick va d sw, (s.ctx w).park = .cxSample tick va d none sw → clusterOf w.core = cl →
          (s.sampleReady w.core tick.toNat = true → ∃ u bytes, exec (.sampleCapture w) s = .next u ∧ (u.ctx w).park = .cxSample tick va d (some (s.cycle, bytes)) sw
              ∧ bytes.length = 2048 ∧ ∀ n < 512, leValue ((bytes.drop (4 * n)).take 4) = match kget n k.vars with
                | some v => (cxAdvance v.x v.s ((tick.toNat : Int) - v.t) k.cxTick).toNat | none => 0x7FC00000)
            ∧ (s.sampleReady w.core tick.toNat = false → exec (.sampleCapture w) s = .next s))
      ∧ (∀ slot v n,
          let core := coreOfCluster cl 0
          let lid := (s.core core).lid
          let D := s.die (dieOf core)
          kget slot k.vars = some v → k.cxRunning = true → v.task = none → (∃ due, v.due = some due ∧ due ≤ s.cycle) →
          (∀ q, (D.commitsOf lid).last = some q → q.1 < v.next ∨ q.1 = v.next ∧ q.2 < v.index) → D.freeTask lid = some n → ∃ (u : State) (o : OTask), exec (.crossingSubmit cl slot) s = .next u
            ∧ kget (lid * 512 + n) (u.die (dieOf core)).tasks = some o ∧ o.ts = v.next ∧ o.key = v.index ∧ o.arg = BitVec.ofNat 64 v.index ∧ o.crossing = some slot ∧ o.state = 0
            ∧ kget slot (u.cluster cl).vars = some { v with task := some (lid * 512 + n), due := none })
      ∧ ∀ (core : Nat), 
          let c := s.core core
          (∀ tile v, 16 ≤ v.toNat → exec (.tileTagStore core tile v) s = .next s)
            ∧ (∀ tile v, tile < 192 → v.toNat < 16 → ∃ u, exec (.tileTagStore core tile v) s = .next u ∧ u.mem = s.mem
                ∧ ((u.core core).tag tile).track = v.getLsbD 3 ∧ ((u.core core).tag tile).consumed = v.getLsbD 1 ∧ ((u.core core).tag tile).valid = v.getLsbD 0
                ∧ ((u.core core).tag tile).poison = (c.tag tile).poison)
            ∧ (∀ (i : Fin 16) dw v,
                let e := c.tileReady.get i
                (dw = 0 → v.toNat < 2 ^ 63 → ∃ u, exec (.tileReadyEntryStore core i.val dw v) s = .next u
                    ∧ ((u.core core).tileReady.get i).dw0 = v &&& 0xFFFFFFFFFFFF#64 ∧ ((u.core core).tileReady.get i).fired = e.fired)
                  ∧ (dw = 0 → 2 ^ 63 ≤ v.toNat → c.armOk e.dw2 = false → exec (.tileReadyEntryStore core i.val dw v) s = .next s)
                  ∧ (c.fires e = true → ∃ u, exec (.tileReadyFire core i.val) s = .next u ∧ ((u.core core).tileReady.get i).dw0 = e.dw0 &&& 0xFFFFFFFFFFFF#64
                      ∧ ((u.core core).tileReady.get i).fired = e.fired ++ [(s.cycle - 1, e.dw0 &&& 0xFFFFFFFFFFFF#64, e.dw1)])
                  ∧ (c.fires e = false → exec (.tileReadyFire core i.val) s = .next s))
            ∧ (∀ (i : Fin 8) (n : Word),
                let r := c.rings.get i
                (r.size = 0 ∨ n = 0 → exec (.consume core i.val n) s = .next s)
                  ∧ (r.size ≠ 0 → n ≠ 0 → 0 < r.used → s.ringEntry core r = (r.used, false) → ∃ u, exec (.consume core i.val n) s = .next u ∧ u.mem = s.mem
                      ∧ (u.core core).rings.get i = { r with head := 0, tail := 0, used := 0, readyAge := none }))
            ∧ (∀ g, s.lackingFifos g = [] → exec (.stallWatchdogTrip g) s = .next s)
            ∧ ∀ g cap (p n : Fin 8) sender t sp, s.lackingFifos g = [((cap, core, p), (sender, n))] → cap + 8 ≤ 1024 → 64 ≤ c.spillRoom → s.takeSpill core 64 = (t, some sp) →
              ∃ u, exec (.stallWatchdogTrip g) s = .next u ∧ ((u.core core).ports.get p).capacity = cap + 8
                ∧ ((u.core sender).ports.get n).credits = ((s.core sender).ports.get n).credits + 8

/-- A good contribution on its way goes on column first, then row, with nothing of its kind to merge with. One of the current step starts or joins its
chunk's accumulator at the root; once the count reaches COUNT the chunk is complete, whose result is written, and the step ends with its last chunk; a bad one sends a failure notice; a notice of the current step fails its chunk with its HOP, and one of another step
changes nothing. Rules: R75, R76, R229, R300, R303, R411, R412, R414, R230. The model's own choices in it: log entries
57, 58, 123. -/
def Obligations.RingAndTreeEvents : Prop :=
  ∀ (s t : State) (die slot chunk : Nat) (r : Tree) (c : Contribution), kget slot (s.die die).trees = some r →
    let k := (kget chunk r.chunks).getD TreeChunk.start
    let step := r.step % 2 ^ 20
    (∀ router port, c.die = die → c.slot = slot → c.chunk = chunk →
        (c.good = true → router = r.root → c.step = step → k.state = 0 → k.acc = none → (s.die die).accumulators r.root < 64 → ∃ (u : State) (r' : Tree), 
            exec (.contributionArrival router port c) s = .next u ∧ kget slot (u.die die).trees = some r' ∧ kget chunk r'.chunks = some { k with merged := c.count, acc := some c }
              ∧ (r.count ≤ c.count → (s.cycle + 1, Instr.chunkComplete die slot chunk) ∈ u.agenda) ∧ u.mem = s.mem)
          ∧ (∀ a, c.good = true → router = r.root → c.step = step → k.state = 0 → k.acc = some a → a.count < r.count → (a.merge c).good = true → ∃ (u : State) (r' : Tree), 
            exec (.contributionArrival router port c) s = .next u ∧ kget slot (u.die die).trees = some r'
              ∧ kget chunk r'.chunks = some { k with merged := a.count + c.count, acc := some (a.merge c) }
              ∧ (r.count ≤ a.count + c.count → (s.cycle + 1, Instr.chunkComplete die slot chunk) ∈ u.agenda))
          ∧ (c.good = true → router ≠ r.root →
              let next : Nat × Nat :=
                if colOf router < colOf r.root then (router + 1, 1) else if colOf r.root < colOf router then (router - 1, 2)
                else if dieOf router ≠ dieOf r.root then if rowOf router = 0 then (coreAt (dieOf r.root) (colOf r.root) 0, 5) else (router - 128, 4)
                else if rowOf router < rowOf r.root then (router + 128, 3) else (router - 128, 4)
              let hop := if dieOf router = dieOf next.1 then 2 else 80
              (∀ due c', (due, Instr.contributionArrival next.1 next.2 c') ∈ s.agenda → c.sameChunk c' = false ∨ due < s.cycle + hop) →
              ∃ u due, exec (.contributionArrival router port c) s = .next u ∧ s.cycle + hop ≤ due
                ∧ (due, Instr.contributionArrival next.1 next.2 c) ∈ u.agenda ∧ u.mem = s.mem ∧ u.dies = s.dies)
          ∧ (c.good = false → router = r.root → ∃ u, exec (.contributionArrival router port c) s = .next u
              ∧ (s.cycle, Instr.failureNotice die slot chunk c.step (BitVec.ofNat 32 (port * 2 ^ 29 + router))) ∈ u.agenda))
      ∧ (∀ a, k.acc = some a → r.count ≤ a.count → a.good = true → s.tagReady [] (spansOf r.root (r.dst + 512 * chunk) 512) = true →
          s.engineWrite r.root (r.dst + 512 * chunk) (contributionResult a) = (t, none) → kget slot (t.die die).trees = some r →
          ∃ (u : State) (r' : Tree), exec (.chunkComplete die slot chunk) s = .next u ∧ u.mem = t.mem ∧ kget slot (u.die die).trees = some r'
            ∧ (r.chunks = [(chunk, k)] → r.nchunk = 1 → r'.step = r.step + 1 ∧ r'.last = [(chunk, { k with state := 1, acc := none })] ∧ r'.chunks = [])
            ∧ (r.chunks = [(chunk, k)] → r.nchunk ≠ 1 → r'.step = r.step ∧ r'.chunks = [(chunk, { k with state := 1, acc := none })]))
      ∧ (∀ hop, r.chunks = [] → 2 ≤ r.nchunk → ∃ (u : State) (r' : Tree), exec (.failureNotice die slot chunk step hop) s = .next u ∧ u.mem = s.mem
          ∧ kget slot (u.die die).trees = some r' ∧ r'.step = r.step
          ∧ r'.chunks = [(chunk, { state := 2, merged := 0, hop := hop, failedAt := s.cycle, acc := none })])
      ∧ (∀ n hop, n ≠ step → (n + 1) % 2 ^ 20 ≠ step → exec (.failureNotice die slot chunk n hop) s = .next s)

/-- A dock entry starts to write a free tile and, 8 cycles later, its bytes and tags are written; a lap boundary advances the lap or takes the timetable
down; a pause delays the next step; holdback doubles or halves CUR by the starved boardings. A step moves every pair one hop, retires those that have passed
31 piers, and takes CUR over; under a timetable it then injects the pairs of its position in the lap, converted and with their manifest, and marks every
chunk that fails the check of the pier it passes; a timetable that waits is installed once the ring is empty. A source that cannot be read is injected BAD.
A window of a weight store's refresh changes nothing by itself. Rules: R389, R391, R392, R394, R395, R397, R399, R400, R401, R403, R405. The model's own choices in
it: log entries 60, 65, 101. -/
def Obligations.FerryEvents : Prop :=
  ∀ (s : State) (q : Nat),
    let f := s.ferry
    let D := s.die q
    (D.dock = [] → exec (.dockWrite q) s = .next s)
      ∧ (∀ e d rest, D.dock = [e] → e.busy = none → e.dests = d :: rest →
          let g := (s.core d.core).tag (d.tile + d.next)
          let again : Prop := ∃ b, (s.die (dieOf d.core)).standing d.ident = some b ∧ b.bad.contains (e.chunk.chunk - b.chunk0) = true
          (g.track = false ∨ g.consumed = true ∨ (g.poison = true ∧ e.chunk.bad = false ∧ again)) → ∃ u, exec (.dockWrite q) s = .next u
          ∧ (u.die q).dock = [{ e with busy := some (s.cycle + 8) }] ∧ u.mem = s.mem)
      ∧ (∀ e d rest due, D.dock = [e] → e.busy = some due → due ≤ s.cycle → e.dests = d :: rest → ∃ u, exec (.dockWrite q) s = .next u
          ∧ u.mem = (s.writeMem (spadCell d.core (512 * (d.tile + d.next))) ((e.chunk.cargo.drop (512 * d.next)).take 512)).mem
          ∧ ((u.core d.core).tag (d.tile + d.next)).valid = !e.chunk.bad ∧ ((u.core d.core).tag (d.tile + d.next)).consumed = false
          ∧ ((u.core d.core).tag (d.tile + d.next)).poison = e.chunk.bad)
      ∧ (f.leaving = false → exec .lapBoundary s = .next { s with ferry := { f with lap := f.lap + 1, lapStart := f.stepNo } })
      ∧ (f.leaving = true → exec .lapBoundary s = .next { s with ferry := { f with running := false, leaving := false, layers := [], drain := 32 } })
      ∧ exec .ringPause s = .next { s with ferry := { f with nextStep := f.nextStep + f.cur } }
      ∧ exec .refreshWindow s = .next s
      ∧ (let u := s.starvedBoardings
         exec .holdback s = .next (if f.auto = true then { s with ferry := { f with
           nextCur := if f.thresh < u then min 16 (2 * f.cur) else if u = 0 then max 1 (f.cur / 2) else f.cur } } else s))
      ∧ (f.incoming = none → f.running = false → ∃ u, exec .ferryStep s = .next u ∧ u.ferry.stepNo = f.stepNo + 1 ∧ u.ferry.running = false
          ∧ u.ferry.pairs.map (·.2) = (f.pairs.map (fun p => (p.2.1, p.2.2 + 1))).filter (fun p => p.2 < 32)
          ∧ (f.speedWrite = none → u.ferry.cur = f.nextCur ∧ u.ferry.nextStep = f.nextStep + f.nextCur))
      ∧ (∀ t : Timetable, f.incoming = some t → f.running = false → f.drain ≤ 1 → ∃ u, exec .ferryStep s = .next u ∧ u.ferry.running = true
          ∧ u.ferry.owner = t.lid ∧ u.ferry.layers = t.layers ∧ u.ferry.lap = f.lap + 1 ∧ u.ferry.lapStart = f.stepNo + 1 ∧ u.ferry.incoming = none
          ∧ (s.cycle, Instr.berthLoad t.lid []) ∈ u.agenda)
      ∧ (f.running = true → f.leaving = false →
          let ends := f.stepNo + 1 = f.lapStart + f.lapLen
          let pos := if ends then 0 else f.stepNo + 1 - f.lapStart
          let lap := if ends then f.lap + 1 else f.lap
          let due := f.layers.filter (fun l => decide (l.start ≤ pos) && decide (pos < l.start + l.npairs))
          let moved := (f.pairs.map (fun p => (p.1, p.2.1, p.2.2 + 1))).filter (fun p => decide (p.2.2 < 32))
          let fails (c : DeckChunk) : Bool := c.torn || decide (c.manifest ≠ c.computed) || decide (c.manifest.toNat % 2 ^ 61 = 2 ^ 61 - 1)
          ∃ (u : State) (injected : List (List DeckChunk × Nat × Nat)), exec .ferryStep s = .next u ∧ u.ferry.stepNo = f.stepNo + 1 ∧ u.ferry.lap = lap
            ∧ u.ferry.pairs = (moved ++ injected).map (fun p => (p.1.map (fun c => { c with bad := c.bad || fails c }), p.2))
            ∧ (injected.map (·.2)).Sublist (due.map (fun l => (l.pier, 0)))
            ∧ (∀ l, due = [l] → s.pierServes l.pier = true → injected.map (·.2) = [(l.pier, 0)])
            ∧ ∀ p ∈ injected, ∃ l ∈ due, p.2 = (l.pier, 0)
              ∧ p.1.map (fun c => (c.layer, c.chunk, c.lap)) = ([2 * (pos - l.start), 2 * (pos - l.start) + 1].filter (fun n => decide (n < l.chunks))).map (fun n => (l.n, n, lap))
              ∧ ∀ c ∈ p.1, c.manifest = c.computed ∧ c.torn = false ∧ c.ret = l.ret ∧ c.pl8 = l.pl8 ∧ c.planes = l.planes ∧ c.srcPier = l.pier)
      ∧ ∀ (l : Layer) (n : Nat) (t : State),
          (∀ bs, l.pl8 = false → s.ferryRead f.tenant (l.source + 8192 * n) 4 8192 = (t, .ok bs) → ∃ c, s.convertChunk l n = (t, c) ∧ c.bad = false ∧ c.lap = f.lap
              ∧ c.manifest = manifestField 2 (manifestSum (elements 2 2048 c.cargo) 0)
              ∧ ∀ i < 2048, leValue ((c.cargo.drop (2 * i)).take 2) =
                let v := (bf16.narrow .satRne (fp32.decode (leValue ((bs.drop (4 * i)).take 4)))).bits
                if v = 2 ^ 15 then 0 else v)
            ∧ (∀ e va, s.ferryRead f.tenant (l.source + 8192 * n) 4 8192 = (t, .error (e, va)) → (s.convertChunk l n).2.bad = true)

/-- An accepted description is checked with causes 1 to 3; the head is placed on a berth that has room and loads, from its files or its image, and issues
from the next multiple of 4; a pre-emption stops issue and, when all is settled, saves the launch; RESTOREBASE enters an image that passes its checks
as a saved launch; a quiescent launch ends with its time in the completion queue, which counts lost entries when full; LREQ enters a
launch in a free slot; the other registers act as stated. Rules: R350, R352, R353, R355, R356, R357, R358, R359, R360, R363, R368. The model's own
choices in it: log entries 71, 72, 73, 74, 75, 81, 83, 88, 94, 113. -/
def Obligations.LaunchEvents : Prop :=
  ∀ (s t : State) (die lid : Nat) (l : Launch) (b : Berth) (d : LaunchDesc), s.launch lid = some l → l.lid = lid →
    let D := s.die die
    let halt := s.cycle + (if b.dies = 1 then 17 else 49)
    let halts (i : Instr) (at_ : Nat) (cancel : Bool) (P : State → Prop) : Prop := ∃ u, exec i s = .next u ∧ P u
      ∧ u.launch lid = some { l with state := .preempting, requested := s.cycle, haltAt := at_, cancel := cancel }
    let full := D.cqTail - D.cqHead = D.cqSize
    (∀ (u : State) bs h rows, l.state = .pending → l.desc = none → l.own = false → s.controllerRead l.tenant l.descAddr.toNat 128 = (t, .ok bs) →
        descOf (dwords bs 16) = d → t.controllerRead l.tenant d.htab.toNat (if d.htab = 0 then 0 else 2048) = (u, .ok h) →
        ∀ v, u.readTables l.tenant d.tables.toNat = (v, .ok rows) →
          (descReserved (dwords bs 16) = true → d.ok = true → searchBerth l.die d.w d.h d.dies (fun b => if v.serves b then some b else none) ≠ none →
              exec (.launchAcceptCheck die lid) s = .next (v.setLaunch { l with desc := some d, prio := d.prio }))
            ∧ (descReserved (dwords bs 16) = false ∨ d.ok = false → exec (.launchAcceptCheck die lid) s = .next (v.failLaunch l 2))
            ∧ (descReserved (dwords bs 16) = true → d.ok = true → searchBerth l.die d.w d.h d.dies (fun b => if v.serves b then some b else none) = none →
                exec (.launchAcceptCheck die lid) s = .next (v.failLaunch l 3)))
      ∧ (∀ e, l.state = .pending → l.desc = none → s.controllerRead l.tenant l.descAddr.toNat 128 = (t, .error e) → exec (.launchAcceptCheck die lid) s = .next (t.failLaunch l 1))
      ∧ (∀ files, files ≠ [] →
          let u := s.loaderWrites l.tenant files
          let others := u.modules.filter (fun m => !(m.tenant = l.tenant && m.desc = l.descAddr))
          exec (.berthLoad lid files) s = .next { u with modules := { tenant := l.tenant, desc := l.descAddr, files := files } :: others })
      ∧ (l.state = .loading → l.berth = some b → l.desc = some d → l.issueAt = none → l.timetable = none →
          let loaded (l : Launch) : Launch := { l with timetable := none, issueAt := some ((s.cycle + 4) / 4 * 4) }
          (l.saved = false → s.filesOf l = [] → d.tables = 0 → d.htab = 0 → ∃ u, exec (.berthLoad lid []) s = .next u ∧ u.launch lid = some (loaded l)
              ∧ (∀ c ∈ b.cores, (u.core c).mode = .tenant ∧ (u.core c).lid = lid ∧ (u.core c).spillBase = 0x18000 - d.spill
                  ∧ (u.core c).bar.rect = (if d.barrect = 0 then b.rect else d.barrect))
              ∧ ∀ c ∈ b.clusters, (u.cluster c).cxTick = d.tick ∧ (u.cluster c).lfsr = (if d.seed = 0 then 1 else d.seed))
            ∧ (l.saved = true → s.image lid = none → exec (.berthLoad lid []) s = .next (s.failLoad l 6))
            ∧ ∀ i, l.saved = true → s.image lid = some i →
                (s.imageStands i = false → exec (.berthLoad lid []) s = .next (s.failLoad l 6))
                  ∧ (s.imageStands i = true → i.timetable = none → ∃ u, exec (.berthLoad lid []) s = .next u ∧ u.launch lid = some (loaded l)
                      ∧ ∀ c k, i.cores = [(c, k)] → (u.core (moved i.berth b c)).ctxs = k.ctxs.map (fun x => x.moved i.berth b)
                          ∧ (u.core (moved i.berth b c)).spillBase = k.spillBase ∧ (u.core (moved i.berth b c)).halted = true))
      ∧ (l.state = .running → l.berth = some b →
          (l.cancel = false → halts (.preemptionRequest lid) s.cycle false (fun u => (∀ c ∈ b.cores, (u.core c).halted = true) ∧ u.ferry = s.ferry.dropOwner lid))
            ∧ (D.ready = true → ∀ v : Word, v.toNat % 2 ^ 21 = lid → halts (.preemptlid die v) halt (v.getLsbD 63) (fun u => (halt, Instr.preemptionRequest lid) ∈ u.agenda)))
      ∧ (D.ready = false → ∀ v, exec (.preemptlid die v) s = .next s ∧ exec (.restorebase die v) s = .next s ∧ exec (.lreq die v) s = .next s)
      ∧ (l.state = .preempting → l.berth = some b → s.cycle ≤ l.haltAt ∨ s.settled l b = false → exec (.preemptionHalt lid) s = .next s)
      ∧ (l.state = .preempting → l.berth = some b → l.haltAt < s.cycle → s.settled l b = true → s.committing l b = false → l.cancel = false →
          ∃ (u : State) (l' : Launch), exec (.preemptionHalt lid) s = .next u ∧ u.launch lid = some l' ∧ l'.saved = true ∧ l'.berth = none
            ∧ l'.age = l.requested ∧ l'.spent = l.spent + (s.cycle - l.placedAt) ∧ (l'.state = .pending ∨ l'.state = .waiting) ∧ (∀ c ∈ b.cores, (u.core c).mode = .monitor) ∧ ∃ i, u.image lid = some i ∧ i.addr = (s.die l.die).saveBase.toNat ∧ i.berth = b)
      ∧ (l.state = .running → l.berth = some b →
          (s.over l b = false → exec (.launchEnd lid) s = .next s)
            ∧ (s.over l b = true →
                let u := s.clearBerth l
                let gone : State := { u with launches := kdel lid u.launches, images := u.images.filter (fun i => i.lid ≠ lid) }
                exec (.launchEnd lid) s = .next (gone.complete l.die lid 0 0 (l.spent + (s.cycle - l.placedAt + 1)))))
      ∧ (s.head die = none → exec (.headPlacement die) s = .next s)
      ∧ (s.head die = some l → l.desc = some d → l.die = die →
          (∀ x, s.findBerth die d = some x → l.saved = true → (∀ i, s.image lid = some i → s.imageStands i = false) →
              exec (.headPlacement die) s = .next (s.failLaunch l 6))
            ∧ (∀ x, s.findBerth die d = some x → (l.saved = true → ∃ i, s.image lid = some i ∧ s.imageStands i = true) → ∃ u, exec (.headPlacement die) s = .next u ∧ (s.cycle + 1 + Config.contention s.free, Instr.berthLoad lid []) ∈ u.agenda
              ∧ ∃ l', u.launch lid = some l' ∧ l'.state = .loading ∧ l'.berth = some x ∧ l'.placedAt = s.cycle
                ∧ ((∀ r ∈ l.rooms, r.2.meets x = false) → l'.begun = some s.cycle)
                ∧ ∀ r, l.rooms = [r] → r.2.meets x = true → r.1 ≤ s.cycle → l'.begun = some r.1)
            ∧ (s.findBerth die d = none → s.cycle < D.preemptFrom → exec (.headPlacement die) s = .next s))
      ∧ (l.state = .running → exec (.quantumExhausted lid) s = .next (s.setLaunch { l with quantum := 0 }))
      ∧ (∃ u, exec (.actfcUpdate die) s = .next u ∧ (u.die die).actPend = D.store.length ∧ (u.die die).actAt = s.cycle)
      ∧ (∀ v : Word, D.ready = true →
          (D.ltenant.toNat % 2 ^ 16 = 0 → ∃ u, exec (.lreq die v) s = .next u ∧ (u.die die).lreply = 0 ∧ (u.die die).store = D.store)
            ∧ (D.ltenant.toNat % 2 ^ 16 ≠ 0 → 128 ≤ D.store.length → ∃ u, exec (.lreq die v) s = .next u ∧ (u.die die).lreply = 0 ∧ (u.die die).store = D.store)
            ∧ ∀ n : Fin 128, D.ltenant.toNat % 2 ^ 16 ≠ 0 → D.store.length < 128 → D.reentries = [] → D.storeSlot = some n →
                let gen := if D.storeGen.get n = 511 then 1 else D.storeGen.get n + 1
                let new := die * 2 ^ 16 + gen * 2 ^ 7 + n.val
                ∃ (u : State) (x : Launch), exec (.lreq die v) s = .next u ∧ (u.die die).lreply = BitVec.ofNat 64 new ∧ (u.die die).store = D.store ++ [new]
                  ∧ u.launch new = some x ∧ x.tenant = D.ltenant.toNat % 2 ^ 16 ∧ x.descAddr = D.lreq.get 0 &&& 0xFFFFFFFFFFFF ∧ x.state = .pending ∧ x.age = s.cycle
                  ∧ (s.cycle + 1, Instr.launchAcceptCheck die new) ∈ u.agenda)
      ∧ (∀ v : Word, D.ready = true →
          let at_ := imageCell v.toNat
          (imageOf s.overflowBytes (s.imageBytes at_) = none → exec (.restorebase die v) s = .next (s.complete die (s.peek (at_ + 192) 8 % 2 ^ 21) 1 6 0))
            ∧ ∀ h i, imageOf s.overflowBytes (s.imageBytes at_) = some (h, i) →
                let e := descOf h.fields
                let place := searchBerth die e.w e.h e.dies (fun b => if s.serves b then some b else none)
                (s.launch h.lid ≠ none → exec (.restorebase die v) s = .next s)
                  ∧ (s.launch h.lid = none → e.tables = 0 →
                      (descReserved h.fields = false ∨ e.ok = false → exec (.restorebase die v) s = .next (s.complete die h.lid 1 2 h.spent))
                        ∧ (descReserved h.fields = true → e.ok = true → place = none → exec (.restorebase die v) s = .next (s.complete die h.lid 1 3 h.spent))
                        ∧ (descReserved h.fields = true → e.ok = true → place ≠ none → ∃ (u : State) (x : Launch), exec (.restorebase die v) s = .next u
                            ∧ u.launch h.lid = some x ∧ x.saved = true ∧ x.desc = some e ∧ x.prio = e.prio ∧ x.tenant = h.tenant ∧ x.spent = h.spent ∧ x.age = s.cycle
                            ∧ u.image h.lid = some { (i.withRoutines []).numbered (s.serials + 1) with timetable := none } ∧ (x.state = .pending ∨ x.state = .waiting)
                            ∧ (D.store.length < 128 → D.reentries = [] → x.state = .pending ∧ (u.die die).store = D.store ++ [h.lid]))))
      ∧ ∀ kind cause value, (full → (s.complete die lid kind cause value).die die = { D with lastLid := lid, lastCause := cause, lost := true })
          ∧ (¬full → (s.complete die lid kind cause value).die die = { D with lastLid := lid, lastCause := cause, cqTail := D.cqTail + 1 })

/-- Each writable register takes its value, read-only ones ignore writes, and those with an effect act as their own event; INVAL drops entries after its
delay; PRESOLVE releases the requests and accesses of its page; PRQHEAD makes room for held requests; FQBASE completes bring-up; a page migration
copies the 4,096 bytes and rewrites the leaf. Rules: R351, R379, R385, R387, R417, R425. The model's own choices in it: log entries 93, 94, 95. -/
def Obligations.HostRegisterEvents : Prop :=
  ∀ (s t : State) (die : Nat) (v : Word),
    let D := s.die die
    let n := v.toNat
    let writes (off : Nat) (d : Die) : Prop := exec (.hostRegisterWrite die off v) s = .next (s.setDie die d)
    let same (off : Nat) (i : Instr) : Prop := exec (.hostRegisterWrite die off v) s = exec i s
    (∃ u due, exec (.inval die v) s = .next u ∧ s.cycle + 176 ≤ due
        ∧ (u.die die).invals = D.invals ++ [(due, n % 2 ^ 16, if n / 2 ^ 16 % 2 = 1 then none else some (n / 2 ^ 28))] ∧ u.mem = s.mem)
      ∧ (homeDie (n / 2 ^ 28 * 4096) ≠ die → ∃ u, exec (.presolve die v) s = .next u
          ∧ (u.die die).requests = D.requests.filter (fun r => !(r.tenant = n % 2 ^ 16 && r.page = n / 2 ^ 28)) ∧ u.clusters = s.clusters)
      ∧ (∀ cl, homeDie (n / 2 ^ 28 * 4096) = die → s.stalledOn (n % 2 ^ 16) (n / 2 ^ 28) = [(0, cl, .copy)] → ∃ u, exec (.presolve die v) s = .next u
          ∧ (s.cycle, Instr.copyJobComplete cl) ∈ u.agenda
          ∧ (u.cluster cl).paged = (s.cluster cl).paged.filter (fun p => !(p.2.1 = n / 2 ^ 28 && p.2.2 = .copy)))
      ∧ (D.ready = true ∨ D.failStep ≠ 0 → exec (.fqbase die v) s = .next (s.modDie die (fun d => { d with fqBase := v })))
      ∧ (D.ready = false → D.failStep = 0 → ∃ u, exec (.fqbase die v) s = .next u ∧ (u.die die).ready = true ∧ (u.die die).fqBase = v ∧ (u.die die).log = D.log
          ∧ (∀ r, D.log = [r] → D.fqTail ≠ D.fqHead + D.fqSize → s.MemOk → Memory.readBytes u.mem (hostBase + v.toNat + 64 * (D.fqTail.toNat % D.fqSize.toNat)) 64 = { r with replay := true }.encode))
      ∧ (D.requests = [] → ∃ u, exec (.prqhead die v) s = .next u ∧ u.die die = { D with prqHead := v, requests := [] } ∧ u.mem = s.mem)
      ∧ (∀ r, D.requests = [r] → r.written = false → D.prqTail - v < D.prqSize → ∃ u, exec (.prqhead die v) s = .next u
          ∧ u.die die = { D with prqHead := v, prqTail := D.prqTail + 1, requests := [{ r with written := true }] })
      ∧ (writes 0x030 { D with saveBase := v } ∧ writes 0x040 { D with cqBase := v } ∧ writes 0x048 { D with cqSize := v } ∧ writes 0x050 { D with cqHead := v }
          ∧ writes 0x100 { D with ttBase := v } ∧ writes 0x108 { D with ttCount := v } ∧ writes 0x120 { D with prqBase := v } ∧ writes 0x128 { D with prqSize := v }
          ∧ writes 0x148 { D with ltenant := v } ∧ writes 0x188 { D with fqSize := v } ∧ writes 0x190 { D with fqHead := v })
      ∧ (same 0x018 (.lreq die v) ∧ same 0x028 (.preemptlid die v) ∧ same 0x038 (.restorebase die v) ∧ same 0x110 (.inval die v) ∧ same 0x138 (.prqhead die v)
          ∧ same 0x140 (.presolve die v) ∧ same 0x180 (.fqbase die v))
      ∧ (∀ off ∈ [0x020, 0x058, 0x118, 0x130, 0x198, 0x1A0, 0x1C0, 0x1C8], exec (.hostRegisterWrite die off v) s = .next s)
      ∧ (∀ tenant kind va, homeDie va.toNat = die → ∀ r, s.translate tenant kind va.toNat = (t, r) → exec (.homeTranslation die tenant kind va) s = .next t)
      ∧ (∀ tenant kind va, homeDie va.toNat ≠ die → exec (.homeTranslation die tenant kind va) s = .next s)
      ∧ (∀ tenant va owner frame l, s.walk va.toNat ((s.tenantWord die tenant 0) / 2 ^ 12 % 2 ^ 28 * 4096) 4 = some l →
          let old := l.raw / 2 ^ 12 % 2 ^ 28 * 4096
          (frame % 4096 ≠ 0 ∨ isDram frame = false ∨ homeDie va.toNat ≠ die → exec (.pageMigration die tenant va owner frame) s = .next s)
            ∧ (homeDie va.toNat = die → leafOk die l = true → l.big = false → l.raw % 2 = 1 → l.raw / 2 ^ 51 % 4 < 2 → frame % 4096 = 0 → frame / 2 ^ 36 = owner / 2 →
                isDram frame = true → isDram old = true → owner % 2 = die % 2 → frame ≠ old → s.MemOk → (l.addr + 8 ≤ frame ∨ frame + 4096 ≤ l.addr) →
                ∃ u, exec (.pageMigration die tenant va owner frame) s = .next u ∧ Memory.readBytes u.mem frame 4096 = Memory.readBytes s.mem old 4096
                  ∧ u.peek l.addr 8 = (if owner / 2 = die / 2 then l.raw / 2 ^ 53 % 2 ^ 11 * 2 ^ 53 + l.raw % 2 ^ 12 + frame
                      else l.raw / 2 ^ 53 % 2 ^ 11 * 2 ^ 53 + l.raw % 2 ^ 12 + 2 ^ 51 + owner * 2 ^ 40 + frame) % 2 ^ 64))

/-- A translated RDMA write stores its bytes and a refused one none; a read answers the bytes; CXL accesses reach DRAM only; a module reset keeps host
memory, logs and retired pairs; the SPDM responder answers each request in its order with the stated content and an error otherwise. Rules: R386, R388,
R425, R428, R429. The model's own choices in it: log entries 95, 97, 98, 100. -/
def Obligations.HostTransferEvents : Prop :=
  ∀ (s t : State) (tenant : Nat) (va : Word) (bytes : List Byte),
    let p := s.spdm
    let answers (i : Instr) (ok : Prop) (r : List Byte) : Prop :=
      (ok → exec i s = .next { s with spdm := { p with response := r } }) ∧ (¬ok → exec i s = .next { s with spdm := { p with response := [0x7F] } })
    (∀ key entry, bytes ≠ [] → va.toNat % 4096 + bytes.length ≤ 4096 → s.translate tenant .write va.toNat = (t, .ok (key, entry)) →
        exec (.rdmaWrite tenant va bytes) s = .next (t.writePage entry.attr key bytes))
      ∧ (∀ e, bytes ≠ [] → s.translate tenant .write va.toNat = (t, .error e) → exec (.rdmaWrite tenant va bytes) s = .next t)
      ∧ (∀ len bs, s.ferryRead tenant va.toNat (len / 4096 + 2) len = (t, .ok bs) → exec (.rdmaRead tenant va len) s = .next { t with host := { t.host with readData := bs } })
      ∧ exec (.send tenant bytes) s = .next { s with host := { s.host with inbound := s.host.inbound ++ [(tenant, bytes)] } }
      ∧ (∀ pa len, s.pagesMove = false → isDram pa = true → exec (.cxlMemAccess pa none len) s = .next { s with host := { s.host with readData := Memory.readBytes s.mem pa len } })
      ∧ (∀ pa len, s.pagesMove = false → bytes ≠ [] → isDram pa = true → isDram (pa + bytes.length - 1) = true → pa / 2 ^ 36 = (pa + bytes.length - 1) / 2 ^ 36 →
          exec (.cxlMemAccess pa (some bytes) len) s = .next (s.writePhys pa bytes))
      ∧ (∀ pa len, isDram pa = false → exec (.cxlMemAccess pa (some bytes) len) s = .next s)
      ∧ (∃ u, exec .moduleReset s = .next u ∧ u.cores = [] ∧ u.launches = [] ∧ u.agenda = [] ∧ u.host = s.host
          ∧ (∀ a, 2 ^ 48 ≤ a → a < 2 ^ 50 → s.MemOk → Memory.read u.mem a = Memory.read s.mem a)
          ∧ (∀ a, a < 2 ^ 48 ∨ 2 ^ 50 ≤ a → Memory.read u.mem a = 0)
          ∧ (∀ d < 32, (u.die d).log = (s.die d).log.map (fun r => { r with replay := true }) ∧ (u.die d).retired = (s.die d).retired ∧ (u.die d).ready = false
            ∧ (u.die d).failStep < 6 ∧ ((u.die d).failStep = 1 ↔ s.boot.accepts = false) ∧ ((u.die d).failStep ≠ 0 → (u.die d).outOfService = true)))
      ∧ (∀ image, exec (.firmwareImageWrite image) s = .next { s with boot := { s.boot with image := image } })
      ∧ exec .getVersion s = .next { s with spdm := { version := true, capabilities := false, algorithms := false, response := [0x13] } }
      ∧ (p.version = true → exec .getCapabilities s = .next { s with spdm := { p with capabilities := true, response := [0x16, 0, 0, 0] } })
      ∧ (p.version = false → exec .getCapabilities s = .next { s with spdm := { p with response := [0x7F] } })
      ∧ (∀ asym hash, p.capabilities = true → asym / 2 ^ 9 % 2 = 1 → hash / 2 ^ 6 % 2 = 1 → exec (.negotiateAlgorithms asym hash) s = .next { s with
          spdm := { p with algorithms := true, response := leBytes 4 (2 ^ 9) ++ leBytes 4 (2 ^ 6) } })
      ∧ (∀ asym hash, p.capabilities = false ∨ asym / 2 ^ 9 % 2 = 0 ∨ hash / 2 ^ 6 % 2 = 0 → exec (.negotiateAlgorithms asym hash) s = .next { s with spdm := { p with response := [0x7F] } })
      ∧ answers .getDigests (p.algorithms = true) (leBytes 32 (Config.sm3 Config.identityChain).toNat)
      ∧ (∀ slot off len, answers (.getCertificate slot off len) (p.algorithms = true ∧ slot = 0) ((Config.identityChain.drop off).take len))
      ∧ (∀ slot nonce, answers (.challenge slot nonce) (p.algorithms = true ∧ slot = 0)
          (leBytes 32 (Config.sm3 Config.identityChain).toNat ++ leBytes 64 (Config.sm2Sign (Config.sm3 nonce)).toNat))
      ∧ answers (.getMeasurements 1) (p.algorithms = true) (leBytes 32 (Config.sm3 Config.bootRom).toNat)
      ∧ answers (.getMeasurements 2) (p.algorithms = true) (leBytes 32 (Config.sm3 s.boot.image.body).toNat)
      ∧ answers (.getMeasurements 3) (p.algorithms = true) (leBytes 32 (Config.sm3 (Config.fusedKey ++ leBytes 8 s.boot.floor.toNat)).toNat)
      ∧ answers (.getMeasurements 0) False []

/-- The 32nd refusal of a flit fails its link and takes both dies out of service; an intact machine check pre-empts the launch and another ends it with
CAUSE 7; a corrected error changes no byte and makes a type 1 record, and an uncorrectable one poisons a cell's granule, fails a chunk in flight, and of
a word or a controller is a machine check; a packet with a bad tenant field is discarded and its sender told; a failing pair is retired when no berth
touches it; a quiet upper core goes down and wakes in 39 cycles. Rules: R406, R408, R409, R410, R418, R421, R422, R423. The model's own choices in it:
log entries 89, 90, 91, 92, 99. -/
def Obligations.FaultAndPowerEvents : Prop :=
  ∀ (s : State) (core : Nat),
    let k := s.core core
    let die := dieOf core
    let upper := die % 2 = 1
    (∀ link a b again,
        let n := if again then (kget link s.refusals).getD 0 + 1 else 1
        (n < 32 ∨ s.failedLinks.contains link = true → exec (.linkFlitRefused link a b again) s = .next { s with refusals := kset link n s.refusals })
          ∧ (32 ≤ n → s.failedLinks.contains link = false → ∃ u, exec (.linkFlitRefused link a b again) s = .next u ∧ link ∈ u.failedLinks
              ∧ (u.die a).outOfService = true ∧ (u.die b).outOfService = true))
      ∧ (∃ u, exec (.junctionLimit die) s = .next u ∧ (u.die die).outOfService = true)
      ∧ (∀ l b, s.launch k.lid = some l → l.lid = k.lid → l.state = .running → l.berth = some b → l.cancel = false → ∃ u, exec (.machineCheck core true) s = .next u
          ∧ u.launch k.lid = some { l with state := .preempting, requested := s.cycle, haltAt := s.cycle + (if b.dies = 1 then 17 else 49) })
      ∧ (∀ l b, s.launch k.lid = some l → l.lid = k.lid → l.berth = some b → ∃ u, exec (.machineCheck core false) s = .next u ∧ u.launch k.lid = none
          ∧ (u.die l.die).lastLid = k.lid ∧ (u.die l.die).lastCause = 7)
      ∧ (∀ at_ : EccPlace,
          exec (.scrub at_ .clean) s = .next s
            ∧ ((∀ pair chunk, at_ ≠ .header pair chunk) → ∃ u, exec (.scrub at_ .corrected) s = .next u ∧ u.cores = s.cores ∧ (∀ g ∈ s.poison, g.1 < hostBase → g ∈ u.poison)
                ∧ (s.MemOk → ∀ a < hostBase, Memory.read u.mem a = Memory.read s.mem a) ∧ ∃ d, ∃ r ∈ (u.die d).log, r.type = 1))
      ∧ (∀ key, ∃ u, exec (.scrub (.cell key) .uncorrectable) s = .next u ∧ s.granule key ∈ u.poison ∧ u.cores = s.cores ∧ ∃ d, ∃ r ∈ (u.die d).log, r.type = 2)
      ∧ (∀ l b, s.launch k.lid = some l → l.lid = k.lid → l.state = .running → l.berth = some b → l.cancel = false → ∃ u, exec (.scrub (.word core) .uncorrectable) s = .next u
          ∧ (u.launch k.lid = some { l with state := .preempting, requested := s.cycle, haltAt := s.cycle + (if b.dies = 1 then 17 else 49) }
            ∨ u.launch k.lid = none ∧ (u.die l.die).lastLid = k.lid ∧ (u.die l.die).lastCause = 7))
      ∧ (∃ u, exec (.scrub (.controller die) .uncorrectable) s = .next u ∧ (u.die die).outOfService = true)
      ∧ (∀ pair chunk cs source h c, s.ferry.pairs[pair]? = some (cs, source, h) → cs[chunk]? = some c →
          (∃ u, exec (.scrub (.header pair chunk) .corrected) s = .next u ∧ u.ferry = s.ferry ∧ u.cores = s.cores)
            ∧ ∃ u cs', exec (.scrub (.header pair chunk) .uncorrectable) s = .next u ∧ u.cores = s.cores ∧ u.ferry.pairs[pair]? = some (cs', source, h)
              ∧ cs'[chunk]? = some { c with torn := true } ∧ ∀ n, n ≠ chunk → cs'[n]? = cs[n]?)
      ∧ (∀ pair,
          let D := s.die die
          let touched := s.launches.any (fun e => match e.2.berth with | some b => b.touchesPair die pair | none => false)
          (pair ∉ D.failing ∨ touched = true → exec (.coreRetirement die pair) s = .next s)
            ∧ (pair ∈ D.failing → touched = false → ∃ u, exec (.coreRetirement die pair) s = .next u ∧ (u.die die).retired = D.retired ++ [pair]
                ∧ (u.die die).failing = (D.failing.filter (fun p => decide (p ≠ pair))).map (fun p => if pair < p then p - 1 else p) ∧ (D.retired ≠ [] → (u.die die).outOfService = true)))
      ∧ (upper → 16 ≤ k.quiet → s.wakes core = false → exec (.powerDown core) s = .next (s.modCore core (fun k => { k with down := true, quiet := 0 })))
      ∧ (upper → 16 ≤ k.quiet → s.wakes core = true → exec (.powerDown core) s = .next (s.modCore core (fun k => { k with quiet := 0 })))
      ∧ (¬upper ∨ k.quiet < 16 → exec (.powerDown core) s = .next s)
      ∧ (k.down = true → k.waking = none → exec (.wake core) s = .next (s.modCore core (fun k => { k with waking := some (s.cycle + 39) })))
      ∧ (k.down = false → exec (.wake core) s = .next (s.modCore core (fun k => { k with quiet := 0 })))
      ∧ (64 ≤ k.flitless → (∀ e ∈ s.agenda, eventCore e.2 ≠ some core) → exec (.routerClockGate core) s = .next (s.modCore core (fun k => { k with routerGated := true })))
      ∧ (k.flitless < 64 ∨ (∃ e ∈ s.agenda, eventCore e.2 = some core) → exec (.routerClockGate core) s = .next s)
      ∧ ∀ (w : CtxId) (va : Word) (packet : Packet), w.core = core →
          (packet = .posted →
              ((∀ e ∈ s.agenda, (∀ r, e.2 ≠ Instr.amoHomeApply r) ∧ ∀ m, e.2 ≠ Instr.messageArrival m) →
                  (s.posted = [] → ∃ u, exec (.tenantFieldError w va packet true) s = .next u
                      ∧ (s.cycle, Instr.postedPoisonTrap (s.issuer w) va) ∈ u.agenda ∧ u.cores = s.cores ∧ (s.MemOk → ∀ a < hostBase, Memory.read u.mem a = Memory.read s.mem a))
                    ∧ (∀ p, s.posted = [p] → p.who.slot = w → s.cycle ≤ p.due → p.key % 4096 = va.toNat % 4096 → s.MemOk → (∀ b, zeroMapWidth (s.blockFormat b) = 0) →
                        ∃ u, exec (.tenantFieldError w va packet true) s = .next u ∧ (s.cycle, Instr.postedPoisonTrap (s.issuer w) va) ∈ u.agenda
                          ∧ Memory.readBytes u.mem p.key p.old.length = p.old ∧ u.posted = []))
                ∧ (∀ n r i, s.agenda = [(n, Instr.amoHomeApply r)] → r.dest = none → r.members = [i] → i.slot = w → r.va = va →
                  ∃ u, exec (.tenantFieldError w va packet true) s = .next u ∧ (n, Instr.amoHomeApply r) ∉ u.agenda ∧ (s.cycle, Instr.postedPoisonTrap i va) ∈ u.agenda)
                ∧ ∀ n m, s.agenda = [(n, Instr.messageArrival m)] → m.who.slot = w →
                  ∃ u, exec (.tenantFieldError w va packet true) s = .next u ∧ (n, Instr.messageArrival m) ∉ u.agenda)
            ∧ (∀ n r d, packet = .reply d → s.agenda = [(n, Instr.resultWrite w r)] → r.dest = d → ∃ u, exec (.tenantFieldError w va packet true) s = .next u
                ∧ (n, Instr.resultWrite w r) ∉ u.agenda)
            ∧ ∀ l b, s.launch k.lid = some l → l.lid = k.lid → l.state = .running → l.berth = some b → l.cancel = false → ∃ u, exec (.tenantFieldError w va packet false) s = .next u
                ∧ ((∃ l', u.launch k.lid = some l' ∧ l'.state = .preempting)
                  ∨ u.launch k.lid = none ∧ (u.die l.die).lastLid = k.lid ∧ (u.die l.die).lastCause = 7)

/-- The reset state keeps the invariant; no launch, no core running; tiles are consumed and not valid; m0 reads all ones; registers, scratchpads and
PROT are 0; no die is ready; the ferry stands with CUR 1 and THRESH 16. BARRECT, BARPHASE, the LFSR, FQBASE and AUTO at reset are the model's
choice. Rules: R425, R9, R287, R380, R397, R6. The model's own choices in it: log entries 4. -/
def Obligations.ResetState : Prop :=
  State.reset.Inv ∧ State.reset.cycle = 0 ∧ State.reset.launches = [] ∧ (∀ core off, Memory.read State.reset.mem (spadCell core off) = 0)
    ∧ (∀ core tile, (State.reset.core core).tag tile = { track := false, poison := false, consumed := true, valid := false })
    ∧ (∀ w r, (State.reset.ctx w).getX r = 0) ∧ (∀ w v, (State.reset.ctx w).getV v = 0) ∧ (∀ w, (State.reset.ctx w).getM 0 = BitVec.allOnes 32)
    ∧ (∀ core n, (State.reset.core core).prot.get n = 0) ∧ (∀ core, (State.reset.core core).bar.rect = 0 ∧ (State.reset.core core).bar.phase = 0)
    ∧ (∀ cl, (State.reset.cluster cl).lfsr = 1) ∧ (∀ d, (State.reset.die d).ready = false ∧ (State.reset.die d).fqBase = 0 ∧ (State.reset.die d).store = [])
    ∧ State.reset.ferry.running = false ∧ State.reset.ferry.cur = 1 ∧ State.reset.ferry.thresh = 16 ∧ State.reset.ferry.auto = false

/-- When no event is due and the next candidate context stands at an unpoisoned word of a held line that decodes to i, and nothing has replaced it, the step
is exec of i with that context as issuer, after the header's check where the context has stepped into the line: the slot is used, or passed over when
the word was not ready; a fault or refusal is answered as it is. When a well-formed event is due, the step is exec of it. Rules: R14, R16, R17, R23,
R41, R407. The model's own choices in it: log entries 1. -/
def Obligations.StepRunsDecodedInstruction : Prop :=
  (
      ∀ (s : State) (cursor : Nat) (w : CtxId) (key : Nat) (ws : List (BitVec 32)) (i : Instr),
        let c := s.ctx w
        let k := s.core w.core
        let n := c.pc.toNat % 128 / 4
        (∀ e ∈ s.agenda.head?, s.cycle < e.1) → s.begun = true → s.nextCandidate = some (cursor, w) → c.poisonAcks = [] → k.follows w = false →
          kget (c.pc.toNat / 128 * 128) k.lines = some (key, ws) → key % 128 = 0 → s.peek (key + 4 * n) 4 = (ws.getD n 0).toNat →
          (∀ e ∈ s.overwritten, e.1 ≠ key + 4 * n) → s.poisoned (key + c.pc.toNat % 128) 4 = false →
          (c.newLine = true → (ws.getD 0 0).getLsbD 0 = true ∧ s.peek key 4 = (ws.getD 0 0).toNat ∧ (∀ e ∈ s.overwritten, e.1 ≠ key) ∧ s.poisoned key 4 = false) →
          decode (ws.getD n 0) = .ok i → postedRelaxed i = true ∨ s.agenda.any (inFlightOf w) = false →
          let o := exec i { (if c.newLine then s.modCtx w (fun c => { c with newLine := false }) else s) with who := w, stalled := false }
          (∀ u, o = .next u → step s = .next (if u.stalled then u.passedOver cursor w else (u.followed w).slotUsed w))
            ∧ (∀ f, o = .fault f → step s = .fault f) ∧ (∀ r, o = .refused r → step s = .refused r))
    ∧ (
      ∀ (s : State) (due : Nat) (i : Instr) (rest : List (Nat × Instr)), s.agenda = (due, i) :: rest → due ≤ s.cycle → WellFormed i = true →
        step s = exec i { s with agenda := rest })
    ∧ ∀ (s : State) (due : Nat) (i : Instr) (rest : List (Nat × Instr)), s.agenda = (due, i) :: rest → due ≤ s.cycle → WellFormed i = false →
        step s = .fault .illFormedEvent

/-- Words written out in the manual for alu, cmpi, rwl, hint, lim, sys, pat, xbar and job decode to the stated instruction with its operands; the zero
word is refused. Rules: R33, R34, R39, R41, R82, R88, R110, R131, R174. -/
def Obligations.DecodedWords : Prop :=
  decode 0x02952D26 = .ok (.aluCmp false .ltu 9 10 11) ∧ decode 0x0C3217FF = .ok (.cmpi false .lt 3 4 (-1))
    ∧ decode 0x28440000 = .ok (.rwlRacq false false 4 8) ∧ decode 0x28440040 = .ok (.rwlRacq false true 4 8) ∧ decode 0x28440100 = .ok (.rwlWacq false false 4 8)
    ∧ decode 0x28440080 = .ok (.rwlRrel false 4 8) ∧ decode 0x28440180 = .ok (.rwlWrel false 4 8)
    ∧ decode 0x7E800005 = .ok (.hintImx false 5) ∧ decode 0x0E623458 = .ok (.lim false 6 0x23458) ∧ decode 0x70038002 = .ok (.sysBrk false 7)
    ∧ decode 0x4E050000 = .ok (.patCfg false 10) ∧ decode 0x4E530001 = .ok (.patExec false 5 6 0) ∧ decode 0x54052000 = .ok (.xbarCnt false 10 8)
    ∧ decode 0xD2460000 = .ok (.jobSub true 4 12) ∧ decode 0 = .error .zeroWord

/-- For every well-formed instruction of every family that has an encoding, with every operand at every value the encoding admits, decode of its word
answers the instruction. Rules: R33, R34, R35, R37, R39, R46, R50. -/
def Obligations.EncodedInstructionDecodes : Prop :=
  ∀ (i : Instr) (w : BitVec 32), WellFormed i = true → encode i = some w → decode w = .ok i

/-- If a word decodes to an instruction, the instruction is well-formed and its encoding is that word: no two words stand for one instruction and no
field is dropped. Rules: R33, R34, R35, R37, R40, R41. -/
def Obligations.DecodedInstructionEncodes : Prop :=
  ∀ (i : Instr) (w : BitVec 32), decode w = .ok i → WellFormed i = true ∧ encode i = some w

/-- From every state in which the memory is in its canonical form and the listed cores stand in ascending order, each once, a step that answers a next
state answers one that keeps both. Rules: R3, R6, R115. The model's own choices in it: log entries 3, 6. -/
def Obligations.StepKeepsInvariant : Prop :=
  ∀ (s t : State), s.Inv → step s = .next t → t.Inv
end

