-- ==== Sys2Proof/Laws/Maps.lean ====
section
/-! SUPPORT. Sparse maps: what is read after a value is set or removed. -/

namespace Sys2Proof.Machine

variable {α : Type}

@[simp] theorem kget_nil (k : Nat) : kget k ([] : KMap α) = none := rfl

@[simp] theorem kget_kset_same (k : Nat) (v : α) (m : KMap α) : kget k (kset k v m) = some v := by
  induction m with
  | nil => simp [kset, kget]
  | cons e m ih =>
    obtain ⟨k', v'⟩ := e
    simp only [kset]
    split_ifs <;> simp_all [kget]

theorem kget_kset_ne {k k' : Nat} (h : k' ≠ k) (v : α) (m : KMap α) : kget k' (kset k v m) = kget k' m := by
  induction m with
  | nil => simp [kset, kget, h]
  | cons e m ih =>
    obtain ⟨j, w⟩ := e
    simp only [kset]
    split_ifs with h1 h2
    · subst h1; simp [kget, h]
    · simp [kget, h]
    · simp [kget, ih]

@[simp] theorem kset_kset (k : Nat) (v v' : α) (m : KMap α) : kset k v (kset k v' m) = kset k v m := by
  induction m with
  | nil => simp [kset]
  | cons e m ih =>
    obtain ⟨j, w⟩ := e
    simp only [kset]
    split_ifs with h1 h2
    · simp [kset]
    · simp [kset]
    · simp [kset, h1, h2, ih]

theorem kget_kdel_same (k : Nat) (m : KMap α) : kget k (kdel k m) = none := by
  induction m with
  | nil => rfl
  | cons e m ih =>
    obtain ⟨j, w⟩ := e
    by_cases h : j = k
    · simpa [kdel, h] using ih
    · have : k ≠ j := fun e => h e.symm
      simpa [kdel, h, kget, this] using ih

theorem kget_kdel_ne {k k' : Nat} (h : k' ≠ k) (m : KMap α) : kget k' (kdel k m) = kget k' m := by
  induction m with
  | nil => rfl
  | cons e m ih =>
    obtain ⟨j, w⟩ := e
    by_cases hj : j = k
    · subst hj
      simpa [kdel, kget, h] using ih
    · simp only [kdel, List.filter_cons, ne_eq, hj, not_false_eq_true, decide_true, if_true, kget]
      split_ifs with h1
      · rfl
      · exact ih

end Sys2Proof.Machine
end

