-- ==== Sys2Proof/Laws/State.lean ====
section
/-! SUPPORT. The state: each field after each named update, and what is read of a core, a context, a cluster, a group or a die after
an update of it or of another. -/

namespace Sys2Proof.Machine.State

variable (s : State)

/-! ### setCore -/

@[simp] theorem setCore_cycle (c : Nat) (k : Core) : (s.setCore c k).cycle = s.cycle := rfl
@[simp] theorem setCore_turn (c : Nat) (k : Core) : (s.setCore c k).turn = s.turn := rfl
@[simp] theorem setCore_begun (c : Nat) (k : Core) : (s.setCore c k).begun = s.begun := rfl
@[simp] theorem setCore_agenda (c : Nat) (k : Core) : (s.setCore c k).agenda = s.agenda := rfl
@[simp] theorem setCore_late (c : Nat) (k : Core) : (s.setCore c k).late = s.late := rfl
@[simp] theorem setCore_who (c : Nat) (k : Core) : (s.setCore c k).who = s.who := rfl
@[simp] theorem setCore_stalled (c : Nat) (k : Core) : (s.setCore c k).stalled = s.stalled := rfl
@[simp] theorem setCore_asked (c : Nat) (k : Core) : (s.setCore c k).asked = s.asked := rfl
@[simp] theorem setCore_deciding (c : Nat) (k : Core) : (s.setCore c k).deciding = s.deciding := rfl
@[simp] theorem setCore_free (c : Nat) (k : Core) : (s.setCore c k).free = s.free := rfl
@[simp] theorem setCore_serials (c : Nat) (k : Core) : (s.setCore c k).serials = s.serials := rfl
@[simp] theorem setCore_clusters (c : Nat) (k : Core) : (s.setCore c k).clusters = s.clusters := rfl
@[simp] theorem setCore_groups (c : Nat) (k : Core) : (s.setCore c k).groups = s.groups := rfl
@[simp] theorem setCore_dies (c : Nat) (k : Core) : (s.setCore c k).dies = s.dies := rfl
@[simp] theorem setCore_launches (c : Nat) (k : Core) : (s.setCore c k).launches = s.launches := rfl
@[simp] theorem setCore_images (c : Nat) (k : Core) : (s.setCore c k).images = s.images := rfl
@[simp] theorem setCore_modules (c : Nat) (k : Core) : (s.setCore c k).modules = s.modules := rfl
@[simp] theorem setCore_ferry (c : Nat) (k : Core) : (s.setCore c k).ferry = s.ferry := rfl
@[simp] theorem setCore_mem (c : Nat) (k : Core) : (s.setCore c k).mem = s.mem := rfl
@[simp] theorem setCore_overwritten (c : Nat) (k : Core) : (s.setCore c k).overwritten = s.overwritten := rfl
@[simp] theorem setCore_posted (c : Nat) (k : Core) : (s.setCore c k).posted = s.posted := rfl
@[simp] theorem setCore_zeroBlocks (c : Nat) (k : Core) : (s.setCore c k).zeroBlocks = s.zeroBlocks := rfl
@[simp] theorem setCore_poison (c : Nat) (k : Core) : (s.setCore c k).poison = s.poison := rfl
@[simp] theorem setCore_host (c : Nat) (k : Core) : (s.setCore c k).host = s.host := rfl
@[simp] theorem setCore_spdm (c : Nat) (k : Core) : (s.setCore c k).spdm = s.spdm := rfl
@[simp] theorem setCore_boot (c : Nat) (k : Core) : (s.setCore c k).boot = s.boot := rfl
@[simp] theorem setCore_refusals (c : Nat) (k : Core) : (s.setCore c k).refusals = s.refusals := rfl
@[simp] theorem setCore_failedLinks (c : Nat) (k : Core) : (s.setCore c k).failedLinks = s.failedLinks := rfl

/-! ### modCore -/

@[simp] theorem modCore_cycle (c : Nat) (f : Core → Core) : (s.modCore c f).cycle = s.cycle := rfl
@[simp] theorem modCore_turn (c : Nat) (f : Core → Core) : (s.modCore c f).turn = s.turn := rfl
@[simp] theorem modCore_begun (c : Nat) (f : Core → Core) : (s.modCore c f).begun = s.begun := rfl
@[simp] theorem modCore_agenda (c : Nat) (f : Core → Core) : (s.modCore c f).agenda = s.agenda := rfl
@[simp] theorem modCore_late (c : Nat) (f : Core → Core) : (s.modCore c f).late = s.late := rfl
@[simp] theorem modCore_who (c : Nat) (f : Core → Core) : (s.modCore c f).who = s.who := rfl
@[simp] theorem modCore_stalled (c : Nat) (f : Core → Core) : (s.modCore c f).stalled = s.stalled := rfl
@[simp] theorem modCore_asked (c : Nat) (f : Core → Core) : (s.modCore c f).asked = s.asked := rfl
@[simp] theorem modCore_deciding (c : Nat) (f : Core → Core) : (s.modCore c f).deciding = s.deciding := rfl
@[simp] theorem modCore_free (c : Nat) (f : Core → Core) : (s.modCore c f).free = s.free := rfl
@[simp] theorem modCore_serials (c : Nat) (f : Core → Core) : (s.modCore c f).serials = s.serials := rfl
@[simp] theorem modCore_clusters (c : Nat) (f : Core → Core) : (s.modCore c f).clusters = s.clusters := rfl
@[simp] theorem modCore_groups (c : Nat) (f : Core → Core) : (s.modCore c f).groups = s.groups := rfl
@[simp] theorem modCore_dies (c : Nat) (f : Core → Core) : (s.modCore c f).dies = s.dies := rfl
@[simp] theorem modCore_launches (c : Nat) (f : Core → Core) : (s.modCore c f).launches = s.launches := rfl
@[simp] theorem modCore_images (c : Nat) (f : Core → Core) : (s.modCore c f).images = s.images := rfl
@[simp] theorem modCore_modules (c : Nat) (f : Core → Core) : (s.modCore c f).modules = s.modules := rfl
@[simp] theorem modCore_ferry (c : Nat) (f : Core → Core) : (s.modCore c f).ferry = s.ferry := rfl
@[simp] theorem modCore_mem (c : Nat) (f : Core → Core) : (s.modCore c f).mem = s.mem := rfl
@[simp] theorem modCore_overwritten (c : Nat) (f : Core → Core) : (s.modCore c f).overwritten = s.overwritten := rfl
@[simp] theorem modCore_posted (c : Nat) (f : Core → Core) : (s.modCore c f).posted = s.posted := rfl
@[simp] theorem modCore_zeroBlocks (c : Nat) (f : Core → Core) : (s.modCore c f).zeroBlocks = s.zeroBlocks := rfl
@[simp] theorem modCore_poison (c : Nat) (f : Core → Core) : (s.modCore c f).poison = s.poison := rfl
@[simp] theorem modCore_host (c : Nat) (f : Core → Core) : (s.modCore c f).host = s.host := rfl
@[simp] theorem modCore_spdm (c : Nat) (f : Core → Core) : (s.modCore c f).spdm = s.spdm := rfl
@[simp] theorem modCore_boot (c : Nat) (f : Core → Core) : (s.modCore c f).boot = s.boot := rfl
@[simp] theorem modCore_refusals (c : Nat) (f : Core → Core) : (s.modCore c f).refusals = s.refusals := rfl
@[simp] theorem modCore_failedLinks (c : Nat) (f : Core → Core) : (s.modCore c f).failedLinks = s.failedLinks := rfl

/-! ### setCtx -/

@[simp] theorem setCtx_cycle (w : CtxId) (c : Ctx) : (s.setCtx w c).cycle = s.cycle := rfl
@[simp] theorem setCtx_turn (w : CtxId) (c : Ctx) : (s.setCtx w c).turn = s.turn := rfl
@[simp] theorem setCtx_begun (w : CtxId) (c : Ctx) : (s.setCtx w c).begun = s.begun := rfl
@[simp] theorem setCtx_agenda (w : CtxId) (c : Ctx) : (s.setCtx w c).agenda = s.agenda := rfl
@[simp] theorem setCtx_late (w : CtxId) (c : Ctx) : (s.setCtx w c).late = s.late := rfl
@[simp] theorem setCtx_who (w : CtxId) (c : Ctx) : (s.setCtx w c).who = s.who := rfl
@[simp] theorem setCtx_stalled (w : CtxId) (c : Ctx) : (s.setCtx w c).stalled = s.stalled := rfl
@[simp] theorem setCtx_asked (w : CtxId) (c : Ctx) : (s.setCtx w c).asked = s.asked := rfl
@[simp] theorem setCtx_deciding (w : CtxId) (c : Ctx) : (s.setCtx w c).deciding = s.deciding := rfl
@[simp] theorem setCtx_free (w : CtxId) (c : Ctx) : (s.setCtx w c).free = s.free := rfl
@[simp] theorem setCtx_serials (w : CtxId) (c : Ctx) : (s.setCtx w c).serials = s.serials := rfl
@[simp] theorem setCtx_clusters (w : CtxId) (c : Ctx) : (s.setCtx w c).clusters = s.clusters := rfl
@[simp] theorem setCtx_groups (w : CtxId) (c : Ctx) : (s.setCtx w c).groups = s.groups := rfl
@[simp] theorem setCtx_dies (w : CtxId) (c : Ctx) : (s.setCtx w c).dies = s.dies := rfl
@[simp] theorem setCtx_launches (w : CtxId) (c : Ctx) : (s.setCtx w c).launches = s.launches := rfl
@[simp] theorem setCtx_images (w : CtxId) (c : Ctx) : (s.setCtx w c).images = s.images := rfl
@[simp] theorem setCtx_modules (w : CtxId) (c : Ctx) : (s.setCtx w c).modules = s.modules := rfl
@[simp] theorem setCtx_ferry (w : CtxId) (c : Ctx) : (s.setCtx w c).ferry = s.ferry := rfl
@[simp] theorem setCtx_mem (w : CtxId) (c : Ctx) : (s.setCtx w c).mem = s.mem := rfl
@[simp] theorem setCtx_overwritten (w : CtxId) (c : Ctx) : (s.setCtx w c).overwritten = s.overwritten := rfl
@[simp] theorem setCtx_posted (w : CtxId) (c : Ctx) : (s.setCtx w c).posted = s.posted := rfl
@[simp] theorem setCtx_zeroBlocks (w : CtxId) (c : Ctx) : (s.setCtx w c).zeroBlocks = s.zeroBlocks := rfl
@[simp] theorem setCtx_poison (w : CtxId) (c : Ctx) : (s.setCtx w c).poison = s.poison := rfl
@[simp] theorem setCtx_host (w : CtxId) (c : Ctx) : (s.setCtx w c).host = s.host := rfl
@[simp] theorem setCtx_spdm (w : CtxId) (c : Ctx) : (s.setCtx w c).spdm = s.spdm := rfl
@[simp] theorem setCtx_boot (w : CtxId) (c : Ctx) : (s.setCtx w c).boot = s.boot := rfl
@[simp] theorem setCtx_refusals (w : CtxId) (c : Ctx) : (s.setCtx w c).refusals = s.refusals := rfl
@[simp] theorem setCtx_failedLinks (w : CtxId) (c : Ctx) : (s.setCtx w c).failedLinks = s.failedLinks := rfl

/-! ### modCtx -/

@[simp] theorem modCtx_cycle (w : CtxId) (f : Ctx → Ctx) : (s.modCtx w f).cycle = s.cycle := rfl
@[simp] theorem modCtx_turn (w : CtxId) (f : Ctx → Ctx) : (s.modCtx w f).turn = s.turn := rfl
@[simp] theorem modCtx_begun (w : CtxId) (f : Ctx → Ctx) : (s.modCtx w f).begun = s.begun := rfl
@[simp] theorem modCtx_agenda (w : CtxId) (f : Ctx → Ctx) : (s.modCtx w f).agenda = s.agenda := rfl
@[simp] theorem modCtx_late (w : CtxId) (f : Ctx → Ctx) : (s.modCtx w f).late = s.late := rfl
@[simp] theorem modCtx_who (w : CtxId) (f : Ctx → Ctx) : (s.modCtx w f).who = s.who := rfl
@[simp] theorem modCtx_stalled (w : CtxId) (f : Ctx → Ctx) : (s.modCtx w f).stalled = s.stalled := rfl
@[simp] theorem modCtx_asked (w : CtxId) (f : Ctx → Ctx) : (s.modCtx w f).asked = s.asked := rfl
@[simp] theorem modCtx_deciding (w : CtxId) (f : Ctx → Ctx) : (s.modCtx w f).deciding = s.deciding := rfl
@[simp] theorem modCtx_free (w : CtxId) (f : Ctx → Ctx) : (s.modCtx w f).free = s.free := rfl
@[simp] theorem modCtx_serials (w : CtxId) (f : Ctx → Ctx) : (s.modCtx w f).serials = s.serials := rfl
@[simp] theorem modCtx_clusters (w : CtxId) (f : Ctx → Ctx) : (s.modCtx w f).clusters = s.clusters := rfl
@[simp] theorem modCtx_groups (w : CtxId) (f : Ctx → Ctx) : (s.modCtx w f).groups = s.groups := rfl
@[simp] theorem modCtx_dies (w : CtxId) (f : Ctx → Ctx) : (s.modCtx w f).dies = s.dies := rfl
@[simp] theorem modCtx_launches (w : CtxId) (f : Ctx → Ctx) : (s.modCtx w f).launches = s.launches := rfl
@[simp] theorem modCtx_images (w : CtxId) (f : Ctx → Ctx) : (s.modCtx w f).images = s.images := rfl
@[simp] theorem modCtx_modules (w : CtxId) (f : Ctx → Ctx) : (s.modCtx w f).modules = s.modules := rfl
@[simp] theorem modCtx_ferry (w : CtxId) (f : Ctx → Ctx) : (s.modCtx w f).ferry = s.ferry := rfl
@[simp] theorem modCtx_mem (w : CtxId) (f : Ctx → Ctx) : (s.modCtx w f).mem = s.mem := rfl
@[simp] theorem modCtx_overwritten (w : CtxId) (f : Ctx → Ctx) : (s.modCtx w f).overwritten = s.overwritten := rfl
@[simp] theorem modCtx_posted (w : CtxId) (f : Ctx → Ctx) : (s.modCtx w f).posted = s.posted := rfl
@[simp] theorem modCtx_zeroBlocks (w : CtxId) (f : Ctx → Ctx) : (s.modCtx w f).zeroBlocks = s.zeroBlocks := rfl
@[simp] theorem modCtx_poison (w : CtxId) (f : Ctx → Ctx) : (s.modCtx w f).poison = s.poison := rfl
@[simp] theorem modCtx_host (w : CtxId) (f : Ctx → Ctx) : (s.modCtx w f).host = s.host := rfl
@[simp] theorem modCtx_spdm (w : CtxId) (f : Ctx → Ctx) : (s.modCtx w f).spdm = s.spdm := rfl
@[simp] theorem modCtx_boot (w : CtxId) (f : Ctx → Ctx) : (s.modCtx w f).boot = s.boot := rfl
@[simp] theorem modCtx_refusals (w : CtxId) (f : Ctx → Ctx) : (s.modCtx w f).refusals = s.refusals := rfl
@[simp] theorem modCtx_failedLinks (w : CtxId) (f : Ctx → Ctx) : (s.modCtx w f).failedLinks = s.failedLinks := rfl

/-! ### setCluster -/

@[simp] theorem setCluster_cycle (c : Nat) (k : Cluster) : (s.setCluster c k).cycle = s.cycle := rfl
@[simp] theorem setCluster_turn (c : Nat) (k : Cluster) : (s.setCluster c k).turn = s.turn := rfl
@[simp] theorem setCluster_begun (c : Nat) (k : Cluster) : (s.setCluster c k).begun = s.begun := rfl
@[simp] theorem setCluster_agenda (c : Nat) (k : Cluster) : (s.setCluster c k).agenda = s.agenda := rfl
@[simp] theorem setCluster_late (c : Nat) (k : Cluster) : (s.setCluster c k).late = s.late := rfl
@[simp] theorem setCluster_who (c : Nat) (k : Cluster) : (s.setCluster c k).who = s.who := rfl
@[simp] theorem setCluster_stalled (c : Nat) (k : Cluster) : (s.setCluster c k).stalled = s.stalled := rfl
@[simp] theorem setCluster_asked (c : Nat) (k : Cluster) : (s.setCluster c k).asked = s.asked := rfl
@[simp] theorem setCluster_deciding (c : Nat) (k : Cluster) : (s.setCluster c k).deciding = s.deciding := rfl
@[simp] theorem setCluster_free (c : Nat) (k : Cluster) : (s.setCluster c k).free = s.free := rfl
@[simp] theorem setCluster_serials (c : Nat) (k : Cluster) : (s.setCluster c k).serials = s.serials := rfl
@[simp] theorem setCluster_cores (c : Nat) (k : Cluster) : (s.setCluster c k).cores = s.cores := rfl
@[simp] theorem setCluster_groups (c : Nat) (k : Cluster) : (s.setCluster c k).groups = s.groups := rfl
@[simp] theorem setCluster_dies (c : Nat) (k : Cluster) : (s.setCluster c k).dies = s.dies := rfl
@[simp] theorem setCluster_launches (c : Nat) (k : Cluster) : (s.setCluster c k).launches = s.launches := rfl
@[simp] theorem setCluster_images (c : Nat) (k : Cluster) : (s.setCluster c k).images = s.images := rfl
@[simp] theorem setCluster_modules (c : Nat) (k : Cluster) : (s.setCluster c k).modules = s.modules := rfl
@[simp] theorem setCluster_ferry (c : Nat) (k : Cluster) : (s.setCluster c k).ferry = s.ferry := rfl
@[simp] theorem setCluster_mem (c : Nat) (k : Cluster) : (s.setCluster c k).mem = s.mem := rfl
@[simp] theorem setCluster_overwritten (c : Nat) (k : Cluster) : (s.setCluster c k).overwritten = s.overwritten := rfl
@[simp] theorem setCluster_posted (c : Nat) (k : Cluster) : (s.setCluster c k).posted = s.posted := rfl
@[simp] theorem setCluster_zeroBlocks (c : Nat) (k : Cluster) : (s.setCluster c k).zeroBlocks = s.zeroBlocks := rfl
@[simp] theorem setCluster_poison (c : Nat) (k : Cluster) : (s.setCluster c k).poison = s.poison := rfl
@[simp] theorem setCluster_host (c : Nat) (k : Cluster) : (s.setCluster c k).host = s.host := rfl
@[simp] theorem setCluster_spdm (c : Nat) (k : Cluster) : (s.setCluster c k).spdm = s.spdm := rfl
@[simp] theorem setCluster_boot (c : Nat) (k : Cluster) : (s.setCluster c k).boot = s.boot := rfl
@[simp] theorem setCluster_refusals (c : Nat) (k : Cluster) : (s.setCluster c k).refusals = s.refusals := rfl
@[simp] theorem setCluster_failedLinks (c : Nat) (k : Cluster) : (s.setCluster c k).failedLinks = s.failedLinks := rfl

/-! ### modCluster -/

@[simp] theorem modCluster_cycle (c : Nat) (f : Cluster → Cluster) : (s.modCluster c f).cycle = s.cycle := rfl
@[simp] theorem modCluster_turn (c : Nat) (f : Cluster → Cluster) : (s.modCluster c f).turn = s.turn := rfl
@[simp] theorem modCluster_begun (c : Nat) (f : Cluster → Cluster) : (s.modCluster c f).begun = s.begun := rfl
@[simp] theorem modCluster_agenda (c : Nat) (f : Cluster → Cluster) : (s.modCluster c f).agenda = s.agenda := rfl
@[simp] theorem modCluster_late (c : Nat) (f : Cluster → Cluster) : (s.modCluster c f).late = s.late := rfl
@[simp] theorem modCluster_who (c : Nat) (f : Cluster → Cluster) : (s.modCluster c f).who = s.who := rfl
@[simp] theorem modCluster_stalled (c : Nat) (f : Cluster → Cluster) : (s.modCluster c f).stalled = s.stalled := rfl
@[simp] theorem modCluster_asked (c : Nat) (f : Cluster → Cluster) : (s.modCluster c f).asked = s.asked := rfl
@[simp] theorem modCluster_deciding (c : Nat) (f : Cluster → Cluster) : (s.modCluster c f).deciding = s.deciding := rfl
@[simp] theorem modCluster_free (c : Nat) (f : Cluster → Cluster) : (s.modCluster c f).free = s.free := rfl
@[simp] theorem modCluster_serials (c : Nat) (f : Cluster → Cluster) : (s.modCluster c f).serials = s.serials := rfl
@[simp] theorem modCluster_cores (c : Nat) (f : Cluster → Cluster) : (s.modCluster c f).cores = s.cores := rfl
@[simp] theorem modCluster_groups (c : Nat) (f : Cluster → Cluster) : (s.modCluster c f).groups = s.groups := rfl
@[simp] theorem modCluster_dies (c : Nat) (f : Cluster → Cluster) : (s.modCluster c f).dies = s.dies := rfl
@[simp] theorem modCluster_launches (c : Nat) (f : Cluster → Cluster) : (s.modCluster c f).launches = s.launches := rfl
@[simp] theorem modCluster_images (c : Nat) (f : Cluster → Cluster) : (s.modCluster c f).images = s.images := rfl
@[simp] theorem modCluster_modules (c : Nat) (f : Cluster → Cluster) : (s.modCluster c f).modules = s.modules := rfl
@[simp] theorem modCluster_ferry (c : Nat) (f : Cluster → Cluster) : (s.modCluster c f).ferry = s.ferry := rfl
@[simp] theorem modCluster_mem (c : Nat) (f : Cluster → Cluster) : (s.modCluster c f).mem = s.mem := rfl
@[simp] theorem modCluster_overwritten (c : Nat) (f : Cluster → Cluster) : (s.modCluster c f).overwritten = s.overwritten := rfl
@[simp] theorem modCluster_posted (c : Nat) (f : Cluster → Cluster) : (s.modCluster c f).posted = s.posted := rfl
@[simp] theorem modCluster_zeroBlocks (c : Nat) (f : Cluster → Cluster) : (s.modCluster c f).zeroBlocks = s.zeroBlocks := rfl
@[simp] theorem modCluster_poison (c : Nat) (f : Cluster → Cluster) : (s.modCluster c f).poison = s.poison := rfl
@[simp] theorem modCluster_host (c : Nat) (f : Cluster → Cluster) : (s.modCluster c f).host = s.host := rfl
@[simp] theorem modCluster_spdm (c : Nat) (f : Cluster → Cluster) : (s.modCluster c f).spdm = s.spdm := rfl
@[simp] theorem modCluster_boot (c : Nat) (f : Cluster → Cluster) : (s.modCluster c f).boot = s.boot := rfl
@[simp] theorem modCluster_refusals (c : Nat) (f : Cluster → Cluster) : (s.modCluster c f).refusals = s.refusals := rfl
@[simp] theorem modCluster_failedLinks (c : Nat) (f : Cluster → Cluster) : (s.modCluster c f).failedLinks = s.failedLinks := rfl

/-! ### setGroup -/

@[simp] theorem setGroup_cycle (g : Nat) (k : Group) : (s.setGroup g k).cycle = s.cycle := rfl
@[simp] theorem setGroup_turn (g : Nat) (k : Group) : (s.setGroup g k).turn = s.turn := rfl
@[simp] theorem setGroup_begun (g : Nat) (k : Group) : (s.setGroup g k).begun = s.begun := rfl
@[simp] theorem setGroup_agenda (g : Nat) (k : Group) : (s.setGroup g k).agenda = s.agenda := rfl
@[simp] theorem setGroup_late (g : Nat) (k : Group) : (s.setGroup g k).late = s.late := rfl
@[simp] theorem setGroup_who (g : Nat) (k : Group) : (s.setGroup g k).who = s.who := rfl
@[simp] theorem setGroup_stalled (g : Nat) (k : Group) : (s.setGroup g k).stalled = s.stalled := rfl
@[simp] theorem setGroup_asked (g : Nat) (k : Group) : (s.setGroup g k).asked = s.asked := rfl
@[simp] theorem setGroup_deciding (g : Nat) (k : Group) : (s.setGroup g k).deciding = s.deciding := rfl
@[simp] theorem setGroup_free (g : Nat) (k : Group) : (s.setGroup g k).free = s.free := rfl
@[simp] theorem setGroup_serials (g : Nat) (k : Group) : (s.setGroup g k).serials = s.serials := rfl
@[simp] theorem setGroup_cores (g : Nat) (k : Group) : (s.setGroup g k).cores = s.cores := rfl
@[simp] theorem setGroup_clusters (g : Nat) (k : Group) : (s.setGroup g k).clusters = s.clusters := rfl
@[simp] theorem setGroup_dies (g : Nat) (k : Group) : (s.setGroup g k).dies = s.dies := rfl
@[simp] theorem setGroup_launches (g : Nat) (k : Group) : (s.setGroup g k).launches = s.launches := rfl
@[simp] theorem setGroup_images (g : Nat) (k : Group) : (s.setGroup g k).images = s.images := rfl
@[simp] theorem setGroup_modules (g : Nat) (k : Group) : (s.setGroup g k).modules = s.modules := rfl
@[simp] theorem setGroup_ferry (g : Nat) (k : Group) : (s.setGroup g k).ferry = s.ferry := rfl
@[simp] theorem setGroup_mem (g : Nat) (k : Group) : (s.setGroup g k).mem = s.mem := rfl
@[simp] theorem setGroup_overwritten (g : Nat) (k : Group) : (s.setGroup g k).overwritten = s.overwritten := rfl
@[simp] theorem setGroup_posted (g : Nat) (k : Group) : (s.setGroup g k).posted = s.posted := rfl
@[simp] theorem setGroup_zeroBlocks (g : Nat) (k : Group) : (s.setGroup g k).zeroBlocks = s.zeroBlocks := rfl
@[simp] theorem setGroup_poison (g : Nat) (k : Group) : (s.setGroup g k).poison = s.poison := rfl
@[simp] theorem setGroup_host (g : Nat) (k : Group) : (s.setGroup g k).host = s.host := rfl
@[simp] theorem setGroup_spdm (g : Nat) (k : Group) : (s.setGroup g k).spdm = s.spdm := rfl
@[simp] theorem setGroup_boot (g : Nat) (k : Group) : (s.setGroup g k).boot = s.boot := rfl
@[simp] theorem setGroup_refusals (g : Nat) (k : Group) : (s.setGroup g k).refusals = s.refusals := rfl
@[simp] theorem setGroup_failedLinks (g : Nat) (k : Group) : (s.setGroup g k).failedLinks = s.failedLinks := rfl

/-! ### modGroup -/

@[simp] theorem modGroup_cycle (g : Nat) (f : Group → Group) : (s.modGroup g f).cycle = s.cycle := rfl
@[simp] theorem modGroup_turn (g : Nat) (f : Group → Group) : (s.modGroup g f).turn = s.turn := rfl
@[simp] theorem modGroup_begun (g : Nat) (f : Group → Group) : (s.modGroup g f).begun = s.begun := rfl
@[simp] theorem modGroup_agenda (g : Nat) (f : Group → Group) : (s.modGroup g f).agenda = s.agenda := rfl
@[simp] theorem modGroup_late (g : Nat) (f : Group → Group) : (s.modGroup g f).late = s.late := rfl
@[simp] theorem modGroup_who (g : Nat) (f : Group → Group) : (s.modGroup g f).who = s.who := rfl
@[simp] theorem modGroup_stalled (g : Nat) (f : Group → Group) : (s.modGroup g f).stalled = s.stalled := rfl
@[simp] theorem modGroup_asked (g : Nat) (f : Group → Group) : (s.modGroup g f).asked = s.asked := rfl
@[simp] theorem modGroup_deciding (g : Nat) (f : Group → Group) : (s.modGroup g f).deciding = s.deciding := rfl
@[simp] theorem modGroup_free (g : Nat) (f : Group → Group) : (s.modGroup g f).free = s.free := rfl
@[simp] theorem modGroup_serials (g : Nat) (f : Group → Group) : (s.modGroup g f).serials = s.serials := rfl
@[simp] theorem modGroup_cores (g : Nat) (f : Group → Group) : (s.modGroup g f).cores = s.cores := rfl
@[simp] theorem modGroup_clusters (g : Nat) (f : Group → Group) : (s.modGroup g f).clusters = s.clusters := rfl
@[simp] theorem modGroup_dies (g : Nat) (f : Group → Group) : (s.modGroup g f).dies = s.dies := rfl
@[simp] theorem modGroup_launches (g : Nat) (f : Group → Group) : (s.modGroup g f).launches = s.launches := rfl
@[simp] theorem modGroup_images (g : Nat) (f : Group → Group) : (s.modGroup g f).images = s.images := rfl
@[simp] theorem modGroup_modules (g : Nat) (f : Group → Group) : (s.modGroup g f).modules = s.modules := rfl
@[simp] theorem modGroup_ferry (g : Nat) (f : Group → Group) : (s.modGroup g f).ferry = s.ferry := rfl
@[simp] theorem modGroup_mem (g : Nat) (f : Group → Group) : (s.modGroup g f).mem = s.mem := rfl
@[simp] theorem modGroup_overwritten (g : Nat) (f : Group → Group) : (s.modGroup g f).overwritten = s.overwritten := rfl
@[simp] theorem modGroup_posted (g : Nat) (f : Group → Group) : (s.modGroup g f).posted = s.posted := rfl
@[simp] theorem modGroup_zeroBlocks (g : Nat) (f : Group → Group) : (s.modGroup g f).zeroBlocks = s.zeroBlocks := rfl
@[simp] theorem modGroup_poison (g : Nat) (f : Group → Group) : (s.modGroup g f).poison = s.poison := rfl
@[simp] theorem modGroup_host (g : Nat) (f : Group → Group) : (s.modGroup g f).host = s.host := rfl
@[simp] theorem modGroup_spdm (g : Nat) (f : Group → Group) : (s.modGroup g f).spdm = s.spdm := rfl
@[simp] theorem modGroup_boot (g : Nat) (f : Group → Group) : (s.modGroup g f).boot = s.boot := rfl
@[simp] theorem modGroup_refusals (g : Nat) (f : Group → Group) : (s.modGroup g f).refusals = s.refusals := rfl
@[simp] theorem modGroup_failedLinks (g : Nat) (f : Group → Group) : (s.modGroup g f).failedLinks = s.failedLinks := rfl

/-! ### setDie -/

@[simp] theorem setDie_cycle (d : Nat) (k : Die) : (s.setDie d k).cycle = s.cycle := rfl
@[simp] theorem setDie_turn (d : Nat) (k : Die) : (s.setDie d k).turn = s.turn := rfl
@[simp] theorem setDie_begun (d : Nat) (k : Die) : (s.setDie d k).begun = s.begun := rfl
@[simp] theorem setDie_agenda (d : Nat) (k : Die) : (s.setDie d k).agenda = s.agenda := rfl
@[simp] theorem setDie_late (d : Nat) (k : Die) : (s.setDie d k).late = s.late := rfl
@[simp] theorem setDie_who (d : Nat) (k : Die) : (s.setDie d k).who = s.who := rfl
@[simp] theorem setDie_stalled (d : Nat) (k : Die) : (s.setDie d k).stalled = s.stalled := rfl
@[simp] theorem setDie_asked (d : Nat) (k : Die) : (s.setDie d k).asked = s.asked := rfl
@[simp] theorem setDie_deciding (d : Nat) (k : Die) : (s.setDie d k).deciding = s.deciding := rfl
@[simp] theorem setDie_free (d : Nat) (k : Die) : (s.setDie d k).free = s.free := rfl
@[simp] theorem setDie_serials (d : Nat) (k : Die) : (s.setDie d k).serials = s.serials := rfl
@[simp] theorem setDie_cores (d : Nat) (k : Die) : (s.setDie d k).cores = s.cores := rfl
@[simp] theorem setDie_clusters (d : Nat) (k : Die) : (s.setDie d k).clusters = s.clusters := rfl
@[simp] theorem setDie_groups (d : Nat) (k : Die) : (s.setDie d k).groups = s.groups := rfl
@[simp] theorem setDie_launches (d : Nat) (k : Die) : (s.setDie d k).launches = s.launches := rfl
@[simp] theorem setDie_images (d : Nat) (k : Die) : (s.setDie d k).images = s.images := rfl
@[simp] theorem setDie_modules (d : Nat) (k : Die) : (s.setDie d k).modules = s.modules := rfl
@[simp] theorem setDie_ferry (d : Nat) (k : Die) : (s.setDie d k).ferry = s.ferry := rfl
@[simp] theorem setDie_mem (d : Nat) (k : Die) : (s.setDie d k).mem = s.mem := rfl
@[simp] theorem setDie_overwritten (d : Nat) (k : Die) : (s.setDie d k).overwritten = s.overwritten := rfl
@[simp] theorem setDie_posted (d : Nat) (k : Die) : (s.setDie d k).posted = s.posted := rfl
@[simp] theorem setDie_zeroBlocks (d : Nat) (k : Die) : (s.setDie d k).zeroBlocks = s.zeroBlocks := rfl
@[simp] theorem setDie_poison (d : Nat) (k : Die) : (s.setDie d k).poison = s.poison := rfl
@[simp] theorem setDie_host (d : Nat) (k : Die) : (s.setDie d k).host = s.host := rfl
@[simp] theorem setDie_spdm (d : Nat) (k : Die) : (s.setDie d k).spdm = s.spdm := rfl
@[simp] theorem setDie_boot (d : Nat) (k : Die) : (s.setDie d k).boot = s.boot := rfl
@[simp] theorem setDie_refusals (d : Nat) (k : Die) : (s.setDie d k).refusals = s.refusals := rfl
@[simp] theorem setDie_failedLinks (d : Nat) (k : Die) : (s.setDie d k).failedLinks = s.failedLinks := rfl

/-! ### modDie -/

@[simp] theorem modDie_cycle (d : Nat) (f : Die → Die) : (s.modDie d f).cycle = s.cycle := rfl
@[simp] theorem modDie_turn (d : Nat) (f : Die → Die) : (s.modDie d f).turn = s.turn := rfl
@[simp] theorem modDie_begun (d : Nat) (f : Die → Die) : (s.modDie d f).begun = s.begun := rfl
@[simp] theorem modDie_agenda (d : Nat) (f : Die → Die) : (s.modDie d f).agenda = s.agenda := rfl
@[simp] theorem modDie_late (d : Nat) (f : Die → Die) : (s.modDie d f).late = s.late := rfl
@[simp] theorem modDie_who (d : Nat) (f : Die → Die) : (s.modDie d f).who = s.who := rfl
@[simp] theorem modDie_stalled (d : Nat) (f : Die → Die) : (s.modDie d f).stalled = s.stalled := rfl
@[simp] theorem modDie_asked (d : Nat) (f : Die → Die) : (s.modDie d f).asked = s.asked := rfl
@[simp] theorem modDie_deciding (d : Nat) (f : Die → Die) : (s.modDie d f).deciding = s.deciding := rfl
@[simp] theorem modDie_free (d : Nat) (f : Die → Die) : (s.modDie d f).free = s.free := rfl
@[simp] theorem modDie_serials (d : Nat) (f : Die → Die) : (s.modDie d f).serials = s.serials := rfl
@[simp] theorem modDie_cores (d : Nat) (f : Die → Die) : (s.modDie d f).cores = s.cores := rfl
@[simp] theorem modDie_clusters (d : Nat) (f : Die → Die) : (s.modDie d f).clusters = s.clusters := rfl
@[simp] theorem modDie_groups (d : Nat) (f : Die → Die) : (s.modDie d f).groups = s.groups := rfl
@[simp] theorem modDie_launches (d : Nat) (f : Die → Die) : (s.modDie d f).launches = s.launches := rfl
@[simp] theorem modDie_images (d : Nat) (f : Die → Die) : (s.modDie d f).images = s.images := rfl
@[simp] theorem modDie_modules (d : Nat) (f : Die → Die) : (s.modDie d f).modules = s.modules := rfl
@[simp] theorem modDie_ferry (d : Nat) (f : Die → Die) : (s.modDie d f).ferry = s.ferry := rfl
@[simp] theorem modDie_mem (d : Nat) (f : Die → Die) : (s.modDie d f).mem = s.mem := rfl
@[simp] theorem modDie_overwritten (d : Nat) (f : Die → Die) : (s.modDie d f).overwritten = s.overwritten := rfl
@[simp] theorem modDie_posted (d : Nat) (f : Die → Die) : (s.modDie d f).posted = s.posted := rfl
@[simp] theorem modDie_zeroBlocks (d : Nat) (f : Die → Die) : (s.modDie d f).zeroBlocks = s.zeroBlocks := rfl
@[simp] theorem modDie_poison (d : Nat) (f : Die → Die) : (s.modDie d f).poison = s.poison := rfl
@[simp] theorem modDie_host (d : Nat) (f : Die → Die) : (s.modDie d f).host = s.host := rfl
@[simp] theorem modDie_spdm (d : Nat) (f : Die → Die) : (s.modDie d f).spdm = s.spdm := rfl
@[simp] theorem modDie_boot (d : Nat) (f : Die → Die) : (s.modDie d f).boot = s.boot := rfl
@[simp] theorem modDie_refusals (d : Nat) (f : Die → Die) : (s.modDie d f).refusals = s.refusals := rfl
@[simp] theorem modDie_failedLinks (d : Nat) (f : Die → Die) : (s.modDie d f).failedLinks = s.failedLinks := rfl

/-! ### setLaunch -/

@[simp] theorem setLaunch_cycle (l : Launch) : (s.setLaunch l).cycle = s.cycle := rfl
@[simp] theorem setLaunch_turn (l : Launch) : (s.setLaunch l).turn = s.turn := rfl
@[simp] theorem setLaunch_begun (l : Launch) : (s.setLaunch l).begun = s.begun := rfl
@[simp] theorem setLaunch_agenda (l : Launch) : (s.setLaunch l).agenda = s.agenda := rfl
@[simp] theorem setLaunch_late (l : Launch) : (s.setLaunch l).late = s.late := rfl
@[simp] theorem setLaunch_who (l : Launch) : (s.setLaunch l).who = s.who := rfl
@[simp] theorem setLaunch_stalled (l : Launch) : (s.setLaunch l).stalled = s.stalled := rfl
@[simp] theorem setLaunch_asked (l : Launch) : (s.setLaunch l).asked = s.asked := rfl
@[simp] theorem setLaunch_deciding (l : Launch) : (s.setLaunch l).deciding = s.deciding := rfl
@[simp] theorem setLaunch_free (l : Launch) : (s.setLaunch l).free = s.free := rfl
@[simp] theorem setLaunch_serials (l : Launch) : (s.setLaunch l).serials = s.serials := rfl
@[simp] theorem setLaunch_cores (l : Launch) : (s.setLaunch l).cores = s.cores := rfl
@[simp] theorem setLaunch_clusters (l : Launch) : (s.setLaunch l).clusters = s.clusters := rfl
@[simp] theorem setLaunch_groups (l : Launch) : (s.setLaunch l).groups = s.groups := rfl
@[simp] theorem setLaunch_dies (l : Launch) : (s.setLaunch l).dies = s.dies := rfl
@[simp] theorem setLaunch_images (l : Launch) : (s.setLaunch l).images = s.images := rfl
@[simp] theorem setLaunch_modules (l : Launch) : (s.setLaunch l).modules = s.modules := rfl
@[simp] theorem setLaunch_ferry (l : Launch) : (s.setLaunch l).ferry = s.ferry := rfl
@[simp] theorem setLaunch_mem (l : Launch) : (s.setLaunch l).mem = s.mem := rfl
@[simp] theorem setLaunch_overwritten (l : Launch) : (s.setLaunch l).overwritten = s.overwritten := rfl
@[simp] theorem setLaunch_posted (l : Launch) : (s.setLaunch l).posted = s.posted := rfl
@[simp] theorem setLaunch_zeroBlocks (l : Launch) : (s.setLaunch l).zeroBlocks = s.zeroBlocks := rfl
@[simp] theorem setLaunch_poison (l : Launch) : (s.setLaunch l).poison = s.poison := rfl
@[simp] theorem setLaunch_host (l : Launch) : (s.setLaunch l).host = s.host := rfl
@[simp] theorem setLaunch_spdm (l : Launch) : (s.setLaunch l).spdm = s.spdm := rfl
@[simp] theorem setLaunch_boot (l : Launch) : (s.setLaunch l).boot = s.boot := rfl
@[simp] theorem setLaunch_refusals (l : Launch) : (s.setLaunch l).refusals = s.refusals := rfl
@[simp] theorem setLaunch_failedLinks (l : Launch) : (s.setLaunch l).failedLinks = s.failedLinks := rfl

/-! ### post -/

@[simp] theorem post_cycle (due : Nat) (i : Instr) : (s.post due i).cycle = s.cycle := rfl
@[simp] theorem post_turn (due : Nat) (i : Instr) : (s.post due i).turn = s.turn := rfl
@[simp] theorem post_begun (due : Nat) (i : Instr) : (s.post due i).begun = s.begun := rfl
@[simp] theorem post_late (due : Nat) (i : Instr) : (s.post due i).late = s.late := rfl
@[simp] theorem post_who (due : Nat) (i : Instr) : (s.post due i).who = s.who := rfl
@[simp] theorem post_stalled (due : Nat) (i : Instr) : (s.post due i).stalled = s.stalled := rfl
@[simp] theorem post_asked (due : Nat) (i : Instr) : (s.post due i).asked = s.asked := rfl
@[simp] theorem post_deciding (due : Nat) (i : Instr) : (s.post due i).deciding = s.deciding := rfl
@[simp] theorem post_free (due : Nat) (i : Instr) : (s.post due i).free = s.free := rfl
@[simp] theorem post_serials (due : Nat) (i : Instr) : (s.post due i).serials = s.serials := rfl
@[simp] theorem post_cores (due : Nat) (i : Instr) : (s.post due i).cores = s.cores := rfl
@[simp] theorem post_clusters (due : Nat) (i : Instr) : (s.post due i).clusters = s.clusters := rfl
@[simp] theorem post_groups (due : Nat) (i : Instr) : (s.post due i).groups = s.groups := rfl
@[simp] theorem post_dies (due : Nat) (i : Instr) : (s.post due i).dies = s.dies := rfl
@[simp] theorem post_launches (due : Nat) (i : Instr) : (s.post due i).launches = s.launches := rfl
@[simp] theorem post_images (due : Nat) (i : Instr) : (s.post due i).images = s.images := rfl
@[simp] theorem post_modules (due : Nat) (i : Instr) : (s.post due i).modules = s.modules := rfl
@[simp] theorem post_ferry (due : Nat) (i : Instr) : (s.post due i).ferry = s.ferry := rfl
@[simp] theorem post_mem (due : Nat) (i : Instr) : (s.post due i).mem = s.mem := rfl
@[simp] theorem post_overwritten (due : Nat) (i : Instr) : (s.post due i).overwritten = s.overwritten := rfl
@[simp] theorem post_posted (due : Nat) (i : Instr) : (s.post due i).posted = s.posted := rfl
@[simp] theorem post_zeroBlocks (due : Nat) (i : Instr) : (s.post due i).zeroBlocks = s.zeroBlocks := rfl
@[simp] theorem post_poison (due : Nat) (i : Instr) : (s.post due i).poison = s.poison := rfl
@[simp] theorem post_host (due : Nat) (i : Instr) : (s.post due i).host = s.host := rfl
@[simp] theorem post_spdm (due : Nat) (i : Instr) : (s.post due i).spdm = s.spdm := rfl
@[simp] theorem post_boot (due : Nat) (i : Instr) : (s.post due i).boot = s.boot := rfl
@[simp] theorem post_refusals (due : Nat) (i : Instr) : (s.post due i).refusals = s.refusals := rfl
@[simp] theorem post_failedLinks (due : Nat) (i : Instr) : (s.post due i).failedLinks = s.failedLinks := rfl

/-! ### postEnd -/

@[simp] theorem postEnd_cycle (n : Nat) (i : Instr) : (s.postEnd n i).cycle = s.cycle := rfl
@[simp] theorem postEnd_turn (n : Nat) (i : Instr) : (s.postEnd n i).turn = s.turn := rfl
@[simp] theorem postEnd_begun (n : Nat) (i : Instr) : (s.postEnd n i).begun = s.begun := rfl
@[simp] theorem postEnd_late (n : Nat) (i : Instr) : (s.postEnd n i).late = s.late := rfl
@[simp] theorem postEnd_who (n : Nat) (i : Instr) : (s.postEnd n i).who = s.who := rfl
@[simp] theorem postEnd_stalled (n : Nat) (i : Instr) : (s.postEnd n i).stalled = s.stalled := rfl
@[simp] theorem postEnd_asked (n : Nat) (i : Instr) : (s.postEnd n i).asked = s.asked := rfl
@[simp] theorem postEnd_deciding (n : Nat) (i : Instr) : (s.postEnd n i).deciding = s.deciding := rfl
@[simp] theorem postEnd_free (n : Nat) (i : Instr) : (s.postEnd n i).free = s.free := rfl
@[simp] theorem postEnd_serials (n : Nat) (i : Instr) : (s.postEnd n i).serials = s.serials := rfl
@[simp] theorem postEnd_cores (n : Nat) (i : Instr) : (s.postEnd n i).cores = s.cores := rfl
@[simp] theorem postEnd_clusters (n : Nat) (i : Instr) : (s.postEnd n i).clusters = s.clusters := rfl
@[simp] theorem postEnd_groups (n : Nat) (i : Instr) : (s.postEnd n i).groups = s.groups := rfl
@[simp] theorem postEnd_dies (n : Nat) (i : Instr) : (s.postEnd n i).dies = s.dies := rfl
@[simp] theorem postEnd_launches (n : Nat) (i : Instr) : (s.postEnd n i).launches = s.launches := rfl
@[simp] theorem postEnd_images (n : Nat) (i : Instr) : (s.postEnd n i).images = s.images := rfl
@[simp] theorem postEnd_modules (n : Nat) (i : Instr) : (s.postEnd n i).modules = s.modules := rfl
@[simp] theorem postEnd_ferry (n : Nat) (i : Instr) : (s.postEnd n i).ferry = s.ferry := rfl
@[simp] theorem postEnd_mem (n : Nat) (i : Instr) : (s.postEnd n i).mem = s.mem := rfl
@[simp] theorem postEnd_overwritten (n : Nat) (i : Instr) : (s.postEnd n i).overwritten = s.overwritten := rfl
@[simp] theorem postEnd_posted (n : Nat) (i : Instr) : (s.postEnd n i).posted = s.posted := rfl
@[simp] theorem postEnd_zeroBlocks (n : Nat) (i : Instr) : (s.postEnd n i).zeroBlocks = s.zeroBlocks := rfl
@[simp] theorem postEnd_poison (n : Nat) (i : Instr) : (s.postEnd n i).poison = s.poison := rfl
@[simp] theorem postEnd_host (n : Nat) (i : Instr) : (s.postEnd n i).host = s.host := rfl
@[simp] theorem postEnd_spdm (n : Nat) (i : Instr) : (s.postEnd n i).spdm = s.spdm := rfl
@[simp] theorem postEnd_boot (n : Nat) (i : Instr) : (s.postEnd n i).boot = s.boot := rfl
@[simp] theorem postEnd_refusals (n : Nat) (i : Instr) : (s.postEnd n i).refusals = s.refusals := rfl
@[simp] theorem postEnd_failedLinks (n : Nat) (i : Instr) : (s.postEnd n i).failedLinks = s.failedLinks := rfl

/-! ### drew -/

@[simp] theorem drew_cycle : s.drew.cycle = s.cycle := rfl
@[simp] theorem drew_turn : s.drew.turn = s.turn := rfl
@[simp] theorem drew_begun : s.drew.begun = s.begun := rfl
@[simp] theorem drew_agenda : s.drew.agenda = s.agenda := rfl
@[simp] theorem drew_late : s.drew.late = s.late := rfl
@[simp] theorem drew_who : s.drew.who = s.who := rfl
@[simp] theorem drew_stalled : s.drew.stalled = s.stalled := rfl
@[simp] theorem drew_asked : s.drew.asked = s.asked := rfl
@[simp] theorem drew_deciding : s.drew.deciding = s.deciding := rfl
@[simp] theorem drew_serials : s.drew.serials = s.serials := rfl
@[simp] theorem drew_cores : s.drew.cores = s.cores := rfl
@[simp] theorem drew_clusters : s.drew.clusters = s.clusters := rfl
@[simp] theorem drew_groups : s.drew.groups = s.groups := rfl
@[simp] theorem drew_dies : s.drew.dies = s.dies := rfl
@[simp] theorem drew_launches : s.drew.launches = s.launches := rfl
@[simp] theorem drew_images : s.drew.images = s.images := rfl
@[simp] theorem drew_modules : s.drew.modules = s.modules := rfl
@[simp] theorem drew_ferry : s.drew.ferry = s.ferry := rfl
@[simp] theorem drew_mem : s.drew.mem = s.mem := rfl
@[simp] theorem drew_overwritten : s.drew.overwritten = s.overwritten := rfl
@[simp] theorem drew_posted : s.drew.posted = s.posted := rfl
@[simp] theorem drew_zeroBlocks : s.drew.zeroBlocks = s.zeroBlocks := rfl
@[simp] theorem drew_poison : s.drew.poison = s.poison := rfl
@[simp] theorem drew_host : s.drew.host = s.host := rfl
@[simp] theorem drew_spdm : s.drew.spdm = s.spdm := rfl
@[simp] theorem drew_boot : s.drew.boot = s.boot := rfl
@[simp] theorem drew_refusals : s.drew.refusals = s.refusals := rfl
@[simp] theorem drew_failedLinks : s.drew.failedLinks = s.failedLinks := rfl

/-! ### What an update leaves of the part that it names -/

@[simp] theorem post_agenda (due : Nat) (i : Instr) : (s.post due i).agenda = agendaInsert due i s.agenda := rfl
@[simp] theorem postEnd_agenda (n : Nat) (i : Instr) : (s.postEnd n i).agenda = agendaInsert (s.cycle + n + 1) i s.agenda := rfl
@[simp] theorem drew_free : s.drew.free = s.free + 1 := rfl

@[simp] theorem core_setCore (c : Nat) (x : Core) : (s.setCore c x).core c = x := by simp [core, setCore]
theorem core_setCore_ne {c c' : Nat} (h : c' ≠ c) (x : Core) : (s.setCore c x).core c' = s.core c' := by simp [core, setCore, kget_kset_ne h]
@[simp] theorem core_modCore (c : Nat) (f : Core → Core) : (s.modCore c f).core c = f (s.core c) := by simp [modCore]
theorem core_modCore_ne {c c' : Nat} (h : c' ≠ c) (f : Core → Core) : (s.modCore c f).core c' = s.core c' := core_setCore_ne s h _
@[simp] theorem setCore_setCore (c : Nat) (x y : Core) : (s.setCore c x).setCore c y = s.setCore c y := by simp [setCore]
@[simp] theorem modCore_modCore (c : Nat) (f f' : Core → Core) : (s.modCore c f).modCore c f' = s.modCore c (fun x => f' (f x)) := by simp [modCore]

@[simp] theorem cluster_setCluster (c : Nat) (x : Cluster) : (s.setCluster c x).cluster c = x := by simp [cluster, setCluster]
theorem cluster_setCluster_ne {c c' : Nat} (h : c' ≠ c) (x : Cluster) : (s.setCluster c x).cluster c' = s.cluster c' := by simp [cluster, setCluster, kget_kset_ne h]
@[simp] theorem cluster_modCluster (c : Nat) (f : Cluster → Cluster) : (s.modCluster c f).cluster c = f (s.cluster c) := by simp [modCluster]
theorem cluster_modCluster_ne {c c' : Nat} (h : c' ≠ c) (f : Cluster → Cluster) : (s.modCluster c f).cluster c' = s.cluster c' := cluster_setCluster_ne s h _
@[simp] theorem setCluster_setCluster (c : Nat) (x y : Cluster) : (s.setCluster c x).setCluster c y = s.setCluster c y := by simp [setCluster]
@[simp] theorem modCluster_modCluster (c : Nat) (f f' : Cluster → Cluster) : (s.modCluster c f).modCluster c f' = s.modCluster c (fun x => f' (f x)) := by simp [modCluster]

@[simp] theorem group_setGroup (g : Nat) (x : Group) : (s.setGroup g x).group g = x := by simp [group, setGroup]
theorem group_setGroup_ne {g g' : Nat} (h : g' ≠ g) (x : Group) : (s.setGroup g x).group g' = s.group g' := by simp [group, setGroup, kget_kset_ne h]
@[simp] theorem group_modGroup (g : Nat) (f : Group → Group) : (s.modGroup g f).group g = f (s.group g) := by simp [modGroup]
theorem group_modGroup_ne {g g' : Nat} (h : g' ≠ g) (f : Group → Group) : (s.modGroup g f).group g' = s.group g' := group_setGroup_ne s h _
@[simp] theorem setGroup_setGroup (g : Nat) (x y : Group) : (s.setGroup g x).setGroup g y = s.setGroup g y := by simp [setGroup]
@[simp] theorem modGroup_modGroup (g : Nat) (f f' : Group → Group) : (s.modGroup g f).modGroup g f' = s.modGroup g (fun x => f' (f x)) := by simp [modGroup]

@[simp] theorem die_setDie (d : Nat) (x : Die) : (s.setDie d x).die d = x := by simp [die, setDie]
theorem die_setDie_ne {d d' : Nat} (h : d' ≠ d) (x : Die) : (s.setDie d x).die d' = s.die d' := by simp [die, setDie, kget_kset_ne h]
@[simp] theorem die_modDie (d : Nat) (f : Die → Die) : (s.modDie d f).die d = f (s.die d) := by simp [modDie]
theorem die_modDie_ne {d d' : Nat} (h : d' ≠ d) (f : Die → Die) : (s.modDie d f).die d' = s.die d' := die_setDie_ne s h _
@[simp] theorem setDie_setDie (d : Nat) (x y : Die) : (s.setDie d x).setDie d y = s.setDie d y := by simp [setDie]
@[simp] theorem modDie_modDie (d : Nat) (f f' : Die → Die) : (s.modDie d f).modDie d f' = s.modDie d (fun x => f' (f x)) := by simp [modDie]

@[simp] theorem ctx_setCtx (w : CtxId) (c : Ctx) : (s.setCtx w c).ctx w = c := by
  simp only [ctx, setCtx, core_modCore]
  exact Vector.getElem_set_self _
@[simp] theorem ctx_modCtx (w : CtxId) (f : Ctx → Ctx) : (s.modCtx w f).ctx w = f (s.ctx w) := by simp [modCtx]

theorem ctx_setCtx_ne {w v : CtxId} (h : v ≠ w) (c : Ctx) : (s.setCtx w c).ctx v = s.ctx v := by
  by_cases hc : v.core = w.core
  · have hx : w.ctx.val ≠ v.ctx.val := fun e => h (by cases v; cases w; simp_all [Fin.ext_iff])
    simp only [ctx, setCtx, hc, core_modCore]
    exact Vector.getElem_set_ne _ _ hx
  · simp [ctx, setCtx, core_modCore_ne s hc]

theorem ctx_modCtx_ne {w v : CtxId} (h : v ≠ w) (f : Ctx → Ctx) : (s.modCtx w f).ctx v = s.ctx v := ctx_setCtx_ne s h _

@[simp] theorem setCtx_setCtx (w : CtxId) (c d : Ctx) : (s.setCtx w c).setCtx w d = s.setCtx w d := by
  simp [setCtx]
@[simp] theorem modCtx_modCtx (w : CtxId) (f g : Ctx → Ctx) : (s.modCtx w f).modCtx w g = s.modCtx w (fun c => g (f c)) := by
  simp [modCtx]

/-- Parts of a core that a change of one of its contexts leaves. -/
@[simp] theorem core_setCtx (w : CtxId) (c : Ctx) :
    (s.setCtx w c).core w.core = { s.core w.core with ctxs := (s.core w.core).ctxs.set w.ctx.val c w.ctx.isLt } := by simp [setCtx]
@[simp] theorem core_modCtx (w : CtxId) (f : Ctx → Ctx) :
    (s.modCtx w f).core w.core = { s.core w.core with ctxs := (s.core w.core).ctxs.set w.ctx.val (f (s.ctx w)) w.ctx.isLt } := by simp [modCtx]
theorem core_setCtx_ne {w : CtxId} {k : Nat} (h : k ≠ w.core) (c : Ctx) : (s.setCtx w c).core k = s.core k := core_modCore_ne s h _
theorem core_modCtx_ne {w : CtxId} {k : Nat} (h : k ≠ w.core) (f : Ctx → Ctx) : (s.modCtx w f).core k = s.core k := core_modCore_ne s h _

/-- Parts of the state that live beside the cores are seen as before. -/
@[simp] theorem core_setCluster (c k : Nat) (x : Cluster) : (s.setCluster c x).core k = s.core k := rfl
@[simp] theorem core_modCluster (c k : Nat) (f : Cluster → Cluster) : (s.modCluster c f).core k = s.core k := rfl
@[simp] theorem core_modDie (d k : Nat) (f : Die → Die) : (s.modDie d f).core k = s.core k := rfl
@[simp] theorem core_modGroup (g k : Nat) (f : Group → Group) : (s.modGroup g f).core k = s.core k := rfl
@[simp] theorem core_post (due k : Nat) (i : Instr) : (s.post due i).core k = s.core k := rfl
@[simp] theorem core_postEnd (n k : Nat) (i : Instr) : (s.postEnd n i).core k = s.core k := rfl
@[simp] theorem core_drew (k : Nat) : s.drew.core k = s.core k := rfl
@[simp] theorem ctx_setCluster (c : Nat) (w : CtxId) (x : Cluster) : (s.setCluster c x).ctx w = s.ctx w := rfl
@[simp] theorem ctx_modCluster (c : Nat) (w : CtxId) (f : Cluster → Cluster) : (s.modCluster c f).ctx w = s.ctx w := rfl
@[simp] theorem ctx_modDie (d : Nat) (w : CtxId) (f : Die → Die) : (s.modDie d f).ctx w = s.ctx w := rfl
@[simp] theorem ctx_modGroup (g : Nat) (w : CtxId) (f : Group → Group) : (s.modGroup g f).ctx w = s.ctx w := rfl
@[simp] theorem ctx_post (due : Nat) (w : CtxId) (i : Instr) : (s.post due i).ctx w = s.ctx w := rfl
@[simp] theorem ctx_postEnd (n : Nat) (w : CtxId) (i : Instr) : (s.postEnd n i).ctx w = s.ctx w := rfl
@[simp] theorem ctx_drew (w : CtxId) : s.drew.ctx w = s.ctx w := rfl

/-! ### Updates of different parts stand in either order -/

theorem modCtx_post (due : Nat) (i : Instr) (w : CtxId) (f : Ctx → Ctx) : (s.post due i).modCtx w f = (s.modCtx w f).post due i := rfl
theorem modCore_post (due : Nat) (i : Instr) (c : Nat) (f : Core → Core) : (s.post due i).modCore c f = (s.modCore c f).post due i := rfl
theorem modCtx_drew (w : CtxId) (f : Ctx → Ctx) : s.drew.modCtx w f = (s.modCtx w f).drew := rfl
theorem modCore_drew (c : Nat) (f : Core → Core) : s.drew.modCore c f = (s.modCore c f).drew := rfl
theorem modCtx_modCluster (c : Nat) (g : Cluster → Cluster) (w : CtxId) (f : Ctx → Ctx) :
    (s.modCluster c g).modCtx w f = (s.modCtx w f).modCluster c g := rfl
theorem modCtx_modDie (d : Nat) (g : Die → Die) (w : CtxId) (f : Ctx → Ctx) : (s.modDie d g).modCtx w f = (s.modCtx w f).modDie d g := rfl
theorem modCtx_modGroup (n : Nat) (g : Group → Group) (w : CtxId) (f : Ctx → Ctx) : (s.modGroup n g).modCtx w f = (s.modCtx w f).modGroup n g := rfl

end Sys2Proof.Machine.State
end

