-- ==== Sys2Proof/Laws/Issue.lean ====
section
/-! SUPPORT. What issue does with a word when nothing stands in its way (01 R17 to R27, 02 R41): the lemmas that the claims about words
go through. -/

namespace Sys2Proof.Machine

/-- The values of the x sources of a word, in field order, when none is a bound port. -/
def xvals (c : Ctx) (srcs : List Dest) : List Word := srcs.filterMap (fun d => match d with | .x r => some (c.getX r) | _ => none)

@[simp] theorem xvals_nil (c : Ctx) : xvals c [] = [] := rfl
@[simp] theorem xvals_x (c : Ctx) (r : XReg) (l : List Dest) : xvals c (.x r :: l) = c.getX r :: xvals c l := rfl
@[simp] theorem xvals_v (c : Ctx) (r : VReg) (l : List Dest) : xvals c (.v r :: l) = xvals c l := rfl
@[simp] theorem xvals_m (c : Ctx) (r : MReg) (l : List Dest) : xvals c (.m r :: l) = xvals c l := rfl

section
variable {k : Core} {c : Ctx} {f : Form}

theorem Form.pops_eq_nil (h : ∀ r : XReg, Dest.x r ∈ f.srcs → k.isPort r = false) : f.pops k = [] := by
  simp only [Form.pops, List.filterMap_eq_nil_iff]
  intro d hd
  cases d with
  | x r => simp [h r hd]
  | v r => rfl
  | m r => rfl

theorem Form.pushes_eq_nil (h : ∀ r : XReg, Dest.x r ∈ f.dests → k.isPort r = false) : f.pushes k = [] := by
  simp only [Form.pushes, List.filterMap_eq_nil_iff]
  intro d hd
  cases d with
  | x r => simp [h r hd]
  | v r => rfl
  | m r => rfl

theorem Form.operands_eq (h : ∀ r : XReg, Dest.x r ∈ f.srcs → k.isPort r = false) : f.operands k c = xvals c f.srcs := by
  unfold Form.operands
  generalize f.srcs = l at h
  suffices H : ∀ (acc : List Word × List (Fin 8)), (l.foldl (fun acc d => match d with
      | .x r =>
        if k.isPort r then
          match portOf r with
          | some p => (acc.1 ++ [((k.ports.get p).fifo.drop (acc.2.filter (· = p)).length).headD 0], acc.2 ++ [p])
          | none => (acc.1 ++ [c.getX r], acc.2)
        else (acc.1 ++ [c.getX r], acc.2)
      | _ => acc) acc).1 = acc.1 ++ xvals c l from (H ([], [])).trans (by simp)
  induction l with
  | nil => simp
  | cons d l ih =>
    intro acc
    have ih := ih (fun r hr => h r (List.mem_cons_of_mem _ hr))
    cases d with
    | x r =>
      refine (ih _).trans ?_
      simp [h r (by simp)]
    | v r => exact (ih _).trans (by simp)
    | m r => exact (ih _).trans (by simp)

theorem Form.ready_of (hb : f.held = false) (hs : ∀ r : XReg, Dest.x r ∈ f.srcs → k.isPort r = false) (hd : ∀ r : XReg, Dest.x r ∈ f.dests → k.isPort r = false)
    (ho : ∀ o ∈ c.outstanding, o.dest ∉ f.srcs) : f.ready k c = true := by
  simp only [Form.ready, hb, Form.pops_eq_nil hs, Form.pushes_eq_nil hd, List.all_nil, Bool.not_false, Bool.true_and]
  simp only [List.all_eq_true, Bool.not_eq_true', List.any_eq_false, Bool.and_eq_true, decide_eq_true_eq, not_and]
  intro d hd o hmem he
  exact absurd (he ▸ hd) (ho o hmem)

theorem Form.hazard_eq_none (ho : ∀ o ∈ c.outstanding, o.dest ∉ f.srcs ++ f.dests) : f.hazard k c = none := by
  simp only [Form.hazard, List.find?_eq_none, Bool.and_eq_true, List.any_eq_true, decide_eq_true_eq, not_and, not_exists]
  intro d hd _ o hmem he
  exact absurd (he ▸ hd) (ho o hmem)

/-- A word without pending hints passes the checks in tenant mode outside ordered tasks, and where its form allows more, there too. -/
theorem Form.checks_eq_none (hh : c.hints.pending = false) (hm : f.monitor = true → k.mode = .monitor)
    (ht : f.inTask = false → ∀ slot, c.role ≠ .task slot) (hf : f.trap = none) : f.checks k c = none := by
  simp only [Hints.pending, Bool.or_eq_false_iff] at hh
  obtain ⟨⟨⟨h1, h2⟩, h3⟩, h4⟩ := hh
  simp only [Form.checks, h1, h2, h3, h4, hf]
  have : (f.monitor && decide (k.mode = .tenant)) = false := by
    cases hx : f.monitor with
    | false => rfl
    | true => simp [hm hx]
  rw [this]
  cases hi : f.inTask with
  | true => simp
  | false =>
    have := ht hi
    cases hr : c.role with
    | task slot => exact absurd hr (this slot)
    | _ => simp

/-- An immediate form passes the checks with the hints that it accepts. -/
theorem Form.checks_imm (hi : f.immHints = true) (h1 : c.hints.mod = none) (h2 : c.hints.reg = none)
    (h3 : c.hints.imx.isSome → c.hints.imm.isSome) (hm : f.monitor = false) (ht : f.inTask = true) (hf : f.trap = none) : f.checks k c = none := by
  simp only [Form.checks, hi, h1, h2, hm, ht, hf]
  cases hx : c.hints.imx with
  | none => simp
  | some x =>
    have := h3 (by simp [hx])
    cases hy : c.hints.imm with
    | none => simp [hy] at this
    | some y => simp

end

theorem State.forward_eq {s : State} {w : CtxId} {g : Core} (h : g.leads w = false) (held : Bool) (i : Instr) : s.forward w g held i = s := by
  simp [State.forward, h]

theorem State.gangFull_eq {s : State} {w : CtxId} (h : (s.core w.core).leads w = false) : s.gangFull w = false := by
  simp [State.gangFull, h]

/-- A word that is clear to issue runs its body on its operands. -/
theorem issue_clear {f : Form} {s : State} (body : List Word → State → Body) (h : s.Clear f.srcs f.dests)
    (hc : f.checks (s.core s.who.core) (s.ctx s.who) = none) (hb : f.held = false) :
    issue f body s = .next (f.finish s s.who [] [] (body (xvals (s.ctx s.who) f.srcs) s)) := by
  have hs : ∀ r : XReg, Dest.x r ∈ f.srcs → (s.core s.who.core).isPort r = false := fun r hr => h.noPort r (List.mem_append_left _ hr)
  have hd : ∀ r : XReg, Dest.x r ∈ f.dests → (s.core s.who.core).isPort r = false := fun r hr => h.noPort r (List.mem_append_right _ hr)
  have hr := Form.ready_of (c := s.ctx s.who) hb hs hd (fun o ho hm => h.noHazard o ho (List.mem_append_left _ hm))
  simp only [issue, hr, State.gangFull_eq h.noLead, hc, Form.run, Form.hazard_eq_none h.noHazard, Form.pops_eq_nil hs, Form.operands_eq hs]
  simp

section
variable {f : Form} {s t : State} {w : CtxId} (h : (s.core w.core).leads w = false)
include h

theorem Form.finish_done : f.finish s w [] [] (.done t) = t.retire w f.sw (seqNext (t.ctx w).pc) := by
  simp [Form.finish, Form.close, Form.restore, State.forward_eq h]

theorem Form.finish_jump (target : Word) : f.finish s w [] [] (.jump t target) = t.retire w f.sw target := by
  simp [Form.finish, Form.close, Form.restore, State.forward_eq h]

theorem Form.finish_hint : f.finish s w [] [] (.hint t) = t.modCtx w (fun c => c.retire t.cycle f.sw (seqNext c.pc) true) := by
  simp [Form.finish, Form.close, Form.restore, State.forward_eq h]

theorem Form.finish_park (p : Park) : f.finish s w [] [] (.park t p) = t.modCtx w (fun c => { c with park := p, parkedAt := t.cycle }) := by
  simp [Form.finish, Form.restore, State.forward_eq h]

theorem Form.finish_ended : f.finish s w [] [] (.ended t) = t := by
  simp [Form.finish, Form.close, State.forward_eq h]

end

theorem Form.finish_trap {f : Form} {s t : State} {w : CtxId} (p : Trap) : f.finish s w [] [] (.trap t p) = t.raise w p := by
  simp [Form.finish, Form.restore]

/-- A result to a register that is no bound port is the register's new value (04 R86). -/
theorem State.writeX_eq {s : State} {w : CtxId} {d : XReg} (v : Word) (h : (s.core w.core).isPort d = false) :
    s.writeX w d v = s.modCtx w (fun c => c.setX d v) := by
  simp [State.writeX, h]

/-- A word that only changes its own context. -/
theorem Form.finish_after {f : Form} {s : State} (h : (s.core s.who.core).leads s.who = false) (g : Ctx → Ctx)
    (hg : (g (s.ctx s.who)).pc = (s.ctx s.who).pc) :
    f.finish s s.who [] [] (.done (s.modCtx s.who g)) = s.afterWord f.sw g := by
  rw [Form.finish_done h]
  simp [State.retire, State.afterWord, State.after, hg]

end Sys2Proof.Machine
end

