-- ==== Sys2Proof/Laws/Registers.lean ====
section
/-! SUPPORT. The registers of a context: what is read after a write (00 R6), and what a write leaves. -/

namespace Sys2Proof.Machine.Ctx

variable (c : Ctx)

@[simp] theorem getX_zero : c.getX 0 = 0 := rfl
@[simp] theorem setX_zero (v : Word) : c.setX 0 v = c := rfl
@[simp] theorem getM_zero : c.getM 0 = BitVec.allOnes 32 := rfl
@[simp] theorem setM_zero (v : BitVec 32) : c.setM 0 v = c := rfl

theorem getX_setX_same {r : XReg} (h : r ≠ 0) (v : Word) : (c.setX r v).getX r = v := by
  simp only [getX, setX, h, if_false]
  exact Vector.getElem_set_self _

theorem getX_setX_ne {r q : XReg} (h : q ≠ r) (v : Word) : (c.setX r v).getX q = c.getX q := by
  simp only [getX, setX]
  split_ifs
  · rfl
  · rfl
  · exact Vector.getElem_set_ne r.isLt q.isLt (fun e => h (Fin.ext e.symm))

/-- Every x register after a write (00 R6): x0 reads zero whatever is written. -/
theorem getX_setX (r q : XReg) (v : Word) : (c.setX r v).getX q = if q = r ∧ r ≠ 0 then v else c.getX q := by
  by_cases h : q = r
  · subst h
    by_cases h0 : q = 0
    · subst h0; simp
    · simp [h0, getX_setX_same c h0]
  · simp [h, getX_setX_ne c h]

theorem getV_setV (r q : VReg) (v : Vec) : (c.setV r v).getV q = if q = r then v else c.getV q := by
  by_cases h : q = r
  · subst h
    rw [if_pos rfl]
    exact Vector.getElem_set_self _
  · rw [if_neg h]
    exact Vector.getElem_set_ne r.isLt q.isLt (fun e => h (Fin.ext e.symm))

theorem getM_setM (r q : MReg) (v : BitVec 32) : (c.setM r v).getM q = if q = r ∧ r ≠ 0 then v else c.getM q := by
  by_cases h0 : r = 0
  · subst h0; simp
  · by_cases h : q = r
    · subst h
      rw [if_pos ⟨rfl, h0⟩]
      simp only [getM, setM, h0, if_false]
      exact Vector.getElem_set_self _
    · rw [if_neg (fun e => h e.1)]
      simp only [getM, setM, h0, if_false]
      split_ifs
      · rfl
      · exact Vector.getElem_set_ne r.isLt q.isLt (fun e => h (Fin.ext e.symm))

@[simp] theorem setX_pc (r : XReg) (v : Word) : (c.setX r v).pc = c.pc := by simp only [setX]; split_ifs <;> rfl
@[simp] theorem setX_v (r : XReg) (v : Word) : (c.setX r v).v = c.v := by simp only [setX]; split_ifs <;> rfl
@[simp] theorem setX_m (r : XReg) (v : Word) : (c.setX r v).m = c.m := by simp only [setX]; split_ifs <;> rfl
@[simp] theorem setX_hints (r : XReg) (v : Word) : (c.setX r v).hints = c.hints := by simp only [setX]; split_ifs <;> rfl
@[simp] theorem setX_flags (r : XReg) (v : Word) : (c.setX r v).flags = c.flags := by simp only [setX]; split_ifs <;> rfl
@[simp] theorem setX_outstanding (r : XReg) (v : Word) : (c.setX r v).outstanding = c.outstanding := by simp only [setX]; split_ifs <;> rfl
@[simp] theorem setX_park (r : XReg) (v : Word) : (c.setX r v).park = c.park := by simp only [setX]; split_ifs <;> rfl
@[simp] theorem setX_role (r : XReg) (v : Word) : (c.setX r v).role = c.role := by simp only [setX]; split_ifs <;> rfl
@[simp] theorem setX_live (r : XReg) (v : Word) : (c.setX r v).live = c.live := by simp only [setX]; split_ifs <;> rfl
@[simp] theorem setX_intrap (r : XReg) (v : Word) : (c.setX r v).intrap = c.intrap := by simp only [setX]; split_ifs <;> rfl
@[simp] theorem setX_unacked (r : XReg) (v : Word) : (c.setX r v).unacked = c.unacked := by simp only [setX]; split_ifs <;> rfl
@[simp] theorem setV_pc (r : VReg) (v : Vec) : (c.setV r v).pc = c.pc := rfl
@[simp] theorem setV_x (r : VReg) (v : Vec) : (c.setV r v).x = c.x := rfl
@[simp] theorem setM_pc (r : MReg) (v : BitVec 32) : (c.setM r v).pc = c.pc := by simp only [setM]; split_ifs <;> rfl
@[simp] theorem setM_x (r : MReg) (v : BitVec 32) : (c.setM r v).x = c.x := by simp only [setM]; split_ifs <;> rfl
@[simp] theorem setM_v (r : MReg) (v : BitVec 32) : (c.setM r v).v = c.v := by simp only [setM]; split_ifs <;> rfl

end Sys2Proof.Machine.Ctx
end

