-- ==== Sys2Proof/Laws/Scalar.lean ====
section
/-! SUPPORT. What the shared operations of scalar words do when nothing stands in their way (04 R83, R84, R87). -/

namespace Sys2Proof.Machine

variable {s : State} {sw : Bool} {d a b : XReg}

/-- A single-cycle result and the end of its word. -/
theorem Form.finish_writeX {f : Form} (hg : (s.core s.who.core).leads s.who = false) (hp : (s.core s.who.core).isPort d = false) (v : Word) :
    f.finish s s.who [] [] (.done (s.writeX s.who d v)) = s.afterWord f.sw (fun c => c.setX d v) := by
  rw [State.writeX_eq _ hp, Form.finish_after hg _ (by simp)]

/-- A variable-latency scalar result and the end of its word. -/
theorem State.retire_laterX {lat : Nat} {p : Producer} {v : Word} (hp : (s.core s.who.core).isPort d = false) :
    (s.laterX s.who lat p d v).retire s.who sw (seqNext ((s.laterX s.who lat p d v).ctx s.who).pc) = s.afterScalar sw lat p d v := by
  unfold State.laterX State.later State.afterScalar
  simp only [Result.plain, hp]
  by_cases h : d = 0
  · simp [h, State.retire, State.afterWord, State.after]
  · simp only [h, decide_false, Bool.false_and, if_false, Bool.false_eq_true, State.markOut, Dest.isNone, State.retire, State.afterResult,
      State.afterWord, State.after, State.postEnd, State.modCtx_post, State.ctx_post, State.ctx_modCtx, State.modCtx_modCtx]
    rfl

theorem alu2_clear (i : Instr) (f : Word → Word → Word) (h : s.Clear [.x a, .x b] [.x d]) (hh : s.NoHints) :
    alu2 i sw d a b f s = .next (s.afterWord sw (fun c => c.setX d (f ((s.ctx s.who).getX a) ((s.ctx s.who).getX b)))) := by
  unfold alu2
  rw [issue_clear _ h (Form.checks_eq_none hh (by simp [Form.of]) (by simp [Form.of]) rfl) rfl]
  simp only [Form.of, xvals_x, xvals_nil, Form.finish_writeX h.noLead (h.noPort d (by simp))]
  rfl

theorem alu1_clear (i : Instr) (f : Word → Word) (h : s.Clear [.x a] [.x d]) (hh : s.NoHints) :
    alu1 i sw d a f s = .next (s.afterWord sw (fun c => c.setX d (f ((s.ctx s.who).getX a)))) := by
  unfold alu1
  rw [issue_clear _ h (Form.checks_eq_none hh (by simp [Form.of]) (by simp [Form.of]) rfl) rfl]
  simp only [Form.of, xvals_x, xvals_nil, Form.finish_writeX h.noLead (h.noPort d (by simp))]
  rfl

theorem aluMulOp_clear (i : Instr) (f : Word → Word → Word) (h : s.Clear [.x a, .x b] [.x d]) (hh : s.NoHints) :
    aluMulOp i sw d a b f s = .next (s.afterScalar sw 3 .unit d (f ((s.ctx s.who).getX a) ((s.ctx s.who).getX b))) := by
  unfold aluMulOp
  rw [issue_clear _ h (Form.checks_eq_none hh (by simp [Form.of]) (by simp [Form.of]) rfl) rfl]
  simp only [Form.of, xvals_x, xvals_nil, Form.finish_done h.noLead, State.retire_laterX (h.noPort d (by simp))]
  rfl

theorem immOp_clear (i : Instr) (f : Hints → Word → Word) (h : s.Clear [.x a] [.x d]) (hh : s.ImmHints) :
    immOp i sw d a f s = .next (s.afterWord sw (fun c => c.setX d (f (s.ctx s.who).hints ((s.ctx s.who).getX a)))) := by
  unfold immOp
  rw [issue_clear (f := Form.imm i sw [.x a] [.x d]) _ h (Form.checks_imm rfl hh.1 hh.2.1 hh.2.2 rfl rfl rfl) rfl]
  simp only [Form.imm, Form.of, xvals_x, xvals_nil, Form.finish_writeX h.noLead (h.noPort d (by simp))]
  rfl

end Sys2Proof.Machine
end

