-- ==== Sys2Proof/Laws/Memory.lean ====
section
/-! SUPPORT. Memory: reads after writes, and that every operation that changes memory keeps its canonical form. -/

namespace Sys2Proof.Machine

/-! ### The canonical form as an ordered list -/

/-- Addresses strictly rising and no unlisted value listed, said of the whole list. -/
theorem Memory.wf_iff (m : Memory) :
    Memory.wf m = true ↔ m.Pairwise (fun x y => x.1 < y.1) ∧ ∀ e ∈ m, e.2 ≠ Memory.unlisted := by
  induction m with
  | nil => simp [Memory.wf]
  | cons e m ih =>
    cases m with
    | nil => simp [Memory.wf]
    | cons f m =>
      obtain ⟨a, b⟩ := e
      obtain ⟨a', b'⟩ := f
      simp only [Memory.wf, Bool.and_eq_true, decide_eq_true_eq, ih, List.pairwise_cons, List.mem_cons, forall_eq_or_imp]
      constructor
      · rintro ⟨⟨hb, hlt⟩, ⟨h1, h2⟩, h3⟩
        exact ⟨⟨⟨hlt, fun e he => Nat.lt_trans hlt (h1 e he)⟩, h1, h2⟩, hb, h3⟩
      · rintro ⟨⟨⟨hlt, -⟩, h1, h2⟩, hb, h3⟩
        exact ⟨⟨hb, hlt⟩, ⟨h1, h2⟩, h3⟩

theorem Memory.wf_nil : Memory.wf [] = true := rfl

/-- Cells taken out of memory leave it canonical. -/
theorem Memory.wf_filter {m : Memory} (p : Host.Cell → Bool) (h : Memory.wf m = true) : Memory.wf (m.filter p) = true := by
  rw [Memory.wf_iff] at h ⊢
  exact ⟨h.1.filter p, fun e he => h.2 e (List.mem_of_mem_filter he)⟩

/-- The cells of a memory after a write are old ones, or the one written. -/
theorem Memory.mem_write {m : Memory} {a : Nat} {b : Byte} {e : Host.Cell} (h : e ∈ Memory.write m a b) :
    e ∈ m ∨ (e = (a, b) ∧ b ≠ Memory.unlisted) := by
  induction m with
  | nil =>
    simp only [Memory.write] at h
    split_ifs at h with hb
    · simp at h
    · exact .inr ⟨by simpa using h, hb⟩
  | cons f m ih =>
    obtain ⟨a', b'⟩ := f
    simp only [Memory.write] at h
    split_ifs at h with h1 h2 h3 h4
    · exact .inl (List.mem_cons_of_mem _ h)
    · rcases List.mem_cons.1 h with h | h
      · exact .inr ⟨h, h2⟩
      · exact .inl (List.mem_cons_of_mem _ h)
    · exact .inl h
    · rcases List.mem_cons.1 h with h | h
      · exact .inr ⟨h, h4⟩
      · exact .inl h
    · rcases List.mem_cons.1 h with h | h
      · exact .inl (by simp [h])
      · exact (ih h).imp_left (List.mem_cons_of_mem _)

/-- A write keeps the canonical form. -/
theorem Memory.wf_write {m : Memory} (a : Nat) (b : Byte) (h : Memory.wf m = true) : Memory.wf (Memory.write m a b) = true := by
  rw [Memory.wf_iff] at h ⊢
  refine ⟨?_, fun e he => (Memory.mem_write he).elim (h.2 e) (fun ⟨h1, h2⟩ => by rw [h1]; exact h2)⟩
  induction m with
  | nil => simp only [Memory.write]; split_ifs <;> simp
  | cons f m ih =>
    obtain ⟨a', b'⟩ := f
    obtain ⟨h1, h2⟩ := List.pairwise_cons.1 h.1
    simp only [Memory.write]
    split_ifs with e1 e2 e3 e4
    · exact h2
    · exact List.pairwise_cons.2 ⟨fun x hx => by rw [e1]; exact h1 x hx, h2⟩
    · exact h.1
    · refine List.pairwise_cons.2 ⟨fun x hx => ?_, h.1⟩
      rcases List.mem_cons.1 hx with hx | hx
      · rw [hx]; exact e3
      · exact Nat.lt_trans e3 (h1 x hx)
    · refine List.pairwise_cons.2 ⟨fun x hx => ?_, ih ⟨h2, fun e he => h.2 e (List.mem_cons_of_mem _ he)⟩⟩
      rcases Memory.mem_write hx with hx | hx
      · exact h1 x hx
      · rw [hx.1]; exact Nat.lt_of_le_of_ne (Nat.le_of_not_lt e3) (fun e => e1 e.symm)

/-- A run of writes keeps the canonical form. -/
theorem Memory.wf_writeBytes {m : Memory} (a : Nat) (bs : List Byte) (h : Memory.wf m = true) : Memory.wf (Memory.writeBytes m a bs) = true := by
  induction bs generalizing m a with
  | nil => exact h
  | cons b bs ih => exact ih (a + 1) (Memory.wf_write a b h)

/-- Restored cells keep the canonical form. -/
theorem Memory.wf_restore {m : Memory} (l : List Host.Cell) (h : Memory.wf m = true) : Memory.wf (State.restoreBerth.Memory.restore m l) = true := by
  induction l generalizing m with
  | nil => exact h
  | cons e l ih => exact ih (Memory.wf_write e.1 e.2 h)

/-! ### Reads after writes -/

/-- A byte below every listed address reads as unlisted. -/
theorem Memory.read_below {m : Memory} {a : Nat} (h : ∀ e ∈ m, a < e.1) : Memory.read m a = Memory.unlisted := by
  cases m with
  | nil => rfl
  | cons f m =>
    obtain ⟨a', b'⟩ := f
    have : a < a' := h (a', b') (by simp)
    simp [Memory.read, Nat.ne_of_lt this, this]

@[simp] theorem Memory.read_write_same {m : Memory} (a : Nat) (b : Byte) (h : Memory.wf m = true) : Memory.read (Memory.write m a b) a = b := by
  rw [Memory.wf_iff] at h
  induction m with
  | nil => simp only [Memory.write]; split_ifs with hb <;> simp [Memory.read, hb]
  | cons f m ih =>
    obtain ⟨a', b'⟩ := f
    obtain ⟨h1, h2⟩ := List.pairwise_cons.1 h.1
    simp only [Memory.write]
    split_ifs with e1 e2 e3 e4
    · rw [Memory.read_below (fun e he => by rw [e1]; exact h1 e he), e2]
    · simp [Memory.read]
    · simp [Memory.read, e1, e3, e4]
    · simp [Memory.read]
    · simp only [Memory.read, e1, e3, if_false]
      exact ih ⟨h2, fun e he => h.2 e (List.mem_cons_of_mem _ he)⟩

theorem Memory.read_write_ne {m : Memory} {a a' : Nat} (b : Byte) (hne : a' ≠ a) (h : Memory.wf m = true) :
    Memory.read (Memory.write m a b) a' = Memory.read m a' := by
  rw [Memory.wf_iff] at h
  induction m with
  | nil => simp only [Memory.write]; split_ifs <;> simp [Memory.read, hne]
  | cons f m ih =>
    obtain ⟨k, v⟩ := f
    obtain ⟨h1, h2⟩ := List.pairwise_cons.1 h.1
    simp only [Memory.write]
    split_ifs with e1 e2 e3 e4
    · simp only [Memory.read]
      subst e1
      rw [if_neg hne]
      split_ifs with h3
      · exact Memory.read_below (fun e he => Nat.lt_trans h3 (h1 e he))
      · rfl
    · subst e1
      simp [Memory.read, hne]
    · rfl
    · simp only [Memory.read, hne, if_false]
      split_ifs <;> first | rfl | omega
    · simp only [Memory.read]
      rw [ih ⟨h2, fun e he => h.2 e (List.mem_cons_of_mem _ he)⟩]

/-- Bytes outside a run of writes read as before. -/
theorem Memory.read_writeBytes_ne {m : Memory} {a : Nat} (bs : List Byte) (k : Nat) (hk : k < a ∨ a + bs.length ≤ k) (h : Memory.wf m = true) :
    Memory.read (Memory.writeBytes m a bs) k = Memory.read m k := by
  induction bs generalizing m a with
  | nil => rfl
  | cons b bs ih =>
    simp only [List.length_cons] at hk
    rw [Memory.writeBytes, ih (by omega) (Memory.wf_write a b h), Memory.read_write_ne b (by omega) h]

/-- A byte of a run of writes reads as written. -/
theorem Memory.read_writeBytes_in {m : Memory} {a : Nat} (bs : List Byte) (n : Nat) (hn : n < bs.length) (h : Memory.wf m = true) :
    Memory.read (Memory.writeBytes m a bs) (a + n) = bs[n] := by
  induction bs generalizing m a n with
  | nil => simp at hn
  | cons b bs ih =>
    cases n with
    | zero =>
      rw [Nat.add_zero, Memory.writeBytes, Memory.read_writeBytes_ne (a := a + 1) bs a (by omega) (Memory.wf_write a b h),
        Memory.read_write_same a b h]
      rfl
    | succ n =>
      rw [Memory.writeBytes, show a + (n + 1) = a + 1 + n by omega, ih n (by simpa using hn) (Memory.wf_write a b h)]
      rfl

/-- What is read back from a run just written. -/
theorem Memory.readBytes_writeBytes {m : Memory} (a : Nat) (bs : List Byte) (h : Memory.wf m = true) :
    Memory.readBytes (Memory.writeBytes m a bs) a bs.length = bs := by
  induction bs generalizing m a with
  | nil => rfl
  | cons b bs ih =>
    rw [List.length_cons, Memory.readBytes, Memory.writeBytes, Memory.read_writeBytes_ne (a := a + 1) bs a (by omega) (Memory.wf_write a b h),
      Memory.read_write_same a b h, ih (a + 1) (Memory.wf_write a b h)]

/-! ### The state -/

theorem State.reset_memOk : State.reset.MemOk := rfl

/-- Dated events leave memory. -/
theorem State.foldl_postNow_mem {α : Type} (i : α → Instr) (l : List α) (s : State) :
    (l.foldl (fun s a => s.post s.cycle (i a)) s).mem = s.mem := by
  induction l generalizing s with
  | nil => rfl
  | cons a l ih => exact ih _

theorem State.foldl_postLater_mem {α : Type} (wait : Nat) (i : α → Nat → Instr) (l : List α) (s : State) :
    (l.foldl (fun s a => s.post (s.cycle + wait - 1) (i a (s.cycle + wait))) s).mem = s.mem := by
  induction l generalizing s with
  | nil => rfl
  | cons a l ih => exact ih _

/-- What a write leaves in memory. -/
@[simp] theorem State.writeMemAfter_mem (s : State) (wait key : Nat) (bytes : List Byte) :
    (s.writeMemAfter wait key bytes).mem = Memory.writeBytes s.mem key bytes := by
  simp only [State.writeMemAfter, State.foldl_postNow_mem, State.foldl_postLater_mem wait (fun l t => Instr.watchReevaluate { addr := l, ready := t })]

/-- A write of memory by the machine keeps the canonical form (writeMem is the case of one core cycle). -/
theorem State.memOk_writeMemAfter {s : State} (wait key : Nat) (bytes : List Byte) (h : s.MemOk) : (s.writeMemAfter wait key bytes).MemOk := by
  unfold State.MemOk
  rw [State.writeMemAfter_mem]
  exact Memory.wf_writeBytes key bytes h

theorem State.memOk_writeMem {s : State} (key : Nat) (bytes : List Byte) (h : s.MemOk) : (s.writeMem key bytes).MemOk :=
  State.memOk_writeMemAfter 1 key bytes h

end Sys2Proof.Machine
end

