-- ==== Sys2Proof/Laws/Translate.lean ====
section
/-! SUPPORT. What an access may change before it is performed (21 R370 to R384): page tables, lookasides, requests, counters. The cores,
the clusters and all that belongs to a launch are left, and memory keeps its canonical form. -/

namespace Sys2Proof.Machine

/-- Everything but the dies, memory, its poison and the words replaced in it, the agenda and the counter of free values is the same. -/
structure State.Same (s t : State) : Prop where
  cycle : t.cycle = s.cycle
  turn : t.turn = s.turn
  begun : t.begun = s.begun
  late : t.late = s.late
  who : t.who = s.who
  stalled : t.stalled = s.stalled
  asked : t.asked = s.asked
  deciding : t.deciding = s.deciding
  serials : t.serials = s.serials
  cores : t.cores = s.cores
  clusters : t.clusters = s.clusters
  groups : t.groups = s.groups
  launches : t.launches = s.launches
  images : t.images = s.images
  modules : t.modules = s.modules
  ferry : t.ferry = s.ferry
  host : t.host = s.host
  spdm : t.spdm = s.spdm
  boot : t.boot = s.boot
  refusals : t.refusals = s.refusals
  failedLinks : t.failedLinks = s.failedLinks
  memOk : s.MemOk → t.MemOk

namespace State.Same

theorem refl (s : State) : s.Same s := ⟨rfl, rfl, rfl, rfl, rfl, rfl, rfl, rfl, rfl, rfl, rfl, rfl, rfl, rfl, rfl, rfl, rfl, rfl, rfl, rfl, rfl, id⟩

theorem trans {s t u : State} (h : s.Same t) (k : t.Same u) : s.Same u :=
  ⟨k.cycle.trans h.cycle, k.turn.trans h.turn, k.begun.trans h.begun, k.late.trans h.late, k.who.trans h.who, k.stalled.trans h.stalled, k.asked.trans h.asked,
    k.deciding.trans h.deciding, k.serials.trans h.serials, k.cores.trans h.cores, k.clusters.trans h.clusters, k.groups.trans h.groups, k.launches.trans h.launches,
    k.images.trans h.images, k.modules.trans h.modules, k.ferry.trans h.ferry, k.host.trans h.host, k.spdm.trans h.spdm, k.boot.trans h.boot,
    k.refusals.trans h.refusals, k.failedLinks.trans h.failedLinks, fun m => k.memOk (h.memOk m)⟩

theorem core {s t : State} (h : s.Same t) (c : Nat) : t.core c = s.core c := by simp [State.core, h.cores]
theorem ctx {s t : State} (h : s.Same t) (w : CtxId) : t.ctx w = s.ctx w := by simp [State.ctx, h.core]
theorem cluster {s t : State} (h : s.Same t) (c : Nat) : t.cluster c = s.cluster c := by simp [State.cluster, h.clusters]

theorem setDie (s : State) (d : Nat) (k : Die) : s.Same (s.setDie d k) := ⟨rfl, rfl, rfl, rfl, rfl, rfl, rfl, rfl, rfl, rfl, rfl, rfl, rfl, rfl, rfl, rfl, rfl, rfl, rfl, rfl, rfl, id⟩
theorem modDie (s : State) (d : Nat) (f : Die → Die) : s.Same (s.modDie d f) := setDie s d _
theorem post (s : State) (due : Nat) (i : Instr) : s.Same (s.post due i) := ⟨rfl, rfl, rfl, rfl, rfl, rfl, rfl, rfl, rfl, rfl, rfl, rfl, rfl, rfl, rfl, rfl, rfl, rfl, rfl, rfl, rfl, id⟩
theorem drew (s : State) : s.Same s.drew := ⟨rfl, rfl, rfl, rfl, rfl, rfl, rfl, rfl, rfl, rfl, rfl, rfl, rfl, rfl, rfl, rfl, rfl, rfl, rfl, rfl, rfl, id⟩

theorem foldl {α : Type} (f : State → α → State) (h : ∀ (s : State) (a : α), s.Same (f s a)) (s : State) (l : List α) : s.Same (l.foldl f s) := by
  induction l generalizing s with
  | nil => exact refl s
  | cons a l ih => exact (h s a).trans (ih _)

theorem writeMemAfter (s : State) (wait key : Nat) (bytes : List Byte) : s.Same (s.writeMemAfter wait key bytes) := by
  have h0 : s.Same { s with
      mem := Memory.writeBytes s.mem key bytes
      overwritten := s.overwritten ++ s.replacedWords key bytes.length
      poison := s.poison.filter (fun g => !(decide (key ≤ g.1) && decide (g.1 + g.2 ≤ key + bytes.length))) } :=
    ⟨rfl, rfl, rfl, rfl, rfl, rfl, rfl, rfl, rfl, rfl, rfl, rfl, rfl, rfl, rfl, rfl, rfl, rfl, rfl, rfl, rfl, fun m => Memory.wf_writeBytes key bytes m⟩
  unfold State.writeMemAfter
  exact h0.trans ((foldl _ (fun _ _ => post _ _ _) _ _).trans (foldl _ (fun _ _ => post _ _ _) _ _))

theorem writeMem (s : State) (key : Nat) (bytes : List Byte) : s.Same (s.writeMem key bytes) := writeMemAfter s 1 key bytes

theorem setZeroBlocks (s : State) (m : KMap Nat) : s.Same { s with zeroBlocks := m } :=
  ⟨rfl, rfl, rfl, rfl, rfl, rfl, rfl, rfl, rfl, rfl, rfl, rfl, rfl, rfl, rfl, rfl, rfl, rfl, rfl, rfl, rfl, id⟩
theorem setPosted (s : State) (l : List Posted) : s.Same { s with posted := l } :=
  ⟨rfl, rfl, rfl, rfl, rfl, rfl, rfl, rfl, rfl, rfl, rfl, rfl, rfl, rfl, rfl, rfl, rfl, rfl, rfl, rfl, rfl, id⟩

theorem encodeBlock (s : State) (format b : Nat) : s.Same (s.encodeBlock format b) := by
  unfold State.encodeBlock
  refine (setZeroBlocks s _).trans (foldl _ (fun s i => ?_) _ _)
  refine iteInduction (fun _ => ?_) (fun _ => refl s)
  exact ⟨rfl, rfl, rfl, rfl, rfl, rfl, rfl, rfl, rfl, rfl, rfl, rfl, rfl, rfl, rfl, rfl, rfl, rfl, rfl, rfl, rfl, fun m => Memory.wf_writeBytes _ _ m⟩

theorem zeroMap (s : State) (attr : Attr) (key n : Nat) : s.Same (s.zeroMap attr key n) := by
  unfold State.zeroMap
  split_ifs
  · exact refl s
  · exact setZeroBlocks s _
  · exact foldl _ (fun s b => encodeBlock s _ b) _ _

theorem writePage (s : State) (attr : Attr) (key : Nat) (bytes : List Byte) : s.Same (s.writePage attr key bytes) :=
  (writeMem s _ _).trans (zeroMap _ _ _ _)
theorem storeAt (s : State) (a : Access) (bytes : List Byte) : s.Same (s.storeAt a bytes) := writePage s _ _ _
theorem storeIssued (s : State) (a : Access) (bytes : List Byte) : s.Same (s.storeIssued a bytes) :=
  ((writeMemAfter s _ _ _).trans (zeroMap _ _ _ _)).trans (setPosted _ _)

theorem sendRequest (s : State) (home : Nat) (r : PageRequest) : s.Same (s.sendRequest home r).1 := by
  unfold State.sendRequest
  simp only
  split_ifs
  · exact (setDie s _ _).trans (writeMem _ _ _)
  · exact refl s

theorem requestPage (s : State) (home asker tenant : Nat) (kind : AccessKind) (va : Nat) : s.Same (s.requestPage home asker tenant kind va) := by
  unfold State.requestPage
  split_ifs
  · exact refl s
  · exact (sendRequest s _ _).trans (modDie _ _ _)

theorem logDirty (s : State) (home tenant va : Nat) : s.Same (s.logDirty home tenant va) := by
  unfold State.logDirty
  simp only
  split_ifs
  · exact writeMem s _ _
  · exact (writeMem s _ _).trans (writeMem _ _ _)
  · exact refl s

theorem setAD (s : State) (home tenant va : Nat) (write : Bool) (leaf : Nat) (e : LookEntry) : s.Same (s.setAD home tenant va write leaf e) := by
  unfold State.setAD
  dsimp only
  refine iteInduction (fun _ => refl s) (fun _ => ?_)
  refine trans (trans ?_ (writeMem _ _ _)) (modDie _ _ _)
  exact iteInduction (fun _ => logDirty s _ _ _) (fun _ => refl s)

theorem lookup (s : State) (home asker tenant : Nat) (kind : AccessKind) (va : Nat) : s.Same (s.lookup home asker tenant kind va).1 := by
  unfold State.lookup
  simp only
  repeat' split
  all_goals first | exact refl s | exact setDie s _ _ | exact requestPage s _ _ _ _ _

theorem enter (s : State) (home tenant : Nat) (kind : AccessKind) (va : Nat) (e : LookEntry) : s.Same (s.enter home tenant kind va e).1 := by
  unfold State.enter
  split
  · exact refl s
  · cases e.leaf with
    | none => exact refl s
    | some leaf => exact setAD s _ _ _ _ _ _

theorem ruling (s : State) (home asker tenant : Nat) (kind : AccessKind) (va : Nat) : s.Same (s.ruling home asker tenant kind va).1 := by
  unfold State.ruling
  have h := lookup s home asker tenant kind va
  split
  · rename_i heq; rw [heq] at h; exact h
  · rename_i t e heq; rw [heq] at h
    split
    · exact h.trans ((modDie t _ _).trans (lookup (t.dropPages home tenant va) home asker tenant kind va))
    · exact h

theorem translateFrom (s : State) (asker tenant : Nat) (kind : AccessKind) (va : Nat) : s.Same (s.translateFrom asker tenant kind va).1 := by
  unfold State.translateFrom
  split
  · exact refl s
  · have h := ruling s (homeDie va) asker tenant kind va
    split
    · rename_i heq; rw [heq] at h; exact h
    · rename_i heq; rw [heq] at h; exact h.trans (enter _ _ _ _ _ _)

theorem translate (s : State) (tenant : Nat) (kind : AccessKind) (va : Nat) : s.Same (s.translate tenant kind va).1 := translateFrom s _ _ _ _

theorem countAccess (s : State) (home tenant stack : Nat) (e : LookEntry) : s.Same (s.countAccess home tenant stack e) := by
  unfold State.countAccess
  simp only
  split_ifs
  · exact refl s
  · exact ((modDie s _ _).trans (setDie _ _ _)).trans (drew _)
  · exact modDie s _ _

theorem resolve (s : State) (core : Nat) (kind : AccessKind) (va : Word) (n : Nat) : s.Same (s.resolve core kind va n).1 := by
  unfold State.resolve
  simp only
  split
  · exact refl s
  · split
    · repeat' split
      all_goals exact refl s
    · have h := translateFrom s (dieOf core) (s.tenantOf core) kind va.toNat
      split
      · rename_i heq; rw [heq] at h; exact h
      · rename_i heq; rw [heq] at h; exact h.trans (countAccess _ _ _ _ _)

theorem fetchEntry (s : State) (core : Nat) (va : Word) : s.Same (s.fetchEntry core va).1 := by
  unfold State.fetchEntry
  simp only
  split_ifs
  · exact refl s
  · exact refl s
  · exact translateFrom s _ _ _ _

theorem resolveFetch (s : State) (core : Nat) (va : Word) : s.Same (s.resolveFetch core va).1 := by
  unfold State.resolveFetch
  have h := fetchEntry s core va
  split <;> (rename_i heq; rw [heq] at h; exact h)

theorem codeWord (s : State) (core line key i : Nat) : s.Same (s.codeWord core line key i).1 := by
  unfold State.codeWord
  simp only
  split
  · exact refl s
  · exact drew s

/-- The checks of a control target change no core (01 R15). -/
theorem checkTarget (s : State) (core : Nat) (target : Word) (all : Bool) : s.Same (s.checkTarget core target all).1 := by
  unfold State.checkTarget
  split
  · exact refl s
  · have h := resolveFetch s core target
    split
    · rename_i heq; rw [heq] at h; exact h
    · rename_i s' key heq; rw [heq] at h
      have h := h.trans (codeWord s' core (target.toNat / 128 * 128) key 0)
      simp only
      split_ifs <;> exact h

end State.Same

end Sys2Proof.Machine
end

