-- ==== Sys2Proof/Laws/Accesses.lean ====
section
/-! SUPPORT. What loads, stores and the words built on them do with an access that reaches its place (06 R115 to R125; 14 R284, R300,
R301): the lemmas that the claims about these words go through. -/

namespace Sys2Proof.Machine

variable {s t : State} {sw : Bool} {a : Access}

/-- A variable-latency result and the end of its word. -/
theorem State.retire_later {lat : Nat} {p : Producer} {r : Result} (hp : ∀ x, r.dest = .x x → (s.core s.who.core).isPort x = false)
    (hd : r.dest ≠ .x 0 ∨ r.beyond = true ∨ r.flags ≠ .none) :
    (s.later s.who lat p r).retire s.who sw (seqNext ((s.later s.who lat p r).ctx s.who).pc) = s.afterResult sw lat p r := by
  have key : ((s.markOut s.who r.dest p).postEnd lat (.resultWrite s.who r)).retire s.who sw
      (seqNext (((s.markOut s.who r.dest p).postEnd lat (.resultWrite s.who r)).ctx s.who).pc) = s.afterResult sw lat p r := by
    unfold State.markOut State.afterResult
    by_cases h : r.dest.isNone
    · simp only [h, if_true, List.append_nil, State.retire, State.afterWord, State.after, State.postEnd, State.modCtx_post, State.ctx_post]
      rfl
    · simp only [h, Bool.false_eq_true, if_false, State.retire, State.afterWord, State.after, State.postEnd, State.modCtx_post, State.ctx_post,
        State.ctx_modCtx, State.modCtx_modCtx]
      rfl
  unfold State.later
  cases hr : r.dest with
  | x d =>
    have h1 := hp d hr
    have h2 : ¬ ((decide (d = 0) && !r.beyond && decide (r.flags = .none)) = true) := by
      rw [hr] at hd
      simp only [Bool.and_eq_true, decide_eq_true_eq, Bool.not_eq_true', not_and]
      rintro ⟨h, hb⟩ hf
      rcases hd with h3 | h3 | h3
      · exact h3 (by rw [h])
      · simp [hb] at h3
      · exact h3 hf
    simp only [h1, h2, if_false, Bool.false_eq_true, ← hr]
    exact key
  | v r' => simp only [← hr]; exact key
  | m r' => simp only [← hr]; exact key

/-- The reply of a scalar access and the end of its word. -/
theorem State.retire_reply {d : XReg} {lat : Nat} {p : Producer} {v : Word} (hp : (s.core s.who.core).isPort d = false) :
    let q := s.replyOf a (Result.plain (.x d) (v.setWidth 512))
    (q.1.later s.who lat p q.2).retire s.who sw (seqNext ((q.1.later s.who lat p q.2).ctx s.who).pc) = s.afterReply a sw lat p d v := by
  simp only [State.replyOf, State.afterReply]
  by_cases h : a.beyond
  · simp only [h, if_true]
    exact State.retire_later (s := s.drew) (fun x hx => by cases hx; exact hp) (.inr (.inl rfl))
  · simp only [h, if_false, Bool.false_eq_true]
    exact State.retire_laterX hp

/-- An access that is not held back is served. -/
theorem withPort_served {core : Nat} {go : State → Body} (hw : a.beyond = true → (s.core core).beyond < (s.core core).wn) (hp : s.portServes core a = true) :
    withPort core a s go = go (s.served core a) := by
  unfold withPort Core.windowFull State.served
  have : ¬ ((a.beyond && decide ((s.core core).wn ≤ (s.core core).beyond)) = true) := by
    simp only [Bool.and_eq_true, decide_eq_true_eq, not_and, not_le]
    exact hw
  rw [if_neg this, if_pos hp]

@[simp] theorem State.served_who (core : Nat) : (s.served core a).who = s.who := by
  unfold State.served State.countBeyond State.servePort State.modButterfly
  split_ifs <;> (try split) <;> rfl

@[simp] theorem State.served_cycle (core : Nat) : (s.served core a).cycle = s.cycle := by
  unfold State.served State.countBeyond State.servePort State.modButterfly
  split_ifs <;> (try split) <;> rfl

@[simp] theorem State.served_mem (core : Nat) : (s.served core a).mem = s.mem := by
  unfold State.served State.countBeyond State.servePort State.modButterfly
  split_ifs <;> (try split) <;> rfl

theorem State.modCore_ctx (c : Nat) (f : Core → Core) (hf : ∀ k, (f k).ctxs = k.ctxs) (w : CtxId) : (s.modCore c f).ctx w = s.ctx w := by
  unfold State.ctx
  by_cases h : w.core = c
  · subst h; simp [hf]
  · rw [State.core_modCore_ne _ h]

@[simp] theorem State.served_ctx (core : Nat) (w : CtxId) : (s.served core a).ctx w = s.ctx w := by
  unfold State.served State.countBeyond State.servePort State.modButterfly
  split_ifs <;> (try split) <;> first | rfl | skip
  all_goals repeat rw [State.modCore_ctx]
  all_goals intro k; (try split_ifs) <;> rfl

theorem State.modCore_ports (c : Nat) (f : Core → Core) (hf : ∀ k, (f k).ports = k.ports) (n : Nat) : ((s.modCore c f).core n).ports = (s.core n).ports := by
  by_cases h : n = c
  · subst h; simp [hf]
  · rw [State.core_modCore_ne _ h]

@[simp] theorem State.served_ports (core n : Nat) : ((s.served core a).core n).ports = (s.core n).ports := by
  unfold State.served State.countBeyond State.servePort State.modButterfly
  split_ifs <;> (try split) <;> first | rfl | skip
  all_goals repeat rw [State.modCore_ports]
  all_goals intro k; (try split_ifs) <;> rfl

@[simp] theorem State.served_isPort (core n : Nat) (r : XReg) : ((s.served core a).core n).isPort r = (s.core n).isPort r := by
  simp [Core.isPort]

/-- A translated access leaves the control block alone (14 R286). -/
theorem State.resolve_notControl {core : Nat} {kind : AccessKind} {va : Word} {n : Nat} (h : s.resolve core kind va n = (t, .ok a)) :
    ¬ (0x18000 ≤ va.toNat ∧ va.toNat < 0x19000) := by
  rintro ⟨h1, h2⟩
  unfold State.resolve at h
  have : window core va.toNat = .control (va.toNat - 0x18000) := by
    unfold window
    rw [if_neg (by omega), if_pos h2]
  rw [if_neg (by omega), if_pos (by omega), this] at h
  simp at h

/-- Outside an ordered task nothing is held back (08 R193). -/
theorem State.taskOf_noTask {w : CtxId} (h : ∀ n, (s.ctx w).role ≠ .task n) : s.taskOf w = none := by
  unfold State.taskOf
  split
  · exact absurd ‹_› (h _)
  · rfl

theorem State.heldLines_noTask {w : CtxId} {kind : AccessKind} {va n : Nat} (h : ∀ n, (s.ctx w).role ≠ .task n) : s.heldLines w kind va n = (s, true) := by
  simp [State.heldLines, State.taskOf_noTask h]

/-- A load that reaches memory outside ordered tasks (06 R119). -/
theorem load_clear {s t : State} {at_ : Access} {sw sext : Bool} {sz : Size} {d : XReg} {va : Word} {f : Form}
    (hg : (s.core s.who.core).leads s.who = false) (hp : (s.core s.who.core).isPort d = false) (hsw : f.sw = sw)
    (ht : s.NoTask) (h : s.Reaches .read va sz.bytes t at_) (hl : t.loadPoison at_ sz.bytes = none) :
    f.finish s s.who [] [] (loadBody d sz sext va s) =
      (t.served s.who.core at_).afterReply at_ sw at_.lat .load d (extend sext sz (leValue (Memory.readBytes t.mem at_.key sz.bytes))) := by
  have hs := State.Same.resolve s s.who.core .read va sz.bytes
  rw [h.resolves] at hs
  have hnc := State.resolve_notControl h.resolves
  have hrole : ∀ n, (t.ctx s.who).role ≠ .task n := by rw [hs.ctx]; exact ht
  have hread : s.readScalar s.who va sz sext = (t, .ok (at_, extend sext sz (leValue (Memory.readBytes t.mem at_.key sz.bytes)), at_.lat)) := by
    unfold State.readScalar
    have hd : t.loadDelay s.who va.toNat at_.key sz.bytes = 0 := by
      unfold State.loadDelay; split
      · exact absurd ‹_› (hrole _)
      · rfl
    have hb : t.loadBytes s.who va.toNat at_.key sz.bytes = Memory.readBytes t.mem at_.key sz.bytes := by
      unfold State.loadBytes; split
      · exact absurd ‹_› (hrole _)
      · rfl
    have hc : t.loadCheck s.who at_ va.toNat sz.bytes = none := by
      unfold State.loadCheck; split
      · exact absurd ‹_› (hrole _)
      · exact hl
    simp [h.aligned, h.resolves, hc, hb, hd, hnc]
  unfold loadBody
  simp only [hread, withLines, State.heldLines_noTask hrole]
  rw [withPort_served (by exact h.window) (by exact h.port), Form.finish_done hg, hsw]
  have hw : (t.served s.who.core at_).who = s.who := by rw [State.served_who, hs.who]
  have key := State.retire_reply (s := t.served s.who.core at_) (sw := sw) (a := at_) (d := d) (lat := at_.lat) (p := .load)
    (v := extend sext sz (leValue (Memory.readBytes t.mem at_.key sz.bytes))) (by rw [hw]; simpa [hs.core] using hp)
  rw [hw] at key
  exact key

end Sys2Proof.Machine
end

