-- ==== Sys2Proof/Laws/Formats.lean ====
section
/-! SUPPORT. What the decoder reads out of a word that the encoder has laid out: the fields of each format of 02 R34, and the major
that a word selects (02 R39). -/

namespace Sys2Proof.Laws

open Sys2Proof.Encode Sys2Proof.Decode

/-! ### Codes -/

theorem bit_lt (b : Bool) : bit b < 2 := by cases b <;> decide
@[simp] theorem bit_eq_one (b : Bool) : decide (bit b = 1) = b := by cases b <;> rfl
@[simp] theorem xr_val (r : XReg) : xr r.val = r := Fin.ext (Nat.mod_eq_of_lt r.isLt)
@[simp] theorem vr_val (r : VReg) : vr r.val = r := Fin.ext (Nat.mod_eq_of_lt r.isLt)
@[simp] theorem mr_val (r : MReg) : mr r.val = r := Fin.ext (Nat.mod_eq_of_lt r.isLt)
@[simp] theorem cond_condCode (c : Cond) : Decode.cond (condCode c) = some c := by cases c <;> rfl
@[simp] theorem vcond_vcondCode (c : VCond) : vcond (vcondCode c) = some c := by
  cases c with
  | un => rfl
  | cond c => cases c <;> rfl
@[simp] theorem ty_tyCode (t : LaneTy) : ty (tyCode t) = some t := by cases t <;> rfl
@[simp] theorem ord_ordCode (o : MemOrd) : ord (ordCode o) = o := by cases o <;> rfl
@[simp] theorem size_sizeCode (z : Size) : size (sizeCode z) = z := by cases z <;> rfl
@[simp] theorem scope_scopeCode (c : Scope) : scope (scopeCode c) = some c := by cases c <;> rfl
@[simp] theorem sreg_sregCode (n : SReg) : sreg (sregCode n) = some n := by
  cases n with
  | prot n => revert n; decide
  | _ => rfl
theorem condCode_lt (c : Cond) : condCode c < 12 := by cases c <;> decide
theorem vcondCode_lt (c : VCond) : vcondCode c < 13 := by
  cases c with
  | un => decide
  | cond c => cases c <;> decide
theorem tyCode_lt (t : LaneTy) : tyCode t < 7 := by cases t <;> decide
theorem ordCode_lt (o : MemOrd) : ordCode o < 4 := by cases o <;> decide
theorem sizeCode_lt (z : Size) : sizeCode z < 4 := by cases z <;> decide
theorem scopeCode_lt (c : Scope) : scopeCode c < 7 := by cases c <;> decide
theorem sregCode_lt (n : SReg) : sregCode n < 133 := by
  cases n with
  | prot n => revert n; decide
  | _ => decide

/-! ### The fields of each format -/

/-- Formats A and E. -/
theorem fields_A (s : Bool) {major d a b fn : Nat} (hm : major < 64) (hd : d < 32) (ha : a < 32) (hb : b < 32) (hf : fn < 1024) :
    fmtA s major d a b fn < 2 ^ 32 ∧ fld (fmtA s major d a b fn) 31 31 = bit s ∧ fld (fmtA s major d a b fn) 30 25 = major ∧ fld (fmtA s major d a b fn) 24 20 = d ∧ fld (fmtA s major d a b fn) 19 15 = a ∧ fld (fmtA s major d a b fn) 14 10 = b ∧ fld (fmtA s major d a b fn) 9 0 = fn := by
  have := bit_lt s
  simp only [fmtA, fld]
  omega

/-- Formats I and IC. -/
theorem fields_I (s : Bool) {major d a imm : Nat} (hm : major < 64) (hd : d < 32) (ha : a < 32) (hi : imm < 32768) :
    fmtI s major d a imm < 2 ^ 32 ∧ fld (fmtI s major d a imm) 31 31 = bit s ∧ fld (fmtI s major d a imm) 30 25 = major ∧ fld (fmtI s major d a imm) 24 20 = d ∧ fld (fmtI s major d a imm) 19 15 = a ∧ fld (fmtI s major d a imm) 14 0 = imm ∧ fld (fmtI s major d a imm) 14 11 = imm / 2048 ∧ fld (fmtI s major d a imm) 10 0 = imm % 2048 := by
  have := bit_lt s
  simp only [fmtI, fld]
  omega

/-- Format L. -/
theorem fields_L (s : Bool) {major d imm : Nat} (hm : major < 64) (hd : d < 32) (hi : imm < 1048576) :
    fmtL s major d imm < 2 ^ 32 ∧ fld (fmtL s major d imm) 31 31 = bit s ∧ fld (fmtL s major d imm) 30 25 = major ∧ fld (fmtL s major d imm) 24 20 = d ∧ fld (fmtL s major d imm) 19 0 = imm := by
  have := bit_lt s
  simp only [fmtL, fld]
  omega

/-- Format B. -/
theorem fields_B (s : Bool) {c a disp w : Nat} (hc : c < 16) (ha : a < 32) (hd : disp < 65536)
    (hw : w = bit s * 2 ^ 31 + 0x08 * 2 ^ 25 + c * 2 ^ 21 + a * 2 ^ 16 + disp) : w < 2 ^ 32 ∧ fld w 31 31 = bit s ∧ fld w 30 25 = 0x08 ∧ fld w 24 21 = c ∧ fld w 20 16 = a ∧ fld w 15 0 = disp := by
  have := bit_lt s
  simp only [fld]
  omega

/-- Format H. -/
theorem fields_H (s : Bool) {k x w : Nat} (hk : k < 4) (hx : x < 8388608)
    (hw : w = bit s * 2 ^ 31 + 0x3F * 2 ^ 25 + k * 2 ^ 23 + x) : w < 2 ^ 32 ∧ fld w 31 31 = bit s ∧ fld w 30 25 = 0x3F ∧ fld w 24 23 = k ∧ fld w 22 0 = x := by
  have := bit_lt s
  simp only [fld]
  omega

/-- The words of sys that name a state register (10 R232). -/
theorem fields_S (s : Bool) {d n k w : Nat} (hd : d < 32) (hn : n < 4096) (hk : k < 256)
    (hw : w = bit s * 2 ^ 31 + 0x38 * 2 ^ 25 + d * 2 ^ 20 + n * 2 ^ 8 + k) : w < 2 ^ 32 ∧ fld w 31 31 = bit s ∧ fld w 30 25 = 0x38 ∧ fld w 24 20 = d ∧ fld w 19 8 = n ∧ fld w 7 0 = k := by
  have := bit_lt s
  simp only [fld]
  omega

/-- Format V. -/
theorem fields_V (s sat sx : Bool) {major vd va vb vc m op ty : Nat} (hm : major < 64) (hd : vd < 8) (ha : va < 8) (hb : vb < 8) (hc : vc < 8)
    (hk : m < 4) (ho : op < 64) (ht : ty < 8) :
    fmtV s major vd va vb vc m op ty sat sx < 2 ^ 32 ∧ fld (fmtV s major vd va vb vc m op ty sat sx) 31 31 = bit s ∧ fld (fmtV s major vd va vb vc m op ty sat sx) 30 25 = major ∧ fld (fmtV s major vd va vb vc m op ty sat sx) 24 22 = vd ∧ fld (fmtV s major vd va vb vc m op ty sat sx) 21 19 = va ∧ fld (fmtV s major vd va vb vc m op ty sat sx) 18 16 = vb ∧ fld (fmtV s major vd va vb vc m op ty sat sx) 15 13 = vc ∧ fld (fmtV s major vd va vb vc m op ty sat sx) 12 11 = m ∧ fld (fmtV s major vd va vb vc m op ty sat sx) 10 5 = op ∧ fld (fmtV s major vd va vb vc m op ty sat sx) 4 2 = ty ∧ fld (fmtV s major vd va vb vc m op ty sat sx) 1 1 = bit sat ∧ fld (fmtV s major vd va vb vc m op ty sat sx) 0 0 = bit sx := by
  have := bit_lt s
  have := bit_lt sat
  have := bit_lt sx
  simp only [fmtV, fld]
  omega

/-- Format VS. -/
theorem fields_VS (s sat : Bool) {major vd va xs m op ty : Nat} (hm : major < 64) (hd : vd < 8) (ha : va < 8) (hx : xs < 32)
    (hk : m < 4) (ho : op < 64) (ht : ty < 8) :
    fmtVS s major vd va xs m op ty sat < 2 ^ 32 ∧ fld (fmtVS s major vd va xs m op ty sat) 31 31 = bit s ∧ fld (fmtVS s major vd va xs m op ty sat) 30 25 = major ∧ fld (fmtVS s major vd va xs m op ty sat) 24 22 = vd ∧ fld (fmtVS s major vd va xs m op ty sat) 21 19 = va ∧ fld (fmtVS s major vd va xs m op ty sat) 18 14 = xs ∧ fld (fmtVS s major vd va xs m op ty sat) 13 13 = 0 ∧ fld (fmtVS s major vd va xs m op ty sat) 12 11 = m ∧ fld (fmtVS s major vd va xs m op ty sat) 10 5 = op ∧ fld (fmtVS s major vd va xs m op ty sat) 4 2 = ty ∧ fld (fmtVS s major vd va xs m op ty sat) 1 1 = bit sat ∧ fld (fmtVS s major vd va xs m op ty sat) 0 0 = 1 := by
  have := bit_lt s
  have := bit_lt sat
  simp only [fmtVS, fld]
  omega

/-- Format M. -/
theorem fields_M (s ext : Bool) {major d a off : Nat} (z : Size) (o : MemOrd) (hm : major < 64) (hd : d < 32) (ha : a < 32) (hf : off < 1024) :
    fmtM s major d a z ext o off < 2 ^ 32 ∧ fld (fmtM s major d a z ext o off) 31 31 = bit s ∧ fld (fmtM s major d a z ext o off) 30 25 = major ∧ fld (fmtM s major d a z ext o off) 24 20 = d ∧ fld (fmtM s major d a z ext o off) 19 15 = a ∧ fld (fmtM s major d a z ext o off) 14 13 = sizeCode z ∧ fld (fmtM s major d a z ext o off) 12 12 = bit ext ∧ fld (fmtM s major d a z ext o off) 11 10 = ordCode o ∧ fld (fmtM s major d a z ext o off) 9 0 = off := by
  have := bit_lt s
  have := bit_lt ext
  have := sizeCode_lt z
  have := ordCode_lt o
  simp only [fmtM, fld]
  omega

/-- Format VM. -/
theorem fields_VM (s : Bool) {v m a kind off : Nat} (o : MemOrd) (hv : v < 8) (hk : m < 4) (ha : a < 32) (hn : kind < 8) (hf : off < 1024) :
    fmtVM s v m a kind o off < 2 ^ 32 ∧ fld (fmtVM s v m a kind o off) 31 31 = bit s ∧ fld (fmtVM s v m a kind o off) 30 25 = 0x25 ∧ fld (fmtVM s v m a kind o off) 24 22 = v ∧ fld (fmtVM s v m a kind o off) 21 20 = m ∧ fld (fmtVM s v m a kind o off) 19 15 = a ∧ fld (fmtVM s v m a kind o off) 14 12 = kind ∧ fld (fmtVM s v m a kind o off) 11 10 = ordCode o ∧ fld (fmtVM s v m a kind o off) 9 0 = off := by
  have := bit_lt s
  have := ordCode_lt o
  simp only [fmtVM, fld]
  omega

/-! ### The major that a word selects -/

theorem word_alu (s : Bool) (d a b : XReg) {fn : Nat} (hf : fn < 1024) : Decode.word (fmtA s 0x01 d a b fn) = Decode.alu s d a b fn := by
  obtain ⟨-, h1, h2, h3, h4, h5, h6⟩ := fields_A s (major := 0x01) (by decide) d.isLt a.isLt b.isLt hf
  simp [Decode.word, h1, h2, h3, h4, h5, h6]

theorem word_idx (s : Bool) (d a b : XReg) {fn : Nat} (hf : fn < 1024) : Decode.word (fmtA s 0x12 d a b fn) = Decode.idx s d a b fn := by
  obtain ⟨-, h1, h2, h3, h4, h5, h6⟩ := fields_A s (major := 0x12) (by decide) d.isLt a.isLt b.isLt hf
  simp [Decode.word, h1, h2, h3, h4, h5, h6]

theorem word_amo (s : Bool) (d a b : XReg) {fn : Nat} (hf : fn < 1024) : Decode.word (fmtA s 0x13 d a b fn) = Decode.amo s d a b fn := by
  obtain ⟨-, h1, h2, h3, h4, h5, h6⟩ := fields_A s (major := 0x13) (by decide) d.isLt a.isLt b.isLt hf
  simp [Decode.word, h1, h2, h3, h4, h5, h6]

theorem word_rwl (s : Bool) (d a b : XReg) {fn : Nat} (hf : fn < 1024) : Decode.word (fmtA s 0x14 d a b fn) = Decode.rwl s d a b fn := by
  obtain ⟨-, h1, h2, h3, h4, h5, h6⟩ := fields_A s (major := 0x14) (by decide) d.isLt a.isLt b.isLt hf
  simp [Decode.word, h1, h2, h3, h4, h5, h6]

theorem word_fence (s : Bool) (d a b : XReg) {fn : Nat} (hf : fn < 1024) : Decode.word (fmtA s 0x15 d a b fn) = Decode.fence s d a b fn := by
  obtain ⟨-, h1, h2, h3, h4, h5, h6⟩ := fields_A s (major := 0x15) (by decide) d.isLt a.isLt b.isLt hf
  simp [Decode.word, h1, h2, h3, h4, h5, h6]

theorem word_msg (s : Bool) (d a b : XReg) {fn : Nat} (hf : fn < 1024) : Decode.word (fmtA s 0x16 d a b fn) = Decode.msg s d a b fn := by
  obtain ⟨-, h1, h2, h3, h4, h5, h6⟩ := fields_A s (major := 0x16) (by decide) d.isLt a.isLt b.isLt hf
  simp [Decode.word, h1, h2, h3, h4, h5, h6]

theorem word_bar (s : Bool) (d a b : XReg) {fn : Nat} (hf : fn < 1024) : Decode.word (fmtA s 0x17 d a b fn) = Decode.bar s d a b fn := by
  obtain ⟨-, h1, h2, h3, h4, h5, h6⟩ := fields_A s (major := 0x17) (by decide) d.isLt a.isLt b.isLt hf
  simp [Decode.word, h1, h2, h3, h4, h5, h6]

theorem word_vf (s : Bool) (d a b : XReg) {fn : Nat} (hf : fn < 1024) : Decode.word (fmtA s 0x18 d a b fn) = Decode.vf s d a b fn := by
  obtain ⟨-, h1, h2, h3, h4, h5, h6⟩ := fields_A s (major := 0x18) (by decide) d.isLt a.isLt b.isLt hf
  simp [Decode.word, h1, h2, h3, h4, h5, h6]

theorem word_pat (s : Bool) (d a b : XReg) {fn : Nat} (hf : fn < 1024) : Decode.word (fmtA s 0x27 d a b fn) = Decode.pat s d a b fn := by
  obtain ⟨-, h1, h2, h3, h4, h5, h6⟩ := fields_A s (major := 0x27) (by decide) d.isLt a.isLt b.isLt hf
  simp [Decode.word, h1, h2, h3, h4, h5, h6]

theorem word_work (s : Bool) (d a b : XReg) {fn : Nat} (hf : fn < 1024) : Decode.word (fmtA s 0x30 d a b fn) = Decode.work s d a b fn := by
  obtain ⟨-, h1, h2, h3, h4, h5, h6⟩ := fields_A s (major := 0x30) (by decide) d.isLt a.isLt b.isLt hf
  simp [Decode.word, h1, h2, h3, h4, h5, h6]

theorem word_gang (s : Bool) (d a b : XReg) {fn : Nat} (hf : fn < 1024) : Decode.word (fmtA s 0x32 d a b fn) = Decode.gang s d a b fn := by
  obtain ⟨-, h1, h2, h3, h4, h5, h6⟩ := fields_A s (major := 0x32) (by decide) d.isLt a.isLt b.isLt hf
  simp [Decode.word, h1, h2, h3, h4, h5, h6]

theorem word_28 (s : Bool) (d a b : XReg) {fn : Nat} (hf : fn < 1024) : Decode.word (fmtA s 0x28 d a b fn) = engines s 0x28 d a b fn := by
  obtain ⟨-, h1, h2, h3, h4, h5, h6⟩ := fields_A s (major := 0x28) (by decide) d.isLt a.isLt b.isLt hf
  simp [Decode.word, h1, h2, h3, h4, h5, h6]

theorem word_29 (s : Bool) (d a b : XReg) {fn : Nat} (hf : fn < 1024) : Decode.word (fmtA s 0x29 d a b fn) = engines s 0x29 d a b fn := by
  obtain ⟨-, h1, h2, h3, h4, h5, h6⟩ := fields_A s (major := 0x29) (by decide) d.isLt a.isLt b.isLt hf
  simp [Decode.word, h1, h2, h3, h4, h5, h6]

theorem word_2A (s : Bool) (d a b : XReg) {fn : Nat} (hf : fn < 1024) : Decode.word (fmtA s 0x2A d a b fn) = engines s 0x2A d a b fn := by
  obtain ⟨-, h1, h2, h3, h4, h5, h6⟩ := fields_A s (major := 0x2A) (by decide) d.isLt a.isLt b.isLt hf
  simp [Decode.word, h1, h2, h3, h4, h5, h6]

theorem word_31 (s : Bool) (d a b : XReg) {fn : Nat} (hf : fn < 1024) : Decode.word (fmtA s 0x31 d a b fn) = engines s 0x31 d a b fn := by
  obtain ⟨-, h1, h2, h3, h4, h5, h6⟩ := fields_A s (major := 0x31) (by decide) d.isLt a.isLt b.isLt hf
  simp [Decode.word, h1, h2, h3, h4, h5, h6]

theorem word_33 (s : Bool) (d a b : XReg) {fn : Nat} (hf : fn < 1024) : Decode.word (fmtA s 0x33 d a b fn) = crossing s 0x33 d a b fn := by
  obtain ⟨-, h1, h2, h3, h4, h5, h6⟩ := fields_A s (major := 0x33) (by decide) d.isLt a.isLt b.isLt hf
  simp [Decode.word, h1, h2, h3, h4, h5, h6]

theorem word_34 (s : Bool) (d a b : XReg) {fn : Nat} (hf : fn < 1024) : Decode.word (fmtA s 0x34 d a b fn) = crossing s 0x34 d a b fn := by
  obtain ⟨-, h1, h2, h3, h4, h5, h6⟩ := fields_A s (major := 0x34) (by decide) d.isLt a.isLt b.isLt hf
  simp [Decode.word, h1, h2, h3, h4, h5, h6]

theorem word_35 (s : Bool) (d a b : XReg) {fn : Nat} (hf : fn < 1024) : Decode.word (fmtA s 0x35 d a b fn) = crossing s 0x35 d a b fn := by
  obtain ⟨-, h1, h2, h3, h4, h5, h6⟩ := fields_A s (major := 0x35) (by decide) d.isLt a.isLt b.isLt hf
  simp [Decode.word, h1, h2, h3, h4, h5, h6]

theorem word_36 (s : Bool) (d a b : XReg) {fn : Nat} (hf : fn < 1024) : Decode.word (fmtA s 0x36 d a b fn) = crossing s 0x36 d a b fn := by
  obtain ⟨-, h1, h2, h3, h4, h5, h6⟩ := fields_A s (major := 0x36) (by decide) d.isLt a.isLt b.isLt hf
  simp [Decode.word, h1, h2, h3, h4, h5, h6]

theorem word_sysA (s : Bool) (d a b : XReg) {k : Nat} (hk : k < 256) : Decode.word (fmtA s 0x38 d a b k) = sys s (fmtA s 0x38 d a b k) := by
  obtain ⟨-, h1, h2, -⟩ := fields_A s (major := 0x38) (fn := k) (by decide) d.isLt a.isLt b.isLt (by omega)
  simp [Decode.word, h1, h2]

/-- The fields that `sys` reads out of a word of format A. -/
theorem fields_sysA (s : Bool) (d a b : XReg) {k : Nat} (hk : k < 256) :
    fld (fmtA s 0x38 d a b k) 9 8 = 0 ∧ fld (fmtA s 0x38 d a b k) 7 0 = k := by
  have := bit_lt s
  simp only [fmtA, fld]
  omega

theorem word_cmpi (s : Bool) {c n w : Nat} (d a : XReg) (imm : BitVec 11) (hn : n < 32768) (hc : n / 2048 = c) (hi : n % 2048 = imm.toNat)
    (hw : w = fmtI s 0x06 d a n) :
    Decode.word w = (match Decode.cond c with | some c => ok (.cmpi s c d a imm) [] | none => .error .illegal) := by
  obtain ⟨-, h1, h2, h3, h4, -, h6, h7⟩ := fields_I s (major := 0x06) (by decide) d.isLt a.isLt hn
  rw [← hw] at h1 h2 h3 h4 h6 h7
  rw [hc] at h6
  rw [hi] at h7
  simp only [Decode.word, h2]
  simp only [Decode.cmpi, h1, h3, h4, h6, h7, bit_eq_one, xr_val, BitVec.ofNat_toNat, BitVec.setWidth_eq] <;> rfl

theorem word_br (s : Bool) {c w : Nat} (a : XReg) (disp : BitVec 16) (hc : c < 16)
    (hw : w = bit s * 2 ^ 31 + 0x08 * 2 ^ 25 + c * 2 ^ 21 + a.val * 2 ^ 16 + disp.toNat) :
    Decode.word w = (match Decode.cond c with | some c => assigned (WellFormed.br c) (ok (.br s c a disp) []) | none => .error .illegal) := by
  obtain ⟨-, h1, h2, h3, h4, h5⟩ := fields_B s hc a.isLt disp.isLt hw
  simp only [Decode.word, h2]
  simp only [Decode.br, h1, h3, h4, h5, bit_eq_one, xr_val, BitVec.ofNat_toNat, BitVec.setWidth_eq] <;> rfl

theorem word_hint (s : Bool) {k w : Nat} (x : BitVec 23) (hk : k < 4) (hw : w = bit s * 2 ^ 31 + 0x3F * 2 ^ 25 + k * 2 ^ 23 + x.toNat) :
    Decode.word w = (match k with
      | 0 => ok (.hintImm s x) [] | 1 => ok (.hintImx s x) [] | 2 => ok (.hintMod s x) [] | _ => ok (.hintReg s x) []) := by
  obtain ⟨-, h1, h2, h3, h4⟩ := fields_H s hk x.isLt hw
  simp only [Decode.word, h2]
  simp only [Decode.hint, h1, h3, h4, bit_eq_one, BitVec.ofNat_toNat, BitVec.setWidth_eq] <;> rfl

theorem word_gets (s : Bool) {n w : Nat} (d : XReg) (hn : n < 4096) (hw : w = bit s * 2 ^ 31 + 0x38 * 2 ^ 25 + d.val * 2 ^ 20 + n * 2 ^ 8 + 0) :
    Decode.word w = (match sreg n with | some n => ok (.sysGets s d n) [] | none => .error .illegal) := by
  obtain ⟨-, h1, h2, h3, h4, h5⟩ := fields_S s d.isLt hn (by decide) hw
  simp only [Decode.word, h2]
  simp only [Decode.sys, h1, h3, h4, h5, bit_eq_one, xr_val] <;> rfl

theorem word_sets (s : Bool) {n w : Nat} (d : XReg) (hn : n < 4096) (hw : w = bit s * 2 ^ 31 + 0x38 * 2 ^ 25 + d.val * 2 ^ 20 + n * 2 ^ 8 + 1) :
    Decode.word w = (match sreg n with | some n => ok (.sysSets s d n) [] | none => .error .illegal) := by
  obtain ⟨-, h1, h2, h3, h4, h5⟩ := fields_S s d.isLt hn (by decide) hw
  simp only [Decode.word, h2]
  simp only [Decode.sys, h1, h3, h4, h5, bit_eq_one, xr_val] <;> rfl

theorem word_vop {w : Nat} (h : fld w 30 25 = 0x20) : Decode.word w = Decode.vop (decide (fld w 31 31 = 1)) (vfields w) := by
  simp [Decode.word, h]

theorem word_vfma {w : Nat} (h : fld w 30 25 = 0x21) : Decode.word w = Decode.vfma (decide (fld w 31 31 = 1)) (vfields w) := by
  simp [Decode.word, h]

theorem word_vcmp {w : Nat} (h : fld w 30 25 = 0x22) : Decode.word w = Decode.vcmp (decide (fld w 31 31 = 1)) (vfields w) := by
  simp [Decode.word, h]

theorem word_vred {w : Nat} (h : fld w 30 25 = 0x23) : Decode.word w = Decode.vred (decide (fld w 31 31 = 1)) (vfields w) := by
  simp [Decode.word, h]

theorem word_vcvt {w : Nat} (h : fld w 30 25 = 0x24) : Decode.word w = Decode.vcvt (decide (fld w 31 31 = 1)) (vfields w) := by
  simp [Decode.word, h]

theorem word_vmov {w : Nat} (h : fld w 30 25 = 0x26) : Decode.word w = Decode.vmov (decide (fld w 31 31 = 1)) (vfields w) := by
  simp [Decode.word, h]

/-- The vector fields of a word of format V. -/
theorem vfields_V (s sat sx : Bool) {major : Nat} (hm : major < 64) (d a b c : VReg) (m : MReg) {op ty : Nat} (ho : op < 64) (ht : ty < 8) :
    let w := fmtV s major d a b c m op ty sat sx
    fld w 31 31 = bit s ∧ fld w 30 25 = major ∧ (vfields w).vd = d.val ∧ (vfields w).va = a.val ∧ (vfields w).vb = b.val
      ∧ (vfields w).vc = c.val ∧ (vfields w).m = m.val ∧ (vfields w).op = op ∧ (vfields w).ty = ty ∧ (vfields w).sat = sat
      ∧ (vfields w).sx = sx := by
  obtain ⟨-, h1, h2, h3, h4, h5, h6, h7, h8, h9, h10, h11⟩ := fields_V s sat sx hm d.isLt a.isLt b.isLt c.isLt m.isLt ho ht
  simp [vfields, h1, h2, h3, h4, h5, h6, h7, h8, h9, h10, h11]

/-- The vector fields of a word of format VS. -/
theorem vfields_VS (s sat : Bool) {major : Nat} (hm : major < 64) (d a : VReg) (x : XReg) (m : MReg) {op ty : Nat} (ho : op < 64) (ht : ty < 8) :
    let w := fmtVS s major d a x m op ty sat
    fld w 31 31 = bit s ∧ fld w 30 25 = major ∧ (vfields w).vd = d.val ∧ (vfields w).va = a.val ∧ (vfields w).xs = x.val
      ∧ (vfields w).b13 = 0 ∧ (vfields w).m = m.val ∧ (vfields w).op = op ∧ (vfields w).ty = ty ∧ (vfields w).sat = sat
      ∧ (vfields w).sx = true := by
  obtain ⟨-, h1, h2, h3, h4, h5, h6, h7, h8, h9, h10, h11⟩ := fields_VS s sat hm d.isLt a.isLt x.isLt m.isLt ho ht
  simp [vfields, h1, h2, h3, h4, h5, h6, h7, h8, h9, h10, h11]

end Sys2Proof.Laws
end

