-- ==== Sys2Proof/Laws/Image.lean ====
section
/-! SUPPORT. Save images (20 R364): a record as it is written passes the checks that it is read under, and bytes of memory are read as they
were written. -/

namespace Sys2Proof.Machine

@[simp] theorem length_leBytes (n v : Nat) : (leBytes n v).length = n := by
  induction n generalizing v with
  | zero => rfl
  | succ n ih => simp [leBytes, ih]

theorem leValue_leBytes (n v : Nat) : leValue (leBytes n v) = v % 256 ^ n := by
  induction n generalizing v with
  | zero => simp [leBytes, leValue, Nat.mod_one]
  | succ n ih =>
    have h := Nat.mod_mul (x := v) (a := 256) (b := 256 ^ n)
    rw [leBytes, leValue, ih, BitVec.toNat_ofNat, Nat.pow_succ 256 n, Nat.mul_comm (256 ^ n) 256, h]

/-- A part of bytes that were written is read as it was written. -/
theorem Memory.readBytes_writeBytes_part {m : Memory} (a : Nat) (bs : List Byte) (off n : Nat) (h : off + n ≤ bs.length) (wf : Memory.wf m = true) :
    Memory.readBytes (Memory.writeBytes m a bs) (a + off) n = (bs.drop off).take n := by
  induction n generalizing off with
  | zero => simp [Memory.readBytes]
  | succ n ih =>
    rw [Memory.readBytes, Nat.add_assoc, ih (off + 1) (by omega), Memory.read_writeBytes_in bs off (by omega) wf, List.drop_eq_getElem_cons (show off < bs.length by omega),
      List.take_succ_cons]

@[simp] theorem length_recordHeader (kind brel size check : Nat) : (recordHeader kind brel size check).length = 64 := by
  simp [recordHeader]

/-- SIZE of a header. -/
theorem fileNat_recordHeader (kind brel size check : Nat) (rest : List Byte) : fileNat (recordHeader kind brel size check ++ rest) 16 8 = size % 2 ^ 64 := by
  simp only [fileNat, recordHeader, List.append_assoc]
  rw [show ∀ a b c d e r : List Byte, a ++ (b ++ (c ++ (d ++ (e ++ r)))) = (a ++ b ++ c ++ d ++ e) ++ r by simp,
    List.drop_left' (by simp), List.take_left' (by simp), leValue_leBytes]; rfl

/-- A record as it is written passes the checks that it is read under. -/
theorem takeRecord_recordBytes (kind brel size : Nat) (areas : List (Nat × List Byte)) (rest : List Byte) (h : 64 + (recordBody size areas).length < 2 ^ 64) :
    takeRecord kind brel (recordBytes kind brel size areas ++ rest) =
      some (recordHeader kind brel (64 + (recordBody size areas).length) (recordCheck kind brel (recordBody size areas)) ++ recordBody size areas, rest) := by
  unfold recordBytes
  generalize recordBody size areas = body at h
  have hr : recordSize (64 + body.length) = 64 + body.length + (recordSize (64 + body.length) - (64 + body.length)) := by unfold recordSize; omega
  dsimp only
  generalize recordSize (64 + body.length) - (64 + body.length) = pad at hr
  generalize hh : recordHeader kind brel (64 + body.length) (recordCheck kind brel body) = head
  have hl : head.length = 64 := by rw [← hh]; simp
  have hs : fileNat (head ++ body ++ List.replicate pad 0 ++ rest) 16 8 = 64 + body.length := by
    rw [← hh, List.append_assoc, List.append_assoc, fileNat_recordHeader, Nat.mod_eq_of_lt h]
  have ht : (head ++ body ++ List.replicate pad 0 ++ rest).take (64 + body.length) = head ++ body := by
    rw [List.append_assoc, List.take_left' (by simp [hl])]
  have hd : (head ++ body).drop 64 = body := List.drop_left' hl
  unfold takeRecord
  have h64 : (head ++ body ++ List.replicate pad 0 ++ rest).take 64 = head := by
    rw [List.append_assoc, List.append_assoc, List.take_left' hl]
  simp only [hs, ht, hd, hh, h64]
  rw [if_pos ⟨by omega, by simp [hl], trivial⟩, hr, List.drop_left' (by simp [hl]; omega)]

theorem length_recordBytes (kind brel size : Nat) (areas : List (Nat × List Byte)) :
    (recordBytes kind brel size areas).length = recordSize (64 + (recordBody size areas).length) := by
  simp only [recordBytes, List.length_append, length_recordHeader, List.length_replicate]
  unfold recordSize; omega

/-- MAGIC and SIZE of a record, whatever follows. -/
theorem fileNat_recordBytes (kind brel size : Nat) (areas : List (Nat × List Byte)) (rest : List Byte) (h : 64 + (recordBody size areas).length < 2 ^ 64) :
    fileNat (recordBytes kind brel size areas ++ rest) 0 4 = 0x1A525653
      ∧ fileNat (recordBytes kind brel size areas ++ rest) 16 8 = 64 + (recordBody size areas).length := by
  rw [recordBytes, List.append_assoc, List.append_assoc]
  refine ⟨?_, by rw [fileNat_recordHeader, Nat.mod_eq_of_lt h]⟩
  simp only [fileNat, recordHeader, List.append_assoc, List.drop_zero]
  rw [List.take_left' (by simp), leValue_leBytes]
  rfl

/-- What is read behind a header. -/
theorem fileNat_behind (head bs : List Byte) (off n : Nat) (h : head.length = 64) : fileNat (head ++ bs) (64 + off) n = fileNat bs off n := by
  rw [fileNat, ← h, List.drop_length_add_append, fileNat]

/-- A record as it is written: KIND, BREL, size, areas. -/
abbrev WrittenRecord := Nat × Nat × Nat × List (Nat × List Byte)

def WrittenRecord.bytes (r : WrittenRecord) : List Byte := recordBytes r.1 r.2.1 r.2.2.1 r.2.2.2

/-- The records at a cell go as far as they were written. -/
theorem State.imageExtent_records {s : State} {m : Memory} (at_ : Nat) (wf : Memory.wf m = true) (rs : List WrittenRecord)
    (hs : ∀ r ∈ rs, 64 + (recordBody r.2.2.1 r.2.2.2).length < 2 ^ 64) (pre : List Byte)
    (hm : s.mem = Memory.writeBytes m at_ (pre ++ rs.flatMap WrittenRecord.bytes)) :
    s.imageExtent at_ rs.length pre.length = (pre ++ rs.flatMap WrittenRecord.bytes).length := by
  induction rs generalizing pre with
  | nil => simp [State.imageExtent]
  | cons r rs ih =>
    have hr := hs r (List.mem_cons_self ..)
    have hl : r.bytes.length = recordSize (64 + (recordBody r.2.2.1 r.2.2.2).length) := length_recordBytes ..
    have h64 : 64 ≤ r.bytes.length := by rw [hl]; unfold recordSize; omega
    have read (off n : Nat) (h : off + n ≤ 64) :
        s.peek (at_ + (pre.length + off)) n = fileNat (r.bytes ++ rs.flatMap WrittenRecord.bytes) off n := by
      rw [State.peek, hm, Memory.readBytes_writeBytes_part at_ _ (pre.length + off) n (by simp; omega) wf, List.flatMap_cons,
        List.drop_length_add_append, fileNat]
    obtain ⟨h1, h2⟩ := fileNat_recordBytes r.1 r.2.1 r.2.2.1 r.2.2.2 (rs.flatMap WrittenRecord.bytes) hr
    have e1 : s.peek (at_ + pre.length) 4 = 0x1A525653 := (read 0 4 (by omega)).trans h1
    have e2 : s.peek (at_ + pre.length + 16) 8 = 64 + (recordBody r.2.2.1 r.2.2.2).length := (read 16 8 (by omega)).trans h2
    rw [List.length_cons, State.imageExtent, if_pos e1, e2, ← hl, ← List.length_append,
      ih (fun x hx => hs x (List.mem_cons_of_mem _ hx)) (pre ++ r.bytes) (by rw [hm]; simp)]
    simp

/-- The bytes of an image are read as they were written. -/
theorem State.imageBytes_records {s : State} {m : Memory} (at_ : Nat) (wf : Memory.wf m = true) (rs : List WrittenRecord)
    (hs : ∀ r ∈ rs, 64 + (recordBody r.2.2.1 r.2.2.2).length < 2 ^ 64) (hm : s.mem = Memory.writeBytes m at_ (rs.flatMap WrittenRecord.bytes))
    (hc : 1 + s.peek (at_ + 224) 2 + s.peek (at_ + 226) 2 + s.peek (at_ + 228) 2 = rs.length) :
    s.imageBytes at_ = rs.flatMap WrittenRecord.bytes := by
  have h := State.imageExtent_records at_ wf rs hs [] (by simpa using hm)
  simp only [List.nil_append, List.length_nil] at h
  simp only [State.imageBytes, hc]
  rw [h, hm, Memory.readBytes_writeBytes _ _ wf]

end Sys2Proof.Machine
end

