-- ==== Sys2Proof/Laws/PerInstr.lean ====
section
/-! SUPPORT. Decoding gives back what was encoded, per instruction (02 R33 to R41): the family RoundTrip of LAWS.json. -/

namespace Sys2Proof.Laws.RoundTrip

-- One theorem at a time: each would otherwise take a thread of its own.
set_option Elab.async false

open Sys2Proof.Encode Sys2Proof.Decode

/-- A well-formed instruction that has a word is what the decoder reads from it. -/
def Statement (i : Instr) : Prop := WellFormed i = true → ∀ w, encode i = some w → decode w = .ok i

theorem ofWord {i : Instr} {n : Nat} (he : Encode.word i = some n) (hn : n < 2 ^ 32) (h : WellFormed i = true → Decode.word n = .ok i) :
    Statement i := by
  intro hi w hw
  simp only [encode, he, Option.map_some, Option.some.injEq] at hw
  rw [← hw, decode, BitVec.toNat_ofNat, Nat.mod_eq_of_lt hn, h hi]

theorem ofEvent {i : Instr} (he : Encode.word i = none) : Statement i := by
  intro _ w hw
  simp [encode, he] at hw

/-- Words of format A whose major reads its fields alone. -/
theorem ofA {i : Instr} {s : Bool} {major fn : Nat} {d a b : XReg} {r : Except DecodeFault Instr}
    (he : Encode.word i = some (fmtA s major d a b fn)) (hm : major < 64) (hf : fn < 1024)
    (hw : fn < 1024 → Decode.word (fmtA s major d a b fn) = r) (h : WellFormed i = true → r = .ok i) : Statement i :=
  ofWord he (fields_A s hm d.isLt a.isLt b.isLt hf).1 (fun hi => (hw hf).trans (h hi))

/-- Words of format V. -/
theorem ofV {i : Instr} {s sat sx : Bool} {major op ty : Nat} {d a b c : VReg} {m : MReg} {sub : Bool → VFields → Except DecodeFault Instr}
    (he : Encode.word i = some (fmtV s major d a b c m op ty sat sx)) (hm : major < 64) (ho : op < 64) (ht : ty < 7)
    (hw : ∀ {w : Nat}, fld w 30 25 = major → Decode.word w = sub (decide (fld w 31 31 = 1)) (vfields w))
    (h : ∀ f : VFields, f.vd = d.val → f.va = a.val → f.vb = b.val → f.vc = c.val → f.m = m.val → f.op = op → f.ty = ty → f.sat = sat →
      f.sx = sx → WellFormed i = true → sub s f = .ok i) : Statement i := by
  obtain ⟨h1, h2, h3, h4, h5, h6, h7, h8, h9, h10, h11⟩ := vfields_V s sat sx hm d a b c m ho (Nat.lt_succ_of_lt ht)
  refine ofWord he (fields_V s sat sx hm d.isLt a.isLt b.isLt c.isLt m.isLt ho (Nat.lt_succ_of_lt ht)).1 (fun hi => ?_)
  rw [hw h2, h1, bit_eq_one]
  exact h _ h3 h4 h5 h6 h7 h8 h9 h10 h11 hi

/-- Words of format VS. -/
theorem ofVS {i : Instr} {s sat : Bool} {major op ty : Nat} {d a : VReg} {x : XReg} {m : MReg} {sub : Bool → VFields → Except DecodeFault Instr}
    (he : Encode.word i = some (fmtVS s major d a x m op ty sat)) (hm : major < 64) (ho : op < 64) (ht : ty < 7)
    (hw : ∀ {w : Nat}, fld w 30 25 = major → Decode.word w = sub (decide (fld w 31 31 = 1)) (vfields w))
    (h : ∀ f : VFields, f.vd = d.val → f.va = a.val → f.xs = x.val → f.b13 = 0 → f.m = m.val → f.op = op → f.ty = ty → f.sat = sat →
      f.sx = true → WellFormed i = true → sub s f = .ok i) : Statement i := by
  obtain ⟨h1, h2, h3, h4, h5, h6, h7, h8, h9, h10, h11⟩ := vfields_VS s sat hm d a x m ho (Nat.lt_succ_of_lt ht)
  refine ofWord he (fields_VS s sat hm d.isLt a.isLt x.isLt m.isLt ho (Nat.lt_succ_of_lt ht)).1 (fun hi => ?_)
  rw [hw h2, h1, bit_eq_one]
  exact h _ h3 h4 h5 h6 h7 h8 h9 h10 h11 hi

theorem size_mod {m n : Nat} (h : m % 4 = n % 4) : size m = size n := by unfold size; rw [h]
theorem ord_mod {m n : Nat} (h : m % 4 = n % 4) : ord m = ord n := by unfold ord; rw [h]

/-- The function field of idx (06 R124). -/
theorem idx_fields {op : Nat} (z : Size) (e : Bool) (o : MemOrd) :
    let fn := op * 128 + sizeCode z * 32 + bit e * 16 + ordCode o * 4
    size (fn / 32) = z ∧ decide (fn / 16 % 2 = 1) = e ∧ ord (fn / 4) = o ∧ fn / 128 = op ∧ fn % 4 = 0 := by
  have h1 := sizeCode_lt z
  have h2 := bit_lt e
  have h3 := ordCode_lt o
  refine ⟨?_, ?_, ?_, by omega, by omega⟩
  · exact (size_mod (by omega)).trans (size_sizeCode z)
  · rw [show (op * 128 + sizeCode z * 32 + bit e * 16 + ordCode o * 4) / 16 % 2 = bit e by omega, bit_eq_one]
  · exact (ord_mod (by omega)).trans (ord_ordCode o)

theorem idx_lt {op : Nat} (z : Size) (e : Bool) (o : MemOrd) (h : op < 8) :
    op * 128 + sizeCode z * 32 + bit e * 16 + ordCode o * 4 < 1024 := by
  have h1 := sizeCode_lt z
  have h2 := bit_lt e
  have h3 := ordCode_lt o
  omega

/-- The function field of amo (06 R126). -/
theorem amo_fields {op : Nat} (z : Size) (o : MemOrd) :
    let fn := op * 32 + sizeCode z * 8 + ordCode o * 2
    size (fn / 8) = z ∧ ord (fn / 2) = o ∧ fn / 32 = op ∧ fn % 2 = 0 := by
  have h1 := sizeCode_lt z
  have h3 := ordCode_lt o
  refine ⟨?_, ?_, by omega, by omega⟩
  · exact (size_mod (by omega)).trans (size_sizeCode z)
  · exact (ord_mod (by omega)).trans (ord_ordCode o)

theorem amo_lt {op : Nat} (z : Size) (o : MemOrd) (h : op < 32) : op * 32 + sizeCode z * 8 + ordCode o * 2 < 1024 := by
  have h1 := sizeCode_lt z
  have h3 := ordCode_lt o
  omega

theorem aluAdd (sw : Bool) (d a b : XReg) : Statement (.aluAdd sw d a b) :=
  ofA (d := d) (a := a) (b := b) rfl (by decide) (by decide) (word_alu sw d a b) (fun _ => by
    simp [Decode.alu, ok])
theorem aluSub (sw : Bool) (d a b : XReg) : Statement (.aluSub sw d a b) :=
  ofA (d := d) (a := a) (b := b) rfl (by decide) (by decide) (word_alu sw d a b) (fun _ => by
    simp [Decode.alu, ok])
theorem aluAnd (sw : Bool) (d a b : XReg) : Statement (.aluAnd sw d a b) :=
  ofA (d := d) (a := a) (b := b) rfl (by decide) (by decide) (word_alu sw d a b) (fun _ => by
    simp [Decode.alu, ok])
theorem aluOr (sw : Bool) (d a b : XReg) : Statement (.aluOr sw d a b) :=
  ofA (d := d) (a := a) (b := b) rfl (by decide) (by decide) (word_alu sw d a b) (fun _ => by
    simp [Decode.alu, ok])
theorem aluXor (sw : Bool) (d a b : XReg) : Statement (.aluXor sw d a b) :=
  ofA (d := d) (a := a) (b := b) rfl (by decide) (by decide) (word_alu sw d a b) (fun _ => by
    simp [Decode.alu, ok])
theorem aluAnot (sw : Bool) (d a b : XReg) : Statement (.aluAnot sw d a b) :=
  ofA (d := d) (a := a) (b := b) rfl (by decide) (by decide) (word_alu sw d a b) (fun _ => by
    simp [Decode.alu, ok])
theorem aluSll (sw : Bool) (d a b : XReg) : Statement (.aluSll sw d a b) :=
  ofA (d := d) (a := a) (b := b) rfl (by decide) (by decide) (word_alu sw d a b) (fun _ => by
    simp [Decode.alu, ok])
theorem aluSrl (sw : Bool) (d a b : XReg) : Statement (.aluSrl sw d a b) :=
  ofA (d := d) (a := a) (b := b) rfl (by decide) (by decide) (word_alu sw d a b) (fun _ => by
    simp [Decode.alu, ok])
theorem aluSra (sw : Bool) (d a b : XReg) : Statement (.aluSra sw d a b) :=
  ofA (d := d) (a := a) (b := b) rfl (by decide) (by decide) (word_alu sw d a b) (fun _ => by
    simp [Decode.alu, ok])
theorem aluRol (sw : Bool) (d a b : XReg) : Statement (.aluRol sw d a b) :=
  ofA (d := d) (a := a) (b := b) rfl (by decide) (by decide) (word_alu sw d a b) (fun _ => by
    simp [Decode.alu, ok])
theorem aluMin (sw : Bool) (d a b : XReg) : Statement (.aluMin sw d a b) :=
  ofA (d := d) (a := a) (b := b) rfl (by decide) (by decide) (word_alu sw d a b) (fun _ => by
    simp [Decode.alu, ok])
theorem aluMax (sw : Bool) (d a b : XReg) : Statement (.aluMax sw d a b) :=
  ofA (d := d) (a := a) (b := b) rfl (by decide) (by decide) (word_alu sw d a b) (fun _ => by
    simp [Decode.alu, ok])
theorem aluUmin (sw : Bool) (d a b : XReg) : Statement (.aluUmin sw d a b) :=
  ofA (d := d) (a := a) (b := b) rfl (by decide) (by decide) (word_alu sw d a b) (fun _ => by
    simp [Decode.alu, ok])
theorem aluUmax (sw : Bool) (d a b : XReg) : Statement (.aluUmax sw d a b) :=
  ofA (d := d) (a := a) (b := b) rfl (by decide) (by decide) (word_alu sw d a b) (fun _ => by
    simp [Decode.alu, ok])
theorem aluStep2 (sw : Bool) (d a b : XReg) : Statement (.aluStep2 sw d a b) :=
  ofA (d := d) (a := a) (b := b) rfl (by decide) (by decide) (word_alu sw d a b) (fun _ => by
    simp [Decode.alu, ok])
theorem aluStep4 (sw : Bool) (d a b : XReg) : Statement (.aluStep4 sw d a b) :=
  ofA (d := d) (a := a) (b := b) rfl (by decide) (by decide) (word_alu sw d a b) (fun _ => by
    simp [Decode.alu, ok])
theorem aluStep8 (sw : Bool) (d a b : XReg) : Statement (.aluStep8 sw d a b) :=
  ofA (d := d) (a := a) (b := b) rfl (by decide) (by decide) (word_alu sw d a b) (fun _ => by
    simp [Decode.alu, ok])
theorem aluStep64 (sw : Bool) (d a b : XReg) : Statement (.aluStep64 sw d a b) :=
  ofA (d := d) (a := a) (b := b) rfl (by decide) (by decide) (word_alu sw d a b) (fun _ => by
    simp [Decode.alu, ok])
theorem aluCmp (sw : Bool) (cond : Cond) (d a b : XReg) : Statement (.aluCmp sw cond d a b) :=
  ofA (d := d) (a := a) (b := b) rfl (by decide) (by have := condCode_lt cond; omega) (word_alu sw d a b) (fun _ => by
    have := condCode_lt cond
    have h1 : (0x12 * 16 + condCode cond) / 16 = 0x12 := by omega
    have h2 : (0x12 * 16 + condCode cond) % 16 = condCode cond := by omega
    simp [Decode.alu, ok, h1, h2])
theorem aluLzc (sw : Bool) (d a : XReg) : Statement (.aluLzc sw d a) :=
  ofA (d := d) (a := a) (b := 0) rfl (by decide) (by decide) (word_alu sw d a 0) (fun _ => by
    simp [Decode.alu, ok])
theorem aluTzc (sw : Bool) (d a : XReg) : Statement (.aluTzc sw d a) :=
  ofA (d := d) (a := a) (b := 0) rfl (by decide) (by decide) (word_alu sw d a 0) (fun _ => by
    simp [Decode.alu, ok])
theorem aluOnes (sw : Bool) (d a : XReg) : Statement (.aluOnes sw d a) :=
  ofA (d := d) (a := a) (b := 0) rfl (by decide) (by decide) (word_alu sw d a 0) (fun _ => by
    simp [Decode.alu, ok])
theorem aluSx8 (sw : Bool) (d a : XReg) : Statement (.aluSx8 sw d a) :=
  ofA (d := d) (a := a) (b := 0) rfl (by decide) (by decide) (word_alu sw d a 0) (fun _ => by
    simp [Decode.alu, ok])
theorem aluSx16 (sw : Bool) (d a : XReg) : Statement (.aluSx16 sw d a) :=
  ofA (d := d) (a := a) (b := 0) rfl (by decide) (by decide) (word_alu sw d a 0) (fun _ => by
    simp [Decode.alu, ok])
theorem aluSx32 (sw : Bool) (d a : XReg) : Statement (.aluSx32 sw d a) :=
  ofA (d := d) (a := a) (b := 0) rfl (by decide) (by decide) (word_alu sw d a 0) (fun _ => by
    simp [Decode.alu, ok])
theorem aluZx32 (sw : Bool) (d a : XReg) : Statement (.aluZx32 sw d a) :=
  ofA (d := d) (a := a) (b := 0) rfl (by decide) (by decide) (word_alu sw d a 0) (fun _ => by
    simp [Decode.alu, ok])
theorem aluMul (sw : Bool) (d a b : XReg) : Statement (.aluMul sw d a b) :=
  ofA (d := d) (a := a) (b := b) rfl (by decide) (by decide) (word_alu sw d a b) (fun _ => by
    simp [Decode.alu, ok])
theorem aluHiss (sw : Bool) (d a b : XReg) : Statement (.aluHiss sw d a b) :=
  ofA (d := d) (a := a) (b := b) rfl (by decide) (by decide) (word_alu sw d a b) (fun _ => by
    simp [Decode.alu, ok])
theorem aluHiuu (sw : Bool) (d a b : XReg) : Statement (.aluHiuu sw d a b) :=
  ofA (d := d) (a := a) (b := b) rfl (by decide) (by decide) (word_alu sw d a b) (fun _ => by
    simp [Decode.alu, ok])
theorem aluHisu (sw : Bool) (d a b : XReg) : Statement (.aluHisu sw d a b) :=
  ofA (d := d) (a := a) (b := b) rfl (by decide) (by decide) (word_alu sw d a b) (fun _ => by
    simp [Decode.alu, ok])
theorem aluQuo (sw : Bool) (d a b : XReg) : Statement (.aluQuo sw d a b) :=
  ofA (d := d) (a := a) (b := b) rfl (by decide) (by decide) (word_alu sw d a b) (fun _ => by
    simp [Decode.alu, ok])
theorem aluQuou (sw : Bool) (d a b : XReg) : Statement (.aluQuou sw d a b) :=
  ofA (d := d) (a := a) (b := b) rfl (by decide) (by decide) (word_alu sw d a b) (fun _ => by
    simp [Decode.alu, ok])
theorem aluRmd (sw : Bool) (d a b : XReg) : Statement (.aluRmd sw d a b) :=
  ofA (d := d) (a := a) (b := b) rfl (by decide) (by decide) (word_alu sw d a b) (fun _ => by
    simp [Decode.alu, ok])
theorem aluRmdu (sw : Bool) (d a b : XReg) : Statement (.aluRmdu sw d a b) :=
  ofA (d := d) (a := a) (b := b) rfl (by decide) (by decide) (word_alu sw d a b) (fun _ => by
    simp [Decode.alu, ok])
theorem addi (sw : Bool) (d a : XReg) (imm : BitVec 15) : Statement (.addi sw d a imm) := by
  obtain ⟨h0, h1, h2, h3, h4, h5, -⟩ := fields_I sw (major := 0x02) (by decide) d.isLt a.isLt imm.isLt
  exact ofWord rfl h0 (fun _ => by simp [Decode.word, ok, h1, h2, h3, h4, h5])
theorem andi (sw : Bool) (d a : XReg) (imm : BitVec 15) : Statement (.andi sw d a imm) := by
  obtain ⟨h0, h1, h2, h3, h4, h5, -⟩ := fields_I sw (major := 0x03) (by decide) d.isLt a.isLt imm.isLt
  exact ofWord rfl h0 (fun _ => by simp [Decode.word, ok, h1, h2, h3, h4, h5])
theorem ori (sw : Bool) (d a : XReg) (imm : BitVec 15) : Statement (.ori sw d a imm) := by
  obtain ⟨h0, h1, h2, h3, h4, h5, -⟩ := fields_I sw (major := 0x04) (by decide) d.isLt a.isLt imm.isLt
  exact ofWord rfl h0 (fun _ => by simp [Decode.word, ok, h1, h2, h3, h4, h5])
theorem xori (sw : Bool) (d a : XReg) (imm : BitVec 15) : Statement (.xori sw d a imm) := by
  obtain ⟨h0, h1, h2, h3, h4, h5, -⟩ := fields_I sw (major := 0x05) (by decide) d.isLt a.isLt imm.isLt
  exact ofWord rfl h0 (fun _ => by simp [Decode.word, ok, h1, h2, h3, h4, h5])
theorem cmpi (sw : Bool) (cond : Cond) (d a : XReg) (imm : BitVec 11) : Statement (.cmpi sw cond d a imm) := by
  have hc := condCode_lt cond
  have hx : imm.toNat < 2048 := imm.isLt
  have hn : condCode cond * 2 ^ 11 + imm.toNat < 32768 := by omega
  exact ofWord rfl (fields_I sw (major := 0x06) (by decide) d.isLt a.isLt hn).1 (fun _ =>
    (word_cmpi sw (c := condCode cond) d a imm hn (by omega) (by omega) rfl).trans (by rw [cond_condCode]; rfl))
theorem lim (sw : Bool) (d : XReg) (imm : BitVec 20) : Statement (.lim sw d imm) := by
  obtain ⟨h0, h1, h2, h3, h4⟩ := fields_L sw (major := 0x07) (by decide) d.isLt imm.isLt
  exact ofWord rfl h0 (fun _ => by simp [Decode.word, ok, h1, h2, h3, h4])
theorem br (sw : Bool) (cond : Cond) (a : XReg) (disp : BitVec 16) : Statement (.br sw cond a disp) :=
  have hc : condCode cond < 16 := by have := condCode_lt cond; omega
  ofWord rfl (fields_B sw hc a.isLt disp.isLt rfl).1 (fun hi => (word_br sw a disp hc rfl).trans (by simpa [ok, assigned, WellFormed] using hi))
theorem jmp (sw : Bool) (d : XReg) (imm : BitVec 20) : Statement (.jmp sw d imm) := by
  obtain ⟨h0, h1, h2, h3, h4⟩ := fields_L sw (major := 0x09) (by decide) d.isLt imm.isLt
  exact ofWord rfl h0 (fun _ => by simp [Decode.word, ok, h1, h2, h3, h4])
theorem jr (sw : Bool) (d a : XReg) (imm : BitVec 15) : Statement (.jr sw d a imm) := by
  obtain ⟨h0, h1, h2, h3, h4, h5, -⟩ := fields_I sw (major := 0x0A) (by decide) d.isLt a.isLt imm.isLt
  exact ofWord rfl h0 (fun _ => by simp [Decode.word, ok, h1, h2, h3, h4, h5])
theorem hintImm (sw : Bool) (data : BitVec 23) : Statement (.hintImm sw data) :=
  ofWord rfl (fields_H sw (k := 0) (by decide) data.isLt rfl).1 (fun _ => (word_hint sw (k := 0) data (by decide) rfl).trans (by simp [ok]))
theorem hintImx (sw : Bool) (data : BitVec 23) : Statement (.hintImx sw data) :=
  ofWord rfl (fields_H sw (k := 1) (by decide) data.isLt rfl).1 (fun _ => (word_hint sw (k := 1) data (by decide) rfl).trans (by simp [ok]))
theorem hintMod (sw : Bool) (data : BitVec 23) : Statement (.hintMod sw data) :=
  ofWord rfl (fields_H sw (k := 2) (by decide) data.isLt rfl).1 (fun _ => (word_hint sw (k := 2) data (by decide) rfl).trans (by simp [ok]))
theorem hintReg (sw : Bool) (data : BitVec 23) : Statement (.hintReg sw data) :=
  ofWord rfl (fields_H sw (k := 3) (by decide) data.isLt rfl).1 (fun _ => (word_hint sw (k := 3) data (by decide) rfl).trans (by simp [ok]))
theorem ld (sw : Bool) (sz : Size) (sext : Bool) (ord : MemOrd) (d a : XReg) (off : BitVec 10) : Statement (.ld sw sz sext ord d a off) := by
  obtain ⟨h0, h1, h2, h3, h4, h5, h6, h7, h8⟩ := fields_M sw (major := 0x10) (ext := sext) sz ord (by decide) d.isLt a.isLt off.isLt
  refine ofWord rfl h0 (fun hi => ?_)
  simp only [Decode.word, ldst, h1, h2, h3, h4, h5, h6, h7, h8]
  simpa [ok, assigned, WellFormed] using hi
theorem st (sw : Bool) (sz : Size) (ord : MemOrd) (d a : XReg) (off : BitVec 10) : Statement (.st sw sz ord d a off) := by
  obtain ⟨h0, h1, h2, h3, h4, h5, h6, h7, h8⟩ := fields_M sw (major := 0x11) (ext := false) sz ord (by decide) d.isLt a.isLt off.isLt
  refine ofWord rfl h0 (fun hi => ?_)
  simp only [Decode.word, ldst, h1, h2, h3, h4, h5, h6, h7, h8]
  simpa [ok, assigned, WellFormed] using hi
theorem idxLd (sw : Bool) (sz : Size) (sext : Bool) (ord : MemOrd) (d a b : XReg) : Statement (.idxLd sw sz sext ord d a b) :=
  ofA (d := d) (a := a) (b := b) rfl (by decide) (idx_lt _ _ _ (by decide)) (word_idx sw d a b) (fun hi => by
    obtain ⟨h1, h2, h3, h4, h5⟩ := idx_fields (op := 0) sz sext ord
    rw [Decode.idx, h1, h2, h3, h4, h5]
    simpa [assigned, ok, WellFormed] using hi)
theorem idxSt (sw : Bool) (sz : Size) (ord : MemOrd) (d a b : XReg) : Statement (.idxSt sw sz ord d a b) :=
  ofA (d := d) (a := a) (b := b) rfl (by decide) (idx_lt _ _ _ (by decide)) (word_idx sw d a b) (fun hi => by
    obtain ⟨h1, h2, h3, h4, h5⟩ := idx_fields (op := 1) sz false ord
    rw [Decode.idx, h1, h2, h3, h4, h5]
    simpa [assigned, ok, WellFormed] using hi)
theorem amoAdd (sw : Bool) (sz : Size) (ord : MemOrd) (d a b : XReg) : Statement (.amoAdd sw sz ord d a b) :=
  ofA (d := d) (a := a) (b := b) rfl (by decide) (amo_lt _ _ (by decide)) (word_amo sw d a b) (fun hi => by
    obtain ⟨h1, h2, h3, h4⟩ := amo_fields (op := 0) sz ord
    simp only [Decode.amo, h1, h2, h3, h4]
    simpa [assigned, ok, WellFormed] using hi)
theorem amoAnd (sw : Bool) (sz : Size) (ord : MemOrd) (d a b : XReg) : Statement (.amoAnd sw sz ord d a b) :=
  ofA (d := d) (a := a) (b := b) rfl (by decide) (amo_lt _ _ (by decide)) (word_amo sw d a b) (fun hi => by
    obtain ⟨h1, h2, h3, h4⟩ := amo_fields (op := 1) sz ord
    simp only [Decode.amo, h1, h2, h3, h4]
    simpa [assigned, ok, WellFormed] using hi)
theorem amoOr (sw : Bool) (sz : Size) (ord : MemOrd) (d a b : XReg) : Statement (.amoOr sw sz ord d a b) :=
  ofA (d := d) (a := a) (b := b) rfl (by decide) (amo_lt _ _ (by decide)) (word_amo sw d a b) (fun hi => by
    obtain ⟨h1, h2, h3, h4⟩ := amo_fields (op := 2) sz ord
    simp only [Decode.amo, h1, h2, h3, h4]
    simpa [assigned, ok, WellFormed] using hi)
theorem amoXor (sw : Bool) (sz : Size) (ord : MemOrd) (d a b : XReg) : Statement (.amoXor sw sz ord d a b) :=
  ofA (d := d) (a := a) (b := b) rfl (by decide) (amo_lt _ _ (by decide)) (word_amo sw d a b) (fun hi => by
    obtain ⟨h1, h2, h3, h4⟩ := amo_fields (op := 3) sz ord
    simp only [Decode.amo, h1, h2, h3, h4]
    simpa [assigned, ok, WellFormed] using hi)
theorem amoMin (sw : Bool) (sz : Size) (ord : MemOrd) (d a b : XReg) : Statement (.amoMin sw sz ord d a b) :=
  ofA (d := d) (a := a) (b := b) rfl (by decide) (amo_lt _ _ (by decide)) (word_amo sw d a b) (fun hi => by
    obtain ⟨h1, h2, h3, h4⟩ := amo_fields (op := 4) sz ord
    simp only [Decode.amo, h1, h2, h3, h4]
    simpa [assigned, ok, WellFormed] using hi)
theorem amoMax (sw : Bool) (sz : Size) (ord : MemOrd) (d a b : XReg) : Statement (.amoMax sw sz ord d a b) :=
  ofA (d := d) (a := a) (b := b) rfl (by decide) (amo_lt _ _ (by decide)) (word_amo sw d a b) (fun hi => by
    obtain ⟨h1, h2, h3, h4⟩ := amo_fields (op := 5) sz ord
    simp only [Decode.amo, h1, h2, h3, h4]
    simpa [assigned, ok, WellFormed] using hi)
theorem amoMinu (sw : Bool) (sz : Size) (ord : MemOrd) (d a b : XReg) : Statement (.amoMinu sw sz ord d a b) :=
  ofA (d := d) (a := a) (b := b) rfl (by decide) (amo_lt _ _ (by decide)) (word_amo sw d a b) (fun hi => by
    obtain ⟨h1, h2, h3, h4⟩ := amo_fields (op := 6) sz ord
    simp only [Decode.amo, h1, h2, h3, h4]
    simpa [assigned, ok, WellFormed] using hi)
theorem amoMaxu (sw : Bool) (sz : Size) (ord : MemOrd) (d a b : XReg) : Statement (.amoMaxu sw sz ord d a b) :=
  ofA (d := d) (a := a) (b := b) rfl (by decide) (amo_lt _ _ (by decide)) (word_amo sw d a b) (fun hi => by
    obtain ⟨h1, h2, h3, h4⟩ := amo_fields (op := 7) sz ord
    simp only [Decode.amo, h1, h2, h3, h4]
    simpa [assigned, ok, WellFormed] using hi)
theorem amoFadd (sw : Bool) (sz : Size) (ord : MemOrd) (d a b : XReg) : Statement (.amoFadd sw sz ord d a b) :=
  ofA (d := d) (a := a) (b := b) rfl (by decide) (amo_lt _ _ (by decide)) (word_amo sw d a b) (fun hi => by
    obtain ⟨h1, h2, h3, h4⟩ := amo_fields (op := 8) sz ord
    simp only [Decode.amo, h1, h2, h3, h4]
    simpa [assigned, ok, WellFormed] using hi)
theorem amoSwap (sw : Bool) (sz : Size) (ord : MemOrd) (d a b : XReg) : Statement (.amoSwap sw sz ord d a b) :=
  ofA (d := d) (a := a) (b := b) rfl (by decide) (amo_lt _ _ (by decide)) (word_amo sw d a b) (fun hi => by
    obtain ⟨h1, h2, h3, h4⟩ := amo_fields (op := 9) sz ord
    simp only [Decode.amo, h1, h2, h3, h4]
    simpa [assigned, ok, WellFormed] using hi)
theorem amoCas (sw : Bool) (sz : Size) (ord : MemOrd) (d a b : XReg) : Statement (.amoCas sw sz ord d a b) :=
  ofA (d := d) (a := a) (b := b) rfl (by decide) (amo_lt _ _ (by decide)) (word_amo sw d a b) (fun hi => by
    obtain ⟨h1, h2, h3, h4⟩ := amo_fields (op := 10) sz ord
    simp only [Decode.amo, h1, h2, h3, h4]
    simpa [assigned, ok, WellFormed] using hi)
theorem rwlRacq (sw : Bool) (noWait : Bool) (d a : XReg) : Statement (.rwlRacq sw noWait d a) :=
  ofA (d := d) (a := a) (b := 0) rfl (by decide) (by have := bit_lt noWait; omega) (word_rwl sw d a 0) (fun _ => by
    cases noWait <;> simp [Decode.rwl, ok, assigned, bit])
theorem rwlRrel (sw : Bool) (d a : XReg) : Statement (.rwlRrel sw d a) :=
  ofA (d := d) (a := a) (b := 0) rfl (by decide) (by decide) (word_rwl sw d a 0) (fun _ => by
    simp [Decode.rwl, ok, assigned])
theorem rwlWacq (sw : Bool) (noWait : Bool) (d a : XReg) : Statement (.rwlWacq sw noWait d a) :=
  ofA (d := d) (a := a) (b := 0) rfl (by decide) (by have := bit_lt noWait; omega) (word_rwl sw d a 0) (fun _ => by
    cases noWait <;> simp [Decode.rwl, ok, assigned, bit])
theorem rwlWrel (sw : Bool) (d a : XReg) : Statement (.rwlWrel sw d a) :=
  ofA (d := d) (a := a) (b := 0) rfl (by decide) (by decide) (word_rwl sw d a 0) (fun _ => by
    simp [Decode.rwl, ok, assigned])
theorem fenceAcq (sw : Bool) (scope : Scope) : Statement (.fenceAcq sw scope) :=
  ofA (d := 0) (a := 0) (b := 0) rfl (by decide) (by have := scopeCode_lt scope; omega) (word_fence sw 0 0 0) (fun _ => by
    cases scope <;> simp [Decode.fence, ok, scopeCode, scope])
theorem fenceRel (sw : Bool) (scope : Scope) : Statement (.fenceRel sw scope) :=
  ofA (d := 0) (a := 0) (b := 0) rfl (by decide) (by have := scopeCode_lt scope; omega) (word_fence sw 0 0 0) (fun _ => by
    cases scope <;> simp [Decode.fence, ok, scopeCode, scope])
theorem fenceAr (sw : Bool) (scope : Scope) : Statement (.fenceAr sw scope) :=
  ofA (d := 0) (a := 0) (b := 0) rfl (by decide) (by have := scopeCode_lt scope; omega) (word_fence sw 0 0 0) (fun _ => by
    cases scope <;> simp [Decode.fence, ok, scopeCode, scope])
theorem msgBind (sw : Bool) (a b : XReg) : Statement (.msgBind sw a b) :=
  ofA (d := 0) (a := a) (b := b) rfl (by decide) (by decide) (word_msg sw 0 a b) (fun hi => by
    simpa [Decode.msg, ok, assigned, WellFormed] using hi)
theorem msgUnbind (sw : Bool) (d b : XReg) : Statement (.msgUnbind sw d b) :=
  ofA (d := d) (a := 0) (b := b) rfl (by decide) (by decide) (word_msg sw d 0 b) (fun hi => by
    simpa [Decode.msg, ok, assigned, WellFormed] using hi)
theorem msgQlen (sw : Bool) (d b : XReg) : Statement (.msgQlen sw d b) :=
  ofA (d := d) (a := 0) (b := b) rfl (by decide) (by decide) (word_msg sw d 0 b) (fun hi => by
    simpa [Decode.msg, ok, assigned, WellFormed] using hi)
theorem msgSend (sw : Bool) (d a b : XReg) : Statement (.msgSend sw d a b) :=
  ofA (d := d) (a := a) (b := b) rfl (by decide) (by decide) (word_msg sw d a b) (fun _ => by
    simp [Decode.msg, ok])
theorem msgOvf (sw : Bool) (d a : XReg) : Statement (.msgOvf sw d a) :=
  ofA (d := d) (a := a) (b := 0) rfl (by decide) (by decide) (word_msg sw d a 0) (fun _ => by
    simp [Decode.msg, ok])
theorem barReg (sw : Bool) : Statement (.barReg sw) :=
  ofA (d := 0) (a := 0) (b := 0) rfl (by decide) (by decide) (word_bar sw 0 0 0) (fun _ => by
    simp [Decode.bar, ok])
theorem barWd (sw : Bool) : Statement (.barWd sw) :=
  ofA (d := 0) (a := 0) (b := 0) rfl (by decide) (by decide) (word_bar sw 0 0 0) (fun _ => by
    simp [Decode.bar, ok])
theorem barArrive (sw : Bool) (d : XReg) : Statement (.barArrive sw d) :=
  ofA (d := d) (a := 0) (b := 0) rfl (by decide) (by decide) (word_bar sw d 0 0) (fun _ => by
    simp [Decode.bar, ok])
theorem barWait (sw : Bool) (a : XReg) : Statement (.barWait sw a) :=
  ofA (d := 0) (a := a) (b := 0) rfl (by decide) (by decide) (word_bar sw 0 a 0) (fun _ => by
    simp [Decode.bar, ok])
theorem barSync (sw : Bool) : Statement (.barSync sw) :=
  ofA (d := 0) (a := 0) (b := 0) rfl (by decide) (by decide) (word_bar sw 0 0 0) (fun _ => by
    simp [Decode.bar, ok])
theorem barWsync (sw : Bool) (a : XReg) : Statement (.barWsync sw a) :=
  ofA (d := 0) (a := a) (b := 0) rfl (by decide) (by decide) (word_bar sw 0 a 0) (fun _ => by
    simp [Decode.bar, ok])
theorem vfPush (sw : Bool) (a : XReg) : Statement (.vfPush sw a) :=
  ofA (d := 0) (a := a) (b := 0) rfl (by decide) (by decide) (word_vf sw 0 a 0) (fun _ => by
    simp [Decode.vf, ok])
theorem vfPop (sw : Bool) (a : XReg) : Statement (.vfPop sw a) :=
  ofA (d := 0) (a := a) (b := 0) rfl (by decide) (by decide) (word_vf sw 0 a 0) (fun _ => by
    simp [Decode.vf, ok])
theorem vfCount (sw : Bool) (d : XReg) : Statement (.vfCount sw d) :=
  ofA (d := d) (a := 0) (b := 0) rfl (by decide) (by decide) (word_vf sw d 0 0) (fun _ => by
    simp [Decode.vf, ok])
theorem vopAdd (sw : Bool) (ty : LaneTy) (sat : Bool) (vd va vb : VReg) (m : MReg) : Statement (.vopAdd sw ty sat vd va vb m) :=
  ofV (sub := Decode.vop) (d := vd) (a := va) (b := vb) (c := (0 : VReg)) rfl (by decide) (by decide) (tyCode_lt ty) word_vop (fun f h1 h2 h3 h4 h5 h6 h7 h8 h9 hi => by
    rw [Decode.vop, h1, h2, h3, h4, h5, h6, h7, h8, h9]
    simp_all [ok, assigned, WellFormed])
theorem vopAddSx (sw : Bool) (ty : LaneTy) (sat : Bool) (vd va : VReg) (xs : XReg) (m : MReg) : Statement (.vopAddSx sw ty sat vd va xs m) :=
  ofVS (sub := Decode.vop) (d := vd) (a := va) rfl (by decide) (by decide) (tyCode_lt ty) word_vop (fun f h1 h2 h3 h4 h5 h6 h7 h8 h9 hi => by
    rw [Decode.vop, h1, h2, h3, h4, h5, h6, h7, h8, h9]
    simp_all [ok, assigned, WellFormed])
theorem vopSub (sw : Bool) (ty : LaneTy) (sat : Bool) (vd va vb : VReg) (m : MReg) : Statement (.vopSub sw ty sat vd va vb m) :=
  ofV (sub := Decode.vop) (d := vd) (a := va) (b := vb) (c := (0 : VReg)) rfl (by decide) (by decide) (tyCode_lt ty) word_vop (fun f h1 h2 h3 h4 h5 h6 h7 h8 h9 hi => by
    rw [Decode.vop, h1, h2, h3, h4, h5, h6, h7, h8, h9]
    simp_all [ok, assigned, WellFormed])
theorem vopSubSx (sw : Bool) (ty : LaneTy) (sat : Bool) (vd va : VReg) (xs : XReg) (m : MReg) : Statement (.vopSubSx sw ty sat vd va xs m) :=
  ofVS (sub := Decode.vop) (d := vd) (a := va) rfl (by decide) (by decide) (tyCode_lt ty) word_vop (fun f h1 h2 h3 h4 h5 h6 h7 h8 h9 hi => by
    rw [Decode.vop, h1, h2, h3, h4, h5, h6, h7, h8, h9]
    simp_all [ok, assigned, WellFormed])
theorem vopMul (sw : Bool) (ty : LaneTy) (sat : Bool) (vd va vb : VReg) (m : MReg) : Statement (.vopMul sw ty sat vd va vb m) :=
  ofV (sub := Decode.vop) (d := vd) (a := va) (b := vb) (c := (0 : VReg)) rfl (by decide) (by decide) (tyCode_lt ty) word_vop (fun f h1 h2 h3 h4 h5 h6 h7 h8 h9 hi => by
    rw [Decode.vop, h1, h2, h3, h4, h5, h6, h7, h8, h9]
    simp_all [ok, assigned, WellFormed])
theorem vopMulSx (sw : Bool) (ty : LaneTy) (sat : Bool) (vd va : VReg) (xs : XReg) (m : MReg) : Statement (.vopMulSx sw ty sat vd va xs m) :=
  ofVS (sub := Decode.vop) (d := vd) (a := va) rfl (by decide) (by decide) (tyCode_lt ty) word_vop (fun f h1 h2 h3 h4 h5 h6 h7 h8 h9 hi => by
    rw [Decode.vop, h1, h2, h3, h4, h5, h6, h7, h8, h9]
    simp_all [ok, assigned, WellFormed])
theorem vopMin (sw : Bool) (ty : LaneTy) (vd va vb : VReg) (m : MReg) : Statement (.vopMin sw ty vd va vb m) :=
  ofV (sub := Decode.vop) (d := vd) (a := va) (b := vb) (c := (0 : VReg)) rfl (by decide) (by decide) (tyCode_lt ty) word_vop (fun f h1 h2 h3 h4 h5 h6 h7 h8 h9 hi => by
    rw [Decode.vop, h1, h2, h3, h4, h5, h6, h7, h8, h9]
    simp_all [ok, assigned, WellFormed])
theorem vopMinSx (sw : Bool) (ty : LaneTy) (vd va : VReg) (xs : XReg) (m : MReg) : Statement (.vopMinSx sw ty vd va xs m) :=
  ofVS (sub := Decode.vop) (d := vd) (a := va) rfl (by decide) (by decide) (tyCode_lt ty) word_vop (fun f h1 h2 h3 h4 h5 h6 h7 h8 h9 hi => by
    rw [Decode.vop, h1, h2, h3, h4, h5, h6, h7, h8, h9]
    simp_all [ok, assigned, WellFormed])
theorem vopMax (sw : Bool) (ty : LaneTy) (vd va vb : VReg) (m : MReg) : Statement (.vopMax sw ty vd va vb m) :=
  ofV (sub := Decode.vop) (d := vd) (a := va) (b := vb) (c := (0 : VReg)) rfl (by decide) (by decide) (tyCode_lt ty) word_vop (fun f h1 h2 h3 h4 h5 h6 h7 h8 h9 hi => by
    rw [Decode.vop, h1, h2, h3, h4, h5, h6, h7, h8, h9]
    simp_all [ok, assigned, WellFormed])
theorem vopMaxSx (sw : Bool) (ty : LaneTy) (vd va : VReg) (xs : XReg) (m : MReg) : Statement (.vopMaxSx sw ty vd va xs m) :=
  ofVS (sub := Decode.vop) (d := vd) (a := va) rfl (by decide) (by decide) (tyCode_lt ty) word_vop (fun f h1 h2 h3 h4 h5 h6 h7 h8 h9 hi => by
    rw [Decode.vop, h1, h2, h3, h4, h5, h6, h7, h8, h9]
    simp_all [ok, assigned, WellFormed])
theorem vopAbs (sw : Bool) (ty : LaneTy) (sat : Bool) (vd va : VReg) (m : MReg) : Statement (.vopAbs sw ty sat vd va m) :=
  ofV (sub := Decode.vop) (d := vd) (a := va) (b := (0 : VReg)) (c := (0 : VReg)) rfl (by decide) (by decide) (tyCode_lt ty) word_vop (fun f h1 h2 h3 h4 h5 h6 h7 h8 h9 hi => by
    rw [Decode.vop, h1, h2, h3, h4, h5, h6, h7, h8, h9]
    simp_all [ok, assigned, WellFormed])
theorem vopNeg (sw : Bool) (ty : LaneTy) (sat : Bool) (vd va : VReg) (m : MReg) : Statement (.vopNeg sw ty sat vd va m) :=
  ofV (sub := Decode.vop) (d := vd) (a := va) (b := (0 : VReg)) (c := (0 : VReg)) rfl (by decide) (by decide) (tyCode_lt ty) word_vop (fun f h1 h2 h3 h4 h5 h6 h7 h8 h9 hi => by
    rw [Decode.vop, h1, h2, h3, h4, h5, h6, h7, h8, h9]
    simp_all [ok, assigned, WellFormed])
theorem vopDiv (sw : Bool) (ty : LaneTy) (sat : Bool) (vd va vb : VReg) (m : MReg) : Statement (.vopDiv sw ty sat vd va vb m) :=
  ofV (sub := Decode.vop) (d := vd) (a := va) (b := vb) (c := (0 : VReg)) rfl (by decide) (by decide) (tyCode_lt ty) word_vop (fun f h1 h2 h3 h4 h5 h6 h7 h8 h9 hi => by
    rw [Decode.vop, h1, h2, h3, h4, h5, h6, h7, h8, h9]
    simp_all [ok, assigned, WellFormed])
theorem vopDivSx (sw : Bool) (ty : LaneTy) (sat : Bool) (vd va : VReg) (xs : XReg) (m : MReg) : Statement (.vopDivSx sw ty sat vd va xs m) :=
  ofVS (sub := Decode.vop) (d := vd) (a := va) rfl (by decide) (by decide) (tyCode_lt ty) word_vop (fun f h1 h2 h3 h4 h5 h6 h7 h8 h9 hi => by
    rw [Decode.vop, h1, h2, h3, h4, h5, h6, h7, h8, h9]
    simp_all [ok, assigned, WellFormed])
theorem vopSqrt (sw : Bool) (ty : LaneTy) (vd va : VReg) (m : MReg) : Statement (.vopSqrt sw ty vd va m) :=
  ofV (sub := Decode.vop) (d := vd) (a := va) (b := (0 : VReg)) (c := (0 : VReg)) rfl (by decide) (by decide) (tyCode_lt ty) word_vop (fun f h1 h2 h3 h4 h5 h6 h7 h8 h9 hi => by
    rw [Decode.vop, h1, h2, h3, h4, h5, h6, h7, h8, h9]
    simp_all [ok, assigned, WellFormed])
theorem vopAnd (sw : Bool) (ty : LaneTy) (vd va vb : VReg) (m : MReg) : Statement (.vopAnd sw ty vd va vb m) :=
  ofV (sub := Decode.vop) (d := vd) (a := va) (b := vb) (c := (0 : VReg)) rfl (by decide) (by decide) (tyCode_lt ty) word_vop (fun f h1 h2 h3 h4 h5 h6 h7 h8 h9 hi => by
    rw [Decode.vop, h1, h2, h3, h4, h5, h6, h7, h8, h9]
    simp_all [ok, assigned, WellFormed])
theorem vopAndSx (sw : Bool) (ty : LaneTy) (vd va : VReg) (xs : XReg) (m : MReg) : Statement (.vopAndSx sw ty vd va xs m) :=
  ofVS (sub := Decode.vop) (d := vd) (a := va) rfl (by decide) (by decide) (tyCode_lt ty) word_vop (fun f h1 h2 h3 h4 h5 h6 h7 h8 h9 hi => by
    rw [Decode.vop, h1, h2, h3, h4, h5, h6, h7, h8, h9]
    simp_all [ok, assigned, WellFormed])
theorem vopOr (sw : Bool) (ty : LaneTy) (vd va vb : VReg) (m : MReg) : Statement (.vopOr sw ty vd va vb m) :=
  ofV (sub := Decode.vop) (d := vd) (a := va) (b := vb) (c := (0 : VReg)) rfl (by decide) (by decide) (tyCode_lt ty) word_vop (fun f h1 h2 h3 h4 h5 h6 h7 h8 h9 hi => by
    rw [Decode.vop, h1, h2, h3, h4, h5, h6, h7, h8, h9]
    simp_all [ok, assigned, WellFormed])
theorem vopOrSx (sw : Bool) (ty : LaneTy) (vd va : VReg) (xs : XReg) (m : MReg) : Statement (.vopOrSx sw ty vd va xs m) :=
  ofVS (sub := Decode.vop) (d := vd) (a := va) rfl (by decide) (by decide) (tyCode_lt ty) word_vop (fun f h1 h2 h3 h4 h5 h6 h7 h8 h9 hi => by
    rw [Decode.vop, h1, h2, h3, h4, h5, h6, h7, h8, h9]
    simp_all [ok, assigned, WellFormed])
theorem vopXor (sw : Bool) (ty : LaneTy) (vd va vb : VReg) (m : MReg) : Statement (.vopXor sw ty vd va vb m) :=
  ofV (sub := Decode.vop) (d := vd) (a := va) (b := vb) (c := (0 : VReg)) rfl (by decide) (by decide) (tyCode_lt ty) word_vop (fun f h1 h2 h3 h4 h5 h6 h7 h8 h9 hi => by
    rw [Decode.vop, h1, h2, h3, h4, h5, h6, h7, h8, h9]
    simp_all [ok, assigned, WellFormed])
theorem vopXorSx (sw : Bool) (ty : LaneTy) (vd va : VReg) (xs : XReg) (m : MReg) : Statement (.vopXorSx sw ty vd va xs m) :=
  ofVS (sub := Decode.vop) (d := vd) (a := va) rfl (by decide) (by decide) (tyCode_lt ty) word_vop (fun f h1 h2 h3 h4 h5 h6 h7 h8 h9 hi => by
    rw [Decode.vop, h1, h2, h3, h4, h5, h6, h7, h8, h9]
    simp_all [ok, assigned, WellFormed])
theorem vopSll (sw : Bool) (ty : LaneTy) (vd va vb : VReg) (m : MReg) : Statement (.vopSll sw ty vd va vb m) :=
  ofV (sub := Decode.vop) (d := vd) (a := va) (b := vb) (c := (0 : VReg)) rfl (by decide) (by decide) (tyCode_lt ty) word_vop (fun f h1 h2 h3 h4 h5 h6 h7 h8 h9 hi => by
    rw [Decode.vop, h1, h2, h3, h4, h5, h6, h7, h8, h9]
    simp_all [ok, assigned, WellFormed])
theorem vopSllSx (sw : Bool) (ty : LaneTy) (vd va : VReg) (xs : XReg) (m : MReg) : Statement (.vopSllSx sw ty vd va xs m) :=
  ofVS (sub := Decode.vop) (d := vd) (a := va) rfl (by decide) (by decide) (tyCode_lt ty) word_vop (fun f h1 h2 h3 h4 h5 h6 h7 h8 h9 hi => by
    rw [Decode.vop, h1, h2, h3, h4, h5, h6, h7, h8, h9]
    simp_all [ok, assigned, WellFormed])
theorem vopSrl (sw : Bool) (ty : LaneTy) (vd va vb : VReg) (m : MReg) : Statement (.vopSrl sw ty vd va vb m) :=
  ofV (sub := Decode.vop) (d := vd) (a := va) (b := vb) (c := (0 : VReg)) rfl (by decide) (by decide) (tyCode_lt ty) word_vop (fun f h1 h2 h3 h4 h5 h6 h7 h8 h9 hi => by
    rw [Decode.vop, h1, h2, h3, h4, h5, h6, h7, h8, h9]
    simp_all [ok, assigned, WellFormed])
theorem vopSrlSx (sw : Bool) (ty : LaneTy) (vd va : VReg) (xs : XReg) (m : MReg) : Statement (.vopSrlSx sw ty vd va xs m) :=
  ofVS (sub := Decode.vop) (d := vd) (a := va) rfl (by decide) (by decide) (tyCode_lt ty) word_vop (fun f h1 h2 h3 h4 h5 h6 h7 h8 h9 hi => by
    rw [Decode.vop, h1, h2, h3, h4, h5, h6, h7, h8, h9]
    simp_all [ok, assigned, WellFormed])
theorem vopSra (sw : Bool) (ty : LaneTy) (vd va vb : VReg) (m : MReg) : Statement (.vopSra sw ty vd va vb m) :=
  ofV (sub := Decode.vop) (d := vd) (a := va) (b := vb) (c := (0 : VReg)) rfl (by decide) (by decide) (tyCode_lt ty) word_vop (fun f h1 h2 h3 h4 h5 h6 h7 h8 h9 hi => by
    rw [Decode.vop, h1, h2, h3, h4, h5, h6, h7, h8, h9]
    simp_all [ok, assigned, WellFormed])
theorem vopSraSx (sw : Bool) (ty : LaneTy) (vd va : VReg) (xs : XReg) (m : MReg) : Statement (.vopSraSx sw ty vd va xs m) :=
  ofVS (sub := Decode.vop) (d := vd) (a := va) rfl (by decide) (by decide) (tyCode_lt ty) word_vop (fun f h1 h2 h3 h4 h5 h6 h7 h8 h9 hi => by
    rw [Decode.vop, h1, h2, h3, h4, h5, h6, h7, h8, h9]
    simp_all [ok, assigned, WellFormed])
theorem vopMulh (sw : Bool) (ty : LaneTy) (vd va vb : VReg) (m : MReg) : Statement (.vopMulh sw ty vd va vb m) :=
  ofV (sub := Decode.vop) (d := vd) (a := va) (b := vb) (c := (0 : VReg)) rfl (by decide) (by decide) (tyCode_lt ty) word_vop (fun f h1 h2 h3 h4 h5 h6 h7 h8 h9 hi => by
    rw [Decode.vop, h1, h2, h3, h4, h5, h6, h7, h8, h9]
    simp_all [ok, assigned, WellFormed])
theorem vopMulhSx (sw : Bool) (ty : LaneTy) (vd va : VReg) (xs : XReg) (m : MReg) : Statement (.vopMulhSx sw ty vd va xs m) :=
  ofVS (sub := Decode.vop) (d := vd) (a := va) rfl (by decide) (by decide) (tyCode_lt ty) word_vop (fun f h1 h2 h3 h4 h5 h6 h7 h8 h9 hi => by
    rw [Decode.vop, h1, h2, h3, h4, h5, h6, h7, h8, h9]
    simp_all [ok, assigned, WellFormed])
theorem vfmaFma (sw : Bool) (ty : LaneTy) (sat : Bool) (vd va vb vc : VReg) (m : MReg) : Statement (.vfmaFma sw ty sat vd va vb vc m) :=
  ofV (sub := Decode.vfma) (d := vd) (a := va) (b := vb) (c := vc) rfl (by decide) (by decide) (tyCode_lt ty) word_vfma (fun f h1 h2 h3 h4 h5 h6 h7 h8 h9 hi => by
    rw [Decode.vfma, h1, h2, h3, h4, h5, h6, h7, h8, h9]
    simp_all [ok, assigned, WellFormed])
theorem vfmaFmaSx (sw : Bool) (ty : LaneTy) (sat : Bool) (vd va : VReg) (xs : XReg) (m : MReg) : Statement (.vfmaFmaSx sw ty sat vd va xs m) :=
  ofVS (sub := Decode.vfma) (d := vd) (a := va) rfl (by decide) (by decide) (tyCode_lt ty) word_vfma (fun f h1 h2 h3 h4 h5 h6 h7 h8 h9 hi => by
    rw [Decode.vfma, h1, h2, h3, h4, h5, h6, h7, h8, h9]
    simp_all [ok, assigned, WellFormed])
theorem vfmaFms (sw : Bool) (ty : LaneTy) (sat : Bool) (vd va vb vc : VReg) (m : MReg) : Statement (.vfmaFms sw ty sat vd va vb vc m) :=
  ofV (sub := Decode.vfma) (d := vd) (a := va) (b := vb) (c := vc) rfl (by decide) (by decide) (tyCode_lt ty) word_vfma (fun f h1 h2 h3 h4 h5 h6 h7 h8 h9 hi => by
    rw [Decode.vfma, h1, h2, h3, h4, h5, h6, h7, h8, h9]
    simp_all [ok, assigned, WellFormed])
theorem vfmaFmsSx (sw : Bool) (ty : LaneTy) (sat : Bool) (vd va : VReg) (xs : XReg) (m : MReg) : Statement (.vfmaFmsSx sw ty sat vd va xs m) :=
  ofVS (sub := Decode.vfma) (d := vd) (a := va) rfl (by decide) (by decide) (tyCode_lt ty) word_vfma (fun f h1 h2 h3 h4 h5 h6 h7 h8 h9 hi => by
    rw [Decode.vfma, h1, h2, h3, h4, h5, h6, h7, h8, h9]
    simp_all [ok, assigned, WellFormed])
theorem vfmaFnma (sw : Bool) (ty : LaneTy) (sat : Bool) (vd va vb vc : VReg) (m : MReg) : Statement (.vfmaFnma sw ty sat vd va vb vc m) :=
  ofV (sub := Decode.vfma) (d := vd) (a := va) (b := vb) (c := vc) rfl (by decide) (by decide) (tyCode_lt ty) word_vfma (fun f h1 h2 h3 h4 h5 h6 h7 h8 h9 hi => by
    rw [Decode.vfma, h1, h2, h3, h4, h5, h6, h7, h8, h9]
    simp_all [ok, assigned, WellFormed])
theorem vfmaFnmaSx (sw : Bool) (ty : LaneTy) (sat : Bool) (vd va : VReg) (xs : XReg) (m : MReg) : Statement (.vfmaFnmaSx sw ty sat vd va xs m) :=
  ofVS (sub := Decode.vfma) (d := vd) (a := va) rfl (by decide) (by decide) (tyCode_lt ty) word_vfma (fun f h1 h2 h3 h4 h5 h6 h7 h8 h9 hi => by
    rw [Decode.vfma, h1, h2, h3, h4, h5, h6, h7, h8, h9]
    simp_all [ok, assigned, WellFormed])
theorem vfmaFnms (sw : Bool) (ty : LaneTy) (sat : Bool) (vd va vb vc : VReg) (m : MReg) : Statement (.vfmaFnms sw ty sat vd va vb vc m) :=
  ofV (sub := Decode.vfma) (d := vd) (a := va) (b := vb) (c := vc) rfl (by decide) (by decide) (tyCode_lt ty) word_vfma (fun f h1 h2 h3 h4 h5 h6 h7 h8 h9 hi => by
    rw [Decode.vfma, h1, h2, h3, h4, h5, h6, h7, h8, h9]
    simp_all [ok, assigned, WellFormed])
theorem vfmaFnmsSx (sw : Bool) (ty : LaneTy) (sat : Bool) (vd va : VReg) (xs : XReg) (m : MReg) : Statement (.vfmaFnmsSx sw ty sat vd va xs m) :=
  ofVS (sub := Decode.vfma) (d := vd) (a := va) rfl (by decide) (by decide) (tyCode_lt ty) word_vfma (fun f h1 h2 h3 h4 h5 h6 h7 h8 h9 hi => by
    rw [Decode.vfma, h1, h2, h3, h4, h5, h6, h7, h8, h9]
    simp_all [ok, assigned, WellFormed])
theorem vfmaDot2 (sw : Bool) (ty : LaneTy) (sat : Bool) (vd va vb vc : VReg) (m : MReg) : Statement (.vfmaDot2 sw ty sat vd va vb vc m) :=
  ofV (sub := Decode.vfma) (d := vd) (a := va) (b := vb) (c := vc) rfl (by decide) (by decide) (tyCode_lt ty) word_vfma (fun f h1 h2 h3 h4 h5 h6 h7 h8 h9 hi => by
    rw [Decode.vfma, h1, h2, h3, h4, h5, h6, h7, h8, h9]
    simp_all [ok, assigned, WellFormed])
theorem vfmaDot2Sx (sw : Bool) (ty : LaneTy) (sat : Bool) (vd va : VReg) (xs : XReg) (m : MReg) : Statement (.vfmaDot2Sx sw ty sat vd va xs m) :=
  ofVS (sub := Decode.vfma) (d := vd) (a := va) rfl (by decide) (by decide) (tyCode_lt ty) word_vfma (fun f h1 h2 h3 h4 h5 h6 h7 h8 h9 hi => by
    rw [Decode.vfma, h1, h2, h3, h4, h5, h6, h7, h8, h9]
    simp_all [ok, assigned, WellFormed])
theorem vfmaDot4 (sw : Bool) (sat : Bool) (vd va vb vc : VReg) (m : MReg) : Statement (.vfmaDot4 sw sat vd va vb vc m) :=
  ofV (sub := Decode.vfma) (d := vd) (a := va) (b := vb) (c := vc) rfl (by decide) (by decide) (by decide) word_vfma (fun f h1 h2 h3 h4 h5 h6 h7 h8 h9 hi => by
    rw [Decode.vfma, h1, h2, h3, h4, h5, h6, h7, h8, h9]
    simp_all [ok, assigned, WellFormed, Decode.ty])
theorem vfmaDot4Sx (sw : Bool) (sat : Bool) (vd va : VReg) (xs : XReg) (m : MReg) : Statement (.vfmaDot4Sx sw sat vd va xs m) :=
  ofVS (sub := Decode.vfma) (d := vd) (a := va) rfl (by decide) (by decide) (by decide) word_vfma (fun f h1 h2 h3 h4 h5 h6 h7 h8 h9 hi => by
    rw [Decode.vfma, h1, h2, h3, h4, h5, h6, h7, h8, h9]
    simp_all [ok, assigned, WellFormed, Decode.ty])
theorem vcmp (sw : Bool) (ty : LaneTy) (cond : VCond) (md : MReg) (va vb : VReg) (m : MReg) : Statement (.vcmp sw ty cond md va vb m) :=
  ofV (sub := Decode.vcmp) (d := (Fin.castLE (by decide) md)) (a := va) (b := vb) (c := (0 : VReg)) rfl (by decide) (by have := vcondCode_lt cond; omega) (tyCode_lt ty) word_vcmp (fun f h1 h2 h3 h4 h5 h6 h7 h8 h9 hi => by
    rw [Decode.vcmp, h1, h2, h3, h4, h5, h6, h7, h8, h9]
    have hm := md.isLt; have hp : ¬ md = 0 → 1 ≤ md.val := (fun h => Nat.one_le_iff_ne_zero.2 (fun h2 => h (Fin.ext h2))); simp_all [ok, assigned, WellFormed]; omega)
theorem vcmpSx (sw : Bool) (ty : LaneTy) (cond : VCond) (md : MReg) (va : VReg) (xs : XReg) (m : MReg) : Statement (.vcmpSx sw ty cond md va xs m) :=
  ofVS (sub := Decode.vcmp) (d := (Fin.castLE (by decide) md)) (a := va) rfl (by decide) (by have := vcondCode_lt cond; omega) (tyCode_lt ty) word_vcmp (fun f h1 h2 h3 h4 h5 h6 h7 h8 h9 hi => by
    rw [Decode.vcmp, h1, h2, h3, h4, h5, h6, h7, h8, h9]
    have hm := md.isLt; have hp : ¬ md = 0 → 1 ≤ md.val := (fun h => Nat.one_le_iff_ne_zero.2 (fun h2 => h (Fin.ext h2))); simp_all [ok, assigned, WellFormed]; omega)
theorem vredSum (sw : Bool) (ty : LaneTy) (sat : Bool) (vd va : VReg) (m : MReg) : Statement (.vredSum sw ty sat vd va m) :=
  ofV (sub := Decode.vred) (d := vd) (a := va) (b := (0 : VReg)) (c := (0 : VReg)) rfl (by decide) (by decide) (tyCode_lt ty) word_vred (fun f h1 h2 h3 h4 h5 h6 h7 h8 h9 hi => by
    rw [Decode.vred, h1, h2, h3, h4, h5, h6, h7, h8, h9]
    simp_all [ok, assigned, WellFormed])
theorem vredMin (sw : Bool) (ty : LaneTy) (vd va : VReg) (m : MReg) : Statement (.vredMin sw ty vd va m) :=
  ofV (sub := Decode.vred) (d := vd) (a := va) (b := (0 : VReg)) (c := (0 : VReg)) rfl (by decide) (by decide) (tyCode_lt ty) word_vred (fun f h1 h2 h3 h4 h5 h6 h7 h8 h9 hi => by
    rw [Decode.vred, h1, h2, h3, h4, h5, h6, h7, h8, h9]
    simp_all [ok, assigned, WellFormed])
theorem vredMax (sw : Bool) (ty : LaneTy) (vd va : VReg) (m : MReg) : Statement (.vredMax sw ty vd va m) :=
  ofV (sub := Decode.vred) (d := vd) (a := va) (b := (0 : VReg)) (c := (0 : VReg)) rfl (by decide) (by decide) (tyCode_lt ty) word_vred (fun f h1 h2 h3 h4 h5 h6 h7 h8 h9 hi => by
    rw [Decode.vred, h1, h2, h3, h4, h5, h6, h7, h8, h9]
    simp_all [ok, assigned, WellFormed])
theorem vredAnd (sw : Bool) (ty : LaneTy) (vd va : VReg) (m : MReg) : Statement (.vredAnd sw ty vd va m) :=
  ofV (sub := Decode.vred) (d := vd) (a := va) (b := (0 : VReg)) (c := (0 : VReg)) rfl (by decide) (by decide) (tyCode_lt ty) word_vred (fun f h1 h2 h3 h4 h5 h6 h7 h8 h9 hi => by
    rw [Decode.vred, h1, h2, h3, h4, h5, h6, h7, h8, h9]
    simp_all [ok, assigned, WellFormed])
theorem vredOr (sw : Bool) (ty : LaneTy) (vd va : VReg) (m : MReg) : Statement (.vredOr sw ty vd va m) :=
  ofV (sub := Decode.vred) (d := vd) (a := va) (b := (0 : VReg)) (c := (0 : VReg)) rfl (by decide) (by decide) (tyCode_lt ty) word_vred (fun f h1 h2 h3 h4 h5 h6 h7 h8 h9 hi => by
    rw [Decode.vred, h1, h2, h3, h4, h5, h6, h7, h8, h9]
    simp_all [ok, assigned, WellFormed])
theorem vredXor (sw : Bool) (ty : LaneTy) (vd va : VReg) (m : MReg) : Statement (.vredXor sw ty vd va m) :=
  ofV (sub := Decode.vred) (d := vd) (a := va) (b := (0 : VReg)) (c := (0 : VReg)) rfl (by decide) (by decide) (tyCode_lt ty) word_vred (fun f h1 h2 h3 h4 h5 h6 h7 h8 h9 hi => by
    rw [Decode.vred, h1, h2, h3, h4, h5, h6, h7, h8, h9]
    simp_all [ok, assigned, WellFormed])
theorem vredPerm (sw : Bool) (ty : LaneTy) (vd va vb : VReg) (m : MReg) : Statement (.vredPerm sw ty vd va vb m) :=
  ofV (sub := Decode.vred) (d := vd) (a := va) (b := vb) (c := (0 : VReg)) rfl (by decide) (by decide) (tyCode_lt ty) word_vred (fun f h1 h2 h3 h4 h5 h6 h7 h8 h9 hi => by
    rw [Decode.vred, h1, h2, h3, h4, h5, h6, h7, h8, h9]
    simp_all [ok, assigned, WellFormed])
theorem vredRot (sw : Bool) (ty : LaneTy) (vd va : VReg) (xs : XReg) (m : MReg) : Statement (.vredRot sw ty vd va xs m) :=
  ofVS (sub := Decode.vred) (d := vd) (a := va) rfl (by decide) (by decide) (tyCode_lt ty) word_vred (fun f h1 h2 h3 h4 h5 h6 h7 h8 h9 hi => by
    rw [Decode.vred, h1, h2, h3, h4, h5, h6, h7, h8, h9]
    simp_all [ok, assigned, WellFormed])
theorem vcvt (sw : Bool) (src dst : LaneTy) (high : Bool) (sat : Bool) (vd va vb : VReg) (m : MReg) : Statement (.vcvt sw src dst high sat vd va vb m) :=
  ofV (sub := Decode.vcvt) (d := vd) (a := va) (b := vb) (c := (0 : VReg)) rfl (by decide) (by have := tyCode_lt dst; have := bit_lt high; omega) (tyCode_lt src) word_vcvt (fun f h1 h2 h3 h4 h5 h6 h7 h8 h9 hi => by
    have hb := bit_lt high
    have e1 : (2 * tyCode dst + bit high) / 2 = tyCode dst := by omega
    have e2 : (2 * tyCode dst + bit high) % 2 = bit high := by omega
    rw [Decode.vcvt, h1, h2, h3, h4, h5, h6, h7, h8, h9, e1, e2]
    cases hk : cvtKind src dst with
    | none => simp [WellFormed, WellFormed.vcvt, hk] at hi
    | some k => simp_all [ok, assigned, WellFormed, WellFormed.vcvt]; split <;> simp_all)
theorem vmovMov (sw : Bool) (vd va : VReg) (m : MReg) : Statement (.vmovMov sw vd va m) :=
  ofV (sub := Decode.vmov) (d := vd) (a := va) (b := (0 : VReg)) (c := (0 : VReg)) rfl (by decide) (by decide) (by decide) word_vmov (fun f h1 h2 h3 h4 h5 h6 h7 h8 h9 hi => by
    rw [Decode.vmov, h1, h2, h3, h4, h5, h6, h7, h8, h9]
    simp_all [ok, assigned, WellFormed])
theorem vmovSel (sw : Bool) (ty : LaneTy) (vd va vb : VReg) (m : MReg) : Statement (.vmovSel sw ty vd va vb m) :=
  ofV (sub := Decode.vmov) (d := vd) (a := va) (b := vb) (c := (0 : VReg)) rfl (by decide) (by decide) (tyCode_lt ty) word_vmov (fun f h1 h2 h3 h4 h5 h6 h7 h8 h9 hi => by
    rw [Decode.vmov, h1, h2, h3, h4, h5, h6, h7, h8, h9]
    simp_all [ok, assigned, WellFormed])
theorem vmovBcast (sw : Bool) (ty : LaneTy) (vd : VReg) (xs : XReg) (m : MReg) : Statement (.vmovBcast sw ty vd xs m) :=
  ofVS (sub := Decode.vmov) (d := vd) (a := (0 : VReg)) rfl (by decide) (by decide) (tyCode_lt ty) word_vmov (fun f h1 h2 h3 h4 h5 h6 h7 h8 h9 hi => by
    rw [Decode.vmov, h1, h2, h3, h4, h5, h6, h7, h8, h9]
    simp_all [ok, assigned, WellFormed])
theorem vmovExt (sw : Bool) (ty : LaneTy) (va : VReg) (xs : XReg) (m : MReg) : Statement (.vmovExt sw ty va xs m) :=
  ofVS (sub := Decode.vmov) (d := (0 : VReg)) (a := va) rfl (by decide) (by decide) (tyCode_lt ty) word_vmov (fun f h1 h2 h3 h4 h5 h6 h7 h8 h9 hi => by
    rw [Decode.vmov, h1, h2, h3, h4, h5, h6, h7, h8, h9]
    simp_all [ok, assigned, WellFormed])
theorem vmovGetm (sw : Bool) (xs : XReg) (m : MReg) : Statement (.vmovGetm sw xs m) :=
  ofVS (sub := Decode.vmov) (d := (0 : VReg)) (a := (0 : VReg)) rfl (by decide) (by decide) (by decide) word_vmov (fun f h1 h2 h3 h4 h5 h6 h7 h8 h9 hi => by
    rw [Decode.vmov, h1, h2, h3, h4, h5, h6, h7, h8, h9]
    simp_all [ok, assigned, WellFormed])
theorem vmovSetm (sw : Bool) (xs : XReg) (m : MReg) : Statement (.vmovSetm sw xs m) :=
  ofVS (sub := Decode.vmov) (d := (0 : VReg)) (a := (0 : VReg)) rfl (by decide) (by decide) (by decide) word_vmov (fun f h1 h2 h3 h4 h5 h6 h7 h8 h9 hi => by
    rw [Decode.vmov, h1, h2, h3, h4, h5, h6, h7, h8, h9]
    simp_all [ok, assigned, WellFormed])
theorem vmovZero (sw : Bool) (vd : VReg) (m : MReg) : Statement (.vmovZero sw vd m) :=
  ofV (sub := Decode.vmov) (d := vd) (a := (0 : VReg)) (b := (0 : VReg)) (c := (0 : VReg)) rfl (by decide) (by decide) (by decide) word_vmov (fun f h1 h2 h3 h4 h5 h6 h7 h8 h9 hi => by
    rw [Decode.vmov, h1, h2, h3, h4, h5, h6, h7, h8, h9]
    simp_all [ok, assigned, WellFormed])
theorem vmemLd (sw : Bool) (ord : MemOrd) (v : VReg) (m : MReg) (a : XReg) (off : BitVec 10) : Statement (.vmemLd sw ord v m a off) := by
  obtain ⟨h0, h1, h2, h3, h4, h5, h6, h7, h8⟩ := fields_VM sw (kind := 0) ord v.isLt m.isLt a.isLt (by decide) off.isLt
  refine ofWord rfl h0 (fun hi => ?_)
  simp only [Decode.word, h2]
  simp only [Decode.vmem, h1, h3, h4, h5, h6, h7, h8, assigned, ord_ordCode, bit_eq_one, vr_val, mr_val, xr_val]
  refine Eq.trans (if_pos ?_) ?_
  · exact hi
  · simp [ok]
theorem vmemSt (sw : Bool) (ord : MemOrd) (v : VReg) (m : MReg) (a : XReg) (off : BitVec 10) : Statement (.vmemSt sw ord v m a off) := by
  obtain ⟨h0, h1, h2, h3, h4, h5, h6, h7, h8⟩ := fields_VM sw (kind := 1) ord v.isLt m.isLt a.isLt (by decide) off.isLt
  refine ofWord rfl h0 (fun hi => ?_)
  simp only [Decode.word, h2]
  simp only [Decode.vmem, h1, h3, h4, h5, h6, h7, h8, assigned, ord_ordCode, bit_eq_one, vr_val, mr_val, xr_val]
  refine Eq.trans (if_pos ?_) ?_
  · exact hi
  · simp [ok]
theorem vmemLdf (sw : Bool) (ord : MemOrd) (v : VReg) (m : MReg) (a : XReg) (off : BitVec 10) : Statement (.vmemLdf sw ord v m a off) := by
  obtain ⟨h0, h1, h2, h3, h4, h5, h6, h7, h8⟩ := fields_VM sw (kind := 2) ord v.isLt m.isLt a.isLt (by decide) off.isLt
  refine ofWord rfl h0 (fun hi => ?_)
  simp only [Decode.word, h2]
  simp only [Decode.vmem, h1, h3, h4, h5, h6, h7, h8, assigned, ord_ordCode, bit_eq_one, vr_val, mr_val, xr_val]
  refine Eq.trans (if_pos ?_) ?_
  · exact hi
  · simp [ok]
theorem vmemLdb (sw : Bool) (ord : MemOrd) (v : VReg) (m : MReg) (a : XReg) (off : BitVec 10) : Statement (.vmemLdb sw ord v m a off) := by
  obtain ⟨h0, h1, h2, h3, h4, h5, h6, h7, h8⟩ := fields_VM sw (kind := 3) ord v.isLt m.isLt a.isLt (by decide) off.isLt
  refine ofWord rfl h0 (fun hi => ?_)
  simp only [Decode.word, h2]
  simp only [Decode.vmem, h1, h3, h4, h5, h6, h7, h8, assigned, ord_ordCode, bit_eq_one, vr_val, mr_val, xr_val]
  refine Eq.trans (if_pos ?_) ?_
  · exact hi
  · simp [ok]
theorem patCfg (sw : Bool) (a : XReg) : Statement (.patCfg sw a) :=
  ofA (d := 0) (a := a) (b := 0) rfl (by decide) (by decide) (word_pat sw 0 a 0) (fun _ => by
    simp [Decode.pat, ok])
theorem patExec (sw : Bool) (d a b : XReg) : Statement (.patExec sw d a b) :=
  ofA (d := d) (a := a) (b := b) rfl (by decide) (by decide) (word_pat sw d a b) (fun _ => by
    simp [Decode.pat, ok])
theorem mxGang (sw : Bool) (d a : XReg) : Statement (.mxGang sw d a) :=
  ofA (d := d) (a := a) (b := 0) rfl (by decide) (by decide) (word_28 sw d a 0) (fun _ => by
    simp [Decode.engines, ok])
theorem mxRowout (sw : Bool) : Statement (.mxRowout sw) :=
  ofA (d := 0) (a := 0) (b := 0) rfl (by decide) (by decide) (word_28 sw 0 0 0) (fun _ => by
    simp [Decode.engines, ok])
theorem jobSub (sw : Bool) (d a : XReg) : Statement (.jobSub sw d a) :=
  ofA (d := d) (a := a) (b := 0) rfl (by decide) (by decide) (word_29 sw d a 0) (fun _ => by
    simp [Decode.engines, ok])
theorem jobPoll (sw : Bool) (d a : XReg) : Statement (.jobPoll sw d a) :=
  ofA (d := d) (a := a) (b := 0) rfl (by decide) (by decide) (word_29 sw d a 0) (fun _ => by
    simp [Decode.engines, ok])
theorem jobWait (sw : Bool) (d a : XReg) : Statement (.jobWait sw d a) :=
  ofA (d := d) (a := a) (b := 0) rfl (by decide) (by decide) (word_29 sw d a 0) (fun _ => by
    simp [Decode.engines, ok])
theorem xbarCnt (sw : Bool) (a b : XReg) : Statement (.xbarCnt sw a b) :=
  ofA (d := 0) (a := a) (b := b) rfl (by decide) (by decide) (word_2A sw 0 a b) (fun _ => by
    simp [Decode.engines, ok])
theorem xbarTerm (sw : Bool) (a b : XReg) : Statement (.xbarTerm sw a b) :=
  ofA (d := 0) (a := a) (b := b) rfl (by decide) (by decide) (word_2A sw 0 a b) (fun _ => by
    simp [Decode.engines, ok])
theorem xbarRdc (sw : Bool) (d a : XReg) : Statement (.xbarRdc sw d a) :=
  ofA (d := d) (a := a) (b := 0) rfl (by decide) (by decide) (word_2A sw d a 0) (fun _ => by
    simp [Decode.engines, ok])
theorem xbarPulse (sw : Bool) (a : XReg) : Statement (.xbarPulse sw a) :=
  ofA (d := 0) (a := a) (b := 0) rfl (by decide) (by decide) (word_2A sw 0 a 0) (fun _ => by
    simp [Decode.engines, ok])
theorem xbarClr (sw : Bool) (a : XReg) : Statement (.xbarClr sw a) :=
  ofA (d := 0) (a := a) (b := 0) rfl (by decide) (by decide) (word_2A sw 0 a 0) (fun _ => by
    simp [Decode.engines, ok])
theorem workStart (sw : Bool) (d a b : XReg) : Statement (.workStart sw d a b) :=
  ofA (d := d) (a := a) (b := b) rfl (by decide) (by decide) (word_work sw d a b) (fun _ => by
    simp [Decode.work, ok])
theorem workFork (sw : Bool) (d a b : XReg) : Statement (.workFork sw d a b) :=
  ofA (d := d) (a := a) (b := b) rfl (by decide) (by decide) (word_work sw d a b) (fun _ => by
    simp [Decode.work, ok])
theorem workJoin (sw : Bool) (a : XReg) : Statement (.workJoin sw a) :=
  ofA (d := 0) (a := a) (b := 0) rfl (by decide) (by decide) (word_work sw 0 a 0) (fun _ => by
    simp [Decode.work, ok])
theorem workExit (sw : Bool) (a : XReg) : Statement (.workExit sw a) :=
  ofA (d := 0) (a := a) (b := 0) rfl (by decide) (by decide) (word_work sw 0 a 0) (fun _ => by
    simp [Decode.work, ok])
theorem workYield (sw : Bool) : Statement (.workYield sw) :=
  ofA (d := 0) (a := 0) (b := 0) rfl (by decide) (by decide) (word_work sw 0 0 0) (fun _ => by
    simp [Decode.work, ok])
theorem workHold (sw : Bool) (d a : XReg) : Statement (.workHold sw d a) :=
  ofA (d := d) (a := a) (b := 0) rfl (by decide) (by decide) (word_work sw d a 0) (fun _ => by
    simp [Decode.work, ok])
theorem workRelease (sw : Bool) (d a : XReg) : Statement (.workRelease sw d a) :=
  ofA (d := d) (a := a) (b := 0) rfl (by decide) (by decide) (word_work sw d a 0) (fun _ => by
    simp [Decode.work, ok])
theorem workLaunch (sw : Bool) (d a : XReg) : Statement (.workLaunch sw d a) :=
  ofA (d := d) (a := a) (b := 0) rfl (by decide) (by decide) (word_work sw d a 0) (fun _ => by
    simp [Decode.work, ok])
theorem workMigrate (sw : Bool) (d a : XReg) : Statement (.workMigrate sw d a) :=
  ofA (d := d) (a := a) (b := 0) rfl (by decide) (by decide) (word_work sw d a 0) (fun _ => by
    simp [Decode.work, ok])
theorem otaskSub (sw : Bool) (d a : XReg) : Statement (.otaskSub sw d a) :=
  ofA (d := d) (a := a) (b := 0) rfl (by decide) (by decide) (word_31 sw d a 0) (fun _ => by
    simp [Decode.engines, ok])
theorem otaskStat (sw : Bool) (d a : XReg) : Statement (.otaskStat sw d a) :=
  ofA (d := d) (a := a) (b := 0) rfl (by decide) (by decide) (word_31 sw d a 0) (fun _ => by
    simp [Decode.engines, ok])
theorem gangLead (sw : Bool) (d a : XReg) : Statement (.gangLead sw d a) :=
  ofA (d := d) (a := a) (b := 0) rfl (by decide) (by decide) (word_gang sw d a 0) (fun _ => by
    simp [Decode.gang, ok])
theorem gangFollow (sw : Bool) (d a : XReg) : Statement (.gangFollow sw d a) :=
  ofA (d := d) (a := a) (b := 0) rfl (by decide) (by decide) (word_gang sw d a 0) (fun _ => by
    simp [Decode.gang, ok])
theorem gangJoin (sw : Bool) (a : XReg) : Statement (.gangJoin sw a) :=
  ofA (d := 0) (a := a) (b := 0) rfl (by decide) (by decide) (word_gang sw 0 a 0) (fun _ => by
    simp [Decode.gang, ok])
theorem gangEnd (sw : Bool) : Statement (.gangEnd sw) :=
  ofA (d := 0) (a := 0) (b := 0) rfl (by decide) (by decide) (word_gang sw 0 0 0) (fun _ => by
    simp [Decode.gang, ok])
theorem gangStat (sw : Bool) (d : XReg) : Statement (.gangStat sw d) :=
  ofA (d := d) (a := 0) (b := 0) rfl (by decide) (by decide) (word_gang sw d 0 0) (fun _ => by
    simp [Decode.gang, ok])
theorem cxDef (sw : Bool) (d a : XReg) : Statement (.cxDef sw d a) :=
  ofA (d := d) (a := a) (b := 0) rfl (by decide) (by decide) (word_33 sw d a 0) (fun _ => by
    simp [Decode.crossing, ok])
theorem cxDep (sw : Bool) (d a b : XReg) : Statement (.cxDep sw d a b) :=
  ofA (d := d) (a := a) (b := b) rfl (by decide) (by decide) (word_33 sw d a b) (fun _ => by
    simp [Decode.crossing, ok])
theorem cxRun (sw : Bool) : Statement (.cxRun sw) :=
  ofA (d := 0) (a := 0) (b := 0) rfl (by decide) (by decide) (word_33 sw 0 0 0) (fun _ => by
    simp [Decode.crossing, ok])
theorem cxStop (sw : Bool) : Statement (.cxStop sw) :=
  ofA (d := 0) (a := 0) (b := 0) rfl (by decide) (by decide) (word_33 sw 0 0 0) (fun _ => by
    simp [Decode.crossing, ok])
theorem cxRd (sw : Bool) (d a b : XReg) : Statement (.cxRd sw d a b) :=
  ofA (d := d) (a := a) (b := b) rfl (by decide) (by decide) (word_33 sw d a b) (fun _ => by
    simp [Decode.crossing, ok])
theorem cxSlope (sw : Bool) (a b : XReg) : Statement (.cxSlope sw a b) :=
  ofA (d := 0) (a := a) (b := b) rfl (by decide) (by decide) (word_33 sw 0 a b) (fun _ => by
    simp [Decode.crossing, ok])
theorem cxSample (sw : Bool) (d a b : XReg) : Statement (.cxSample sw d a b) :=
  ofA (d := d) (a := a) (b := b) rfl (by decide) (by decide) (word_33 sw d a b) (fun _ => by
    simp [Decode.crossing, ok])
theorem srDef (sw : Bool) (a : XReg) : Statement (.srDef sw a) :=
  ofA (d := 0) (a := a) (b := 0) rfl (by decide) (by decide) (word_34 sw 0 a 0) (fun _ => by
    simp [Decode.crossing, ok])
theorem srPut (sw : Bool) (d a b : XReg) : Statement (.srPut sw d a b) :=
  ofA (d := d) (a := a) (b := b) rfl (by decide) (by decide) (word_34 sw d a b) (fun _ => by
    simp [Decode.crossing, ok])
theorem srDone (sw : Bool) (a : XReg) : Statement (.srDone sw a) :=
  ofA (d := 0) (a := a) (b := 0) rfl (by decide) (by decide) (word_34 sw 0 a 0) (fun _ => by
    simp [Decode.crossing, ok])
theorem srRej (sw : Bool) (a : XReg) : Statement (.srRej sw a) :=
  ofA (d := 0) (a := a) (b := 0) rfl (by decide) (by decide) (word_34 sw 0 a 0) (fun _ => by
    simp [Decode.crossing, ok])
theorem srStat (sw : Bool) (d a : XReg) : Statement (.srStat sw d a) :=
  ofA (d := d) (a := a) (b := 0) rfl (by decide) (by decide) (word_34 sw d a 0) (fun _ => by
    simp [Decode.crossing, ok])
theorem srDrain (sw : Bool) (d a : XReg) : Statement (.srDrain sw d a) :=
  ofA (d := d) (a := a) (b := 0) rfl (by decide) (by decide) (word_34 sw d a 0) (fun _ => by
    simp [Decode.crossing, ok])
theorem frBoard (sw : Bool) (d a : XReg) : Statement (.frBoard sw d a) :=
  ofA (d := d) (a := a) (b := 0) rfl (by decide) (by decide) (word_35 sw d a 0) (fun _ => by
    simp [Decode.crossing, ok])
theorem frCancel (sw : Bool) (d a : XReg) : Statement (.frCancel sw d a) :=
  ofA (d := d) (a := a) (b := 0) rfl (by decide) (by decide) (word_35 sw d a 0) (fun _ => by
    simp [Decode.crossing, ok])
theorem frStat (sw : Bool) (d a : XReg) : Statement (.frStat sw d a) :=
  ofA (d := d) (a := a) (b := 0) rfl (by decide) (by decide) (word_35 sw d a 0) (fun _ => by
    simp [Decode.crossing, ok])
theorem redTree (sw : Bool) (d a : XReg) : Statement (.redTree sw d a) :=
  ofA (d := d) (a := a) (b := 0) rfl (by decide) (by decide) (word_36 sw d a 0) (fun _ => by
    simp [Decode.crossing, ok])
theorem redPut (sw : Bool) (d a b : XReg) : Statement (.redPut sw d a b) :=
  ofA (d := d) (a := a) (b := b) rfl (by decide) (by decide) (word_36 sw d a b) (fun _ => by
    simp [Decode.crossing, ok])
theorem redWait (sw : Bool) (d a : XReg) : Statement (.redWait sw d a) :=
  ofA (d := d) (a := a) (b := 0) rfl (by decide) (by decide) (word_36 sw d a 0) (fun _ => by
    simp [Decode.crossing, ok])
theorem redStat (sw : Bool) (d a b : XReg) : Statement (.redStat sw d a b) :=
  ofA (d := d) (a := a) (b := b) rfl (by decide) (by decide) (word_36 sw d a b) (fun _ => by
    simp [Decode.crossing, ok])
theorem redMan (sw : Bool) (d a b : XReg) : Statement (.redMan sw d a b) :=
  ofA (d := d) (a := a) (b := b) rfl (by decide) (by decide) (word_36 sw d a b) (fun _ => by
    simp [Decode.crossing, ok])
theorem sysGets (sw : Bool) (d : XReg) (sn : SReg) : Statement (.sysGets sw d sn) :=
  have hn : sregCode sn < 4096 := by have := sregCode_lt sn; omega
  ofWord rfl (fields_S sw (k := 0) d.isLt hn (by decide) rfl).1 (fun _ => (word_gets sw d hn rfl).trans (by simp [ok]))
theorem sysSets (sw : Bool) (d : XReg) (sn : SReg) : Statement (.sysSets sw d sn) :=
  have hn : sregCode sn < 4096 := by have := sregCode_lt sn; omega
  ofWord rfl (fields_S sw (k := 1) d.isLt hn (by decide) rfl).1 (fun _ => (word_sets sw d hn rfl).trans (by simp [ok]))
theorem sysBrk (sw : Bool) (a : XReg) : Statement (.sysBrk sw a) :=
  ofWord rfl (fields_A sw (by decide) (Nat.zero_lt_succ _) a.isLt (Nat.zero_lt_succ _) (by decide)).1 (fun _ => by
    have hw := word_sysA sw 0 a 0 (k := 2) (by decide)
    obtain ⟨-, -, -, h3, h4, h5, -⟩ := fields_A sw (major := 0x38) (fn := 2) (by decide) (Fin.isLt (0 : XReg)) (Fin.isLt (a : XReg)) (Fin.isLt (0 : XReg)) (by decide)
    obtain ⟨h6, h7⟩ := fields_sysA sw 0 a 0 (k := 2) (by decide)
    refine hw.trans ?_
    simp only [sys, h3, h4, h5, h6, h7]
    simp [ok])
theorem sysRet (sw : Bool) : Statement (.sysRet sw) :=
  ofWord rfl (fields_A sw (by decide) (Nat.zero_lt_succ _) (Nat.zero_lt_succ _) (Nat.zero_lt_succ _) (by decide)).1 (fun _ => by
    have hw := word_sysA sw 0 0 0 (k := 3) (by decide)
    obtain ⟨-, -, -, h3, h4, h5, -⟩ := fields_A sw (major := 0x38) (fn := 3) (by decide) (Fin.isLt (0 : XReg)) (Fin.isLt (0 : XReg)) (Fin.isLt (0 : XReg)) (by decide)
    obtain ⟨h6, h7⟩ := fields_sysA sw 0 0 0 (k := 3) (by decide)
    refine hw.trans ?_
    simp only [sys, h3, h4, h5, h6, h7]
    simp [ok])
theorem sysGate (sw : Bool) (d a : XReg) : Statement (.sysGate sw d a) :=
  ofWord rfl (fields_A sw (by decide) d.isLt a.isLt (Nat.zero_lt_succ _) (by decide)).1 (fun _ => by
    have hw := word_sysA sw d a 0 (k := 4) (by decide)
    obtain ⟨-, -, -, h3, h4, h5, -⟩ := fields_A sw (major := 0x38) (fn := 4) (by decide) (Fin.isLt (d : XReg)) (Fin.isLt (a : XReg)) (Fin.isLt (0 : XReg)) (by decide)
    obtain ⟨h6, h7⟩ := fields_sysA sw d a 0 (k := 4) (by decide)
    refine hw.trans ?_
    simp only [sys, h3, h4, h5, h6, h7]
    simp [ok])
theorem sysInvp (sw : Bool) (a b : XReg) : Statement (.sysInvp sw a b) :=
  ofWord rfl (fields_A sw (by decide) (Nat.zero_lt_succ _) a.isLt b.isLt (by decide)).1 (fun _ => by
    have hw := word_sysA sw 0 a b (k := 5) (by decide)
    obtain ⟨-, -, -, h3, h4, h5, -⟩ := fields_A sw (major := 0x38) (fn := 5) (by decide) (Fin.isLt (0 : XReg)) (Fin.isLt (a : XReg)) (Fin.isLt (b : XReg)) (by decide)
    obtain ⟨h6, h7⟩ := fields_sysA sw 0 a b (k := 5) (by decide)
    refine hw.trans ?_
    simp only [sys, h3, h4, h5, h6, h7]
    simp [ok])
theorem sysInva (sw : Bool) (b : XReg) : Statement (.sysInva sw b) :=
  ofWord rfl (fields_A sw (by decide) (Nat.zero_lt_succ _) (Nat.zero_lt_succ _) b.isLt (by decide)).1 (fun _ => by
    have hw := word_sysA sw 0 0 b (k := 6) (by decide)
    obtain ⟨-, -, -, h3, h4, h5, -⟩ := fields_A sw (major := 0x38) (fn := 6) (by decide) (Fin.isLt (0 : XReg)) (Fin.isLt (0 : XReg)) (Fin.isLt (b : XReg)) (by decide)
    obtain ⟨h6, h7⟩ := fields_sysA sw 0 0 b (k := 6) (by decide)
    refine hw.trans ?_
    simp only [sys, h3, h4, h5, h6, h7]
    simp [ok])
theorem sysMret (sw : Bool) : Statement (.sysMret sw) :=
  ofWord rfl (fields_A sw (by decide) (Nat.zero_lt_succ _) (Nat.zero_lt_succ _) (Nat.zero_lt_succ _) (by decide)).1 (fun _ => by
    have hw := word_sysA sw 0 0 0 (k := 7) (by decide)
    obtain ⟨-, -, -, h3, h4, h5, -⟩ := fields_A sw (major := 0x38) (fn := 7) (by decide) (Fin.isLt (0 : XReg)) (Fin.isLt (0 : XReg)) (Fin.isLt (0 : XReg)) (by decide)
    obtain ⟨h6, h7⟩ := fields_sysA sw 0 0 0 (k := 7) (by decide)
    refine hw.trans ?_
    simp only [sys, h3, h4, h5, h6, h7]
    simp [ok])
theorem amoHomeApply (r : AtomicReq) : Statement (.amoHomeApply r) := ofEvent rfl
theorem lockReevaluate (addr : Nat) : Statement (.lockReevaluate addr) := ofEvent rfl
theorem lockResend (r : LockReq) : Statement (.lockResend r) := ofEvent rfl
theorem messageArrival (msg : Message) : Statement (.messageArrival msg) := ofEvent rfl
theorem sendOutcome (who : Issuer) (dest : XReg) (outcome : Nat) : Statement (.sendOutcome who dest outcome) := ofEvent rfl
theorem queueEntryArrival (core : Nat) (port : Fin 8) (value : Word) : Statement (.queueEntryArrival core port value) := ofEvent rfl
theorem creditReturn (core : Nat) (port : Fin 8) : Statement (.creditReturn core port) := ofEvent rfl
theorem meshPhaseRelease (die col row w h : Nat) : Statement (.meshPhaseRelease die col row w h) := ofEvent rfl
theorem wiredTagRelease (die : Nat) (tag : Fin 8) : Statement (.wiredTagRelease die tag) := ofEvent rfl
theorem gangBarrierConsume (cluster : Nat) : Statement (.gangBarrierConsume cluster) := ofEvent rfl
theorem jobStart (cluster : Nat) (engine : Engine) : Statement (.jobStart cluster engine) := ofEvent rfl
theorem rowEnd (cluster : Nat) (slice : Fin 8) : Statement (.rowEnd cluster slice) := ofEvent rfl
theorem drainPathWrite (cluster : Nat) (slice : Fin 8) : Statement (.drainPathWrite cluster slice) := ofEvent rfl
theorem matrixOperationComplete (cluster : Nat) : Statement (.matrixOperationComplete cluster) := ofEvent rfl
theorem copyJobComplete (cluster : Nat) : Statement (.copyJobComplete cluster) := ofEvent rfl
theorem operationFailure (cluster : Nat) (engine : Engine) (cause : Cause) (va : Word) : Statement (.operationFailure cluster engine cause va) := ofEvent rfl
theorem forwardedWordArrival (core : Nat) (word : BitVec 32) (pc : Word) : Statement (.forwardedWordArrival core word pc) := ofEvent rfl
theorem sampleCapture (who : CtxId) : Statement (.sampleCapture who) := ofEvent rfl
theorem crossingSubmit (cluster slot : Nat) : Statement (.crossingSubmit cluster slot) := ofEvent rfl
theorem boardingRequest (req : BoardReq) : Statement (.boardingRequest req) := ofEvent rfl
theorem cancelRequest (who : CtxId) (dest : XReg) (ident : Nat) : Statement (.cancelRequest who dest ident) := ofEvent rfl
theorem contributionArrival (router : Nat) (port : Nat) (c : Contribution) : Statement (.contributionArrival router port c) := ofEvent rfl
theorem chunkComplete (die slot chunk : Nat) : Statement (.chunkComplete die slot chunk) := ofEvent rfl
theorem failureNotice (die slot chunk step : Nat) (hop : BitVec 32) : Statement (.failureNotice die slot chunk step hop) := ofEvent rfl
theorem srseedWrite (cluster : Nat) (value : Word) : Statement (.srseedWrite cluster value) := ofEvent rfl
theorem barrectWrite (core : Nat) (value : Word) : Statement (.barrectWrite core value) := ofEvent rfl
theorem wbartagWrite (core : Nat) (value : Word) : Statement (.wbartagWrite core value) := ofEvent rfl
theorem frspeedWrite (value : Word) : Statement (.frspeedWrite value) := ofEvent rfl
theorem resultWrite (who : CtxId) (r : Result) : Statement (.resultWrite who r) := ofEvent rfl
theorem storeAcknowledge (who : Issuer) (beyond mark : Bool) : Statement (.storeAcknowledge who beyond mark) := ofEvent rfl
theorem watchReevaluate (look : WatchLook) : Statement (.watchReevaluate look) := ofEvent rfl
theorem postedPoisonTrap (who : Issuer) (va : Word) : Statement (.postedPoisonTrap who va) := ofEvent rfl
theorem swapOutComplete (core : Nat) : Statement (.swapOutComplete core) := ofEvent rfl
theorem dockWrite (pier : Nat) : Statement (.dockWrite pier) := ofEvent rfl
theorem launchAcceptCheck (die lid : Nat) : Statement (.launchAcceptCheck die lid) := ofEvent rfl
theorem berthLoad (lid : Nat) (files : List ModuleFile) : Statement (.berthLoad lid files) := ofEvent rfl
theorem preemptionRequest (lid : Nat) : Statement (.preemptionRequest lid) := ofEvent rfl
theorem preemptionHalt (lid : Nat) : Statement (.preemptionHalt lid) := ofEvent rfl
theorem launchEnd (lid : Nat) : Statement (.launchEnd lid) := ofEvent rfl
theorem lineFetched (core : Nat) (line : Nat) : Statement (.lineFetched core line) := ofEvent rfl
theorem migrationArrival (m : MigrantId) : Statement (.migrationArrival m) := ofEvent rfl
theorem stealBackoffExpiry (core : Nat) : Statement (.stealBackoffExpiry core) := ofEvent rfl
theorem stealAttempt (core : Nat) : Statement (.stealAttempt core) := ofEvent rfl
theorem crossbarCycle (cluster : Nat) : Statement (.crossbarCycle cluster) := ofEvent rfl
theorem stageDraw (cluster : Nat) : Statement (.stageDraw cluster) := ofEvent rfl
theorem trapEntry (who : CtxId) (trap : Trap) : Statement (.trapEntry who trap) := ofEvent rfl
theorem limiterStep (group : Nat) : Statement (.limiterStep group) := ofEvent rfl
theorem startSelector (core : Nat) : Statement (.startSelector core) := ofEvent rfl
theorem taskDispatch (die : Nat) : Statement (.taskDispatch die) := ofEvent rfl
theorem swapOut (core : Nat) : Statement (.swapOut core) := ofEvent rfl
theorem resumeRestore (core : Nat) : Statement (.resumeRestore core) := ofEvent rfl
theorem taskCommit (die : Nat) : Statement (.taskCommit die) := ofEvent rfl
theorem tileTagStore (core : Nat) (tile : Nat) (value : Word) : Statement (.tileTagStore core tile value) := ofEvent rfl
theorem tileReadyEntryStore (core : Nat) (entry : Nat) (dw : Nat) (value : Word) : Statement (.tileReadyEntryStore core entry dw value) := ofEvent rfl
theorem tileReadyFire (core entry : Nat) : Statement (.tileReadyFire core entry) := ofEvent rfl
theorem consume (core ring : Nat) (n : Word) : Statement (.consume core ring n) := ofEvent rfl
theorem stallWatchdogTrip (group : Nat) : Statement (.stallWatchdogTrip group) := ofEvent rfl
theorem ferryStep : Statement (.ferryStep) := ofEvent rfl
theorem ringPause : Statement (.ringPause) := ofEvent rfl
theorem lapBoundary : Statement (.lapBoundary) := ofEvent rfl
theorem holdback : Statement (.holdback) := ofEvent rfl
theorem refreshWindow : Statement (.refreshWindow) := ofEvent rfl
theorem homeTranslation (die tenant : Nat) (kind : AccessKind) (va : Word) : Statement (.homeTranslation die tenant kind va) := ofEvent rfl
theorem pageMigration (die tenant : Nat) (va : Word) (owner : Nat) (frame : Nat) : Statement (.pageMigration die tenant va owner frame) := ofEvent rfl
theorem lreq (die : Nat) (value : Word) : Statement (.lreq die value) := ofEvent rfl
theorem preemptlid (die : Nat) (value : Word) : Statement (.preemptlid die value) := ofEvent rfl
theorem restorebase (die : Nat) (value : Word) : Statement (.restorebase die value) := ofEvent rfl
theorem inval (die : Nat) (value : Word) : Statement (.inval die value) := ofEvent rfl
theorem presolve (die : Nat) (value : Word) : Statement (.presolve die value) := ofEvent rfl
theorem fqbase (die : Nat) (value : Word) : Statement (.fqbase die value) := ofEvent rfl
theorem hostRegisterWrite (die : Nat) (offset : Nat) (value : Word) : Statement (.hostRegisterWrite die offset value) := ofEvent rfl
theorem headPlacement (die : Nat) : Statement (.headPlacement die) := ofEvent rfl
theorem quantumExhausted (lid : Nat) : Statement (.quantumExhausted lid) := ofEvent rfl
theorem actfcUpdate (die : Nat) : Statement (.actfcUpdate die) := ofEvent rfl
theorem linkFlitRefused (link dieA dieB : Nat) (again : Bool) : Statement (.linkFlitRefused link dieA dieB again) := ofEvent rfl
theorem tenantFieldError (who : CtxId) (va : Word) (packet : Packet) (copyGood : Bool) : Statement (.tenantFieldError who va packet copyGood) := ofEvent rfl
theorem machineCheck (core : Nat) (intact : Bool) : Statement (.machineCheck core intact) := ofEvent rfl
theorem scrub (addr : EccPlace) (finding : EccFinding) : Statement (.scrub addr finding) := ofEvent rfl
theorem coreRetirement (die rowPair : Nat) : Statement (.coreRetirement die rowPair) := ofEvent rfl
theorem powerDown (core : Nat) : Statement (.powerDown core) := ofEvent rfl
theorem wake (core : Nat) : Statement (.wake core) := ofEvent rfl
theorem routerClockGate (core : Nat) : Statement (.routerClockGate core) := ofEvent rfl
theorem moduleReset : Statement (.moduleReset) := ofEvent rfl
theorem rdmaWrite (tenant : Nat) (va : Word) (bytes : List Byte) : Statement (.rdmaWrite tenant va bytes) := ofEvent rfl
theorem rdmaRead (tenant : Nat) (va : Word) (len : Nat) : Statement (.rdmaRead tenant va len) := ofEvent rfl
theorem send (tenant : Nat) (bytes : List Byte) : Statement (.send tenant bytes) := ofEvent rfl
theorem cxlMemAccess (pa : Nat) (write : Option (List Byte)) (len : Nat) : Statement (.cxlMemAccess pa write len) := ofEvent rfl
theorem getVersion : Statement (.getVersion) := ofEvent rfl
theorem getCapabilities : Statement (.getCapabilities) := ofEvent rfl
theorem negotiateAlgorithms (asym hash : Nat) : Statement (.negotiateAlgorithms asym hash) := ofEvent rfl
theorem getDigests : Statement (.getDigests) := ofEvent rfl
theorem getCertificate (slot offset len : Nat) : Statement (.getCertificate slot offset len) := ofEvent rfl
theorem challenge (slot : Nat) (nonce : List Byte) : Statement (.challenge slot nonce) := ofEvent rfl
theorem getMeasurements (index : Nat) : Statement (.getMeasurements index) := ofEvent rfl
theorem prqhead (die : Nat) (value : Word) : Statement (.prqhead die value) := ofEvent rfl
theorem firmwareImageWrite (image : FirmwareImage) : Statement (.firmwareImageWrite image) := ofEvent rfl
theorem junctionLimit (die : Nat) : Statement (.junctionLimit die) := ofEvent rfl

end Sys2Proof.Laws.RoundTrip
end

