-- ==== Sys2Proof/Tests/Slice0.lean ====
section
/-! SUPPORT. The tests: ill-formed terms, words of the spec and what they decode to, and for every statement with hypotheses a state and
operands that meet them. Expected values are worked out from the spec. -/

namespace Sys2Proof.Machine

set_option Elab.async false

/-- Ill-formed terms are refused, one for each check of `WellFormed` (02 R50 and the function maps). -/
theorem test_wf_scalar : WellFormed (.br false .ltu 1 0) = false ∧ WellFormed (.ld false .d true .rlx 1 2 0) = false
    ∧ WellFormed (.ld false .w false .rel 1 2 0) = false ∧ WellFormed (.st false .w .acq 1 2 0) = false
    ∧ WellFormed (.idxLd false .w true .ar 1 2 3) = false ∧ WellFormed (.idxSt false .w .ar 1 2 3) = false := by decide

theorem test_wf_sync : WellFormed (.amoAdd false .b .rlx 1 2 3) = false ∧ WellFormed (.amoCas false .h .rlx 1 2 3) = false
    ∧ WellFormed (.amoFadd false .d .rlx 1 2 3) = false ∧ WellFormed (.msgBind false 1 23) = false ∧ WellFormed (.msgUnbind false 1 0) = false
    ∧ WellFormed (.msgQlen false 1 2) = false := by decide

theorem test_wf_vop : WellFormed (.vopAbs false .f32 true 1 2 0) = false ∧ WellFormed (.vopDiv false .i32 false 1 2 3 0) = false
    ∧ WellFormed (.vopSqrt false .i8 1 2 0) = false ∧ WellFormed (.vopAnd false .bf16 1 2 3 0) = false ∧ WellFormed (.vopSllSx false .f16 1 2 3 0) = false
    ∧ WellFormed (.vopMulh false .i64 1 2 3 0) = false ∧ WellFormed (.vopMulhSx false .f32 1 2 3 0) = false := by decide

theorem test_wf_vector : WellFormed (.vfmaFma false .i64 false 1 2 3 4 0) = false ∧ WellFormed (.vfmaFmsSx false .i64 false 1 2 3 0) = false
    ∧ WellFormed (.vfmaDot2 false .f32 false 1 2 3 4 0) = false ∧ WellFormed (.vfmaDot2Sx false .i8 false 1 2 3 0) = false
    ∧ WellFormed (.vcmp false .i8 (.cond .eq) 1 2 3 0) = false ∧ WellFormed (.vcmp false .f32 (.cond .ltu) 1 2 3 0) = false
    ∧ WellFormed (.vcmp false .i32 .un 1 2 3 0) = false ∧ WellFormed (.vcmp false .f32 .un 0 2 3 0) = false
    ∧ WellFormed (.vredAnd false .f32 1 2 0) = false := by decide

theorem test_wf_move : WellFormed (.vcvt false .f32 .f32 false false 1 2 0 0) = false ∧ WellFormed (.vcvt false .f32 .i32 true false 1 2 0 0) = false
    ∧ WellFormed (.vcvt false .i8 .i16 false true 1 2 0 0) = false ∧ WellFormed (.vcvt false .f32 .i32 false false 1 2 3 0) = false
    ∧ WellFormed (.vmovSetm false 1 0) = false ∧ WellFormed (.vmemLd false .rel 1 0 2 0) = false ∧ WellFormed (.vmemSt false .acq 1 0 2 0) = false := by
  decide

theorem test_wf_events : WellFormed (.startSelector 262144) = false ∧ WellFormed (.crossbarCycle 32768) = false ∧ WellFormed (.limiterStep 4096) = false
    ∧ WellFormed (.taskCommit 32) = false ∧ WellFormed (.tileTagStore 0 192 0) = false ∧ WellFormed (.tileReadyEntryStore 0 16 0 0) = false
    ∧ WellFormed (.tileReadyEntryStore 0 0 4 0) = false ∧ WellFormed (.consume 0 8 1) = false ∧ WellFormed (.meshPhaseRelease 0 0 0 0 1) = false
    ∧ WellFormed (.meshPhaseRelease 0 127 0 2 1) = false ∧ WellFormed (.crossingSubmit 0 512) = false ∧ WellFormed (.chunkComplete 0 1024 0) = false
    ∧ WellFormed (.failureNotice 0 0 65536 0 0) = false ∧ WellFormed (.hostRegisterWrite 0 4096 0) = false ∧ WellFormed (.coreRetirement 0 32) = false
    ∧ WellFormed (.cxlMemAccess (2 ^ 40) none 8) = false := by decide

/-- Words of the alu family, composed from the fields that the spec gives (04 R81, R82). -/
theorem test_decode_alu :
    decode 0x02321400 = .ok (.aluAdd false 3 4 5)
      ∧ decode 0x02952D26 = .ok (.aluCmp false .ltu 9 10 11)
      ∧ decode 0x02C6BA40 = .ok (.aluQuo false 12 13 14)
      ∧ decode 0x821101A0 = .ok (.aluZx32 true 1 2) := by decide

/-- Words of the imm family, composed from the fields that the spec gives (04 R87). -/
theorem test_decode_imm :
    decode 0x04840001 = .ok (.addi false 8 8 1)
      ∧ decode 0x0A1FFFFF = .ok (.xori false 1 31 0x7fff)
      ∧ decode 0x0C3217FF = .ok (.cmpi false .lt 3 4 (-1))
      ∧ decode 0x0E623458 = .ok (.lim false 6 0x23458) := by decide

/-- Words of the transfer family, composed from the fields that the spec gives (04 R91). -/
theorem test_decode_transfer :
    decode 0x1145FFFE = .ok (.br false .any 5 (-2))
      ∧ decode 0x121FFFFC = .ok (.jmp false 1 (-4))
      ∧ decode 0x14108000 = .ok (.jr false 1 1 0) := by decide

/-- Words of the hint family, composed from the fields that the spec gives (04 R88). -/
theorem test_decode_hint :
    decode 0x7E400001 = .ok (.hintImm false 0x400001)
      ∧ decode 0x7E800005 = .ok (.hintImx false 5)
      ∧ decode 0x7F400000 = .ok (.hintMod false 0x400000)
      ∧ decode 0x7F800007 = .ok (.hintReg false 7) := by decide

/-- Words of the ldst family, composed from the fields that the spec gives (06 R118, R124). -/
theorem test_decode_ldst :
    decode 0x2074E001 = .ok (.ld false .d false .rlx 7 9 1)
      ∧ decode 0x2074B7FF = .ok (.ld false .h true .acq 7 9 (-1))
      ∧ decode 0x22534804 = .ok (.st false .w .rel 5 6 4)
      ∧ decode 0x24531C14 = .ok (.idxLd false .b true .acq 5 6 7)
      ∧ decode 0x24531CE8 = .ok (.idxSt false .d .rel 5 6 7) := by decide

/-- Words of the amo family, composed from the fields that the spec gives (06 R126). -/
theorem test_decode_amo :
    decode 0x26031C18 = .ok (.amoAdd false .d .rlx 0 6 7)
      ∧ decode 0x26431D56 = .ok (.amoCas false .w .ar 4 6 7)
      ∧ decode 0x26431D10 = .ok (.amoFadd false .w .rlx 4 6 7) := by decide

/-- Words of the rwl family, composed from the fields that the spec gives (06 R131). -/
theorem test_decode_rwl :
    decode 0x28440000 = .ok (.rwlRacq false false 4 8)
      ∧ decode 0x28440040 = .ok (.rwlRacq false true 4 8)
      ∧ decode 0x28440080 = .ok (.rwlRrel false 4 8)
      ∧ decode 0x28440100 = .ok (.rwlWacq false false 4 8)
      ∧ decode 0x28440180 = .ok (.rwlWrel false 4 8) := by decide

/-- Words of the fence family, composed from the fields that the spec gives (06 R134). -/
theorem test_decode_fence :
    decode 0x2A000280 = .ok (.fenceRel false .die)
      ∧ decode 0x2A0003A0 = .ok (.fenceAr false .mod)
      ∧ decode 0x2A0001C0 = .ok (.fenceAcq false .sys) := by decide

/-- Words of the msg family, composed from the fields that the spec gives (06 R136). -/
theorem test_decode_msg :
    decode 0x2C04E000 = .ok (.msgBind false 9 24)
      ∧ decode 0x2C307C01 = .ok (.msgUnbind false 3 31)
      ∧ decode 0x2C306402 = .ok (.msgQlen false 3 25)
      ∧ decode 0x2C321403 = .ok (.msgSend false 3 4 5)
      ∧ decode 0x2C320004 = .ok (.msgOvf false 3 4) := by decide

/-- Words of the bar family, composed from the fields that the spec gives (06 R142). -/
theorem test_decode_bar :
    decode 0x2E000004 = .ok (.barSync false)
      ∧ decode 0x2E500002 = .ok (.barArrive false 5)
      ∧ decode 0x2E028003 = .ok (.barWait false 5)
      ∧ decode 0x2E028005 = .ok (.barWsync false 5) := by decide

/-- Words of the vf family, composed from the fields that the spec gives (06 R149). -/
theorem test_decode_vf :
    decode 0x30050000 = .ok (.vfPush false 10)
      ∧ decode 0x30050001 = .ok (.vfPop false 10)
      ∧ decode 0x30A00002 = .ok (.vfCount false 10) := by decide

/-- Words of the vop family, composed from the fields that the spec gives (05 R96, R99). -/
theorem test_decode_vop :
    decode 0x40530002 = .ok (.vopAdd false .f32 true 1 2 3 0)
      ∧ decode 0x41F7D9D5 = .ok (.vopSraSx false .i8 7 6 31 3)
      ∧ decode 0x40501104 = .ok (.vopSqrt false .bf16 1 2 2) := by decide

/-- Words of the vmem family, composed from the fields that the spec gives (05 R107). -/
theorem test_decode_vmem :
    decode 0x4BFF87FF = .ok (.vmemLd false .acq 7 3 31 (-1))
      ∧ decode 0x4A4119FF = .ok (.vmemSt false .rel 1 0 2 511)
      ∧ decode 0x4A61B004 = .ok (.vmemLdb false .rlx 1 2 3 4) := by decide

/-- Words of the vcvt family, composed from the fields that the spec gives (05 R104). -/
theorem test_decode_vcvt :
    decode 0x48E50042 = .ok (.vcvt false .f32 .bf16 false true 3 4 5 0)
      ∧ decode 0x48500824 = .ok (.vcvt false .bf16 .f32 true false 1 2 0 1) := by decide

/-- Words of the vfma family, composed from the fields that the spec gives (05 R101). -/
theorem test_decode_vfma :
    decode 0x42538000 = .ok (.vfmaFma false .f32 false 1 2 3 4 0)
      ∧ decode 0x42525887 = .ok (.vfmaDot2Sx false .bf16 true 1 2 9 3)
      ∧ decode 0x425380B4 = .ok (.vfmaDot4 false false 1 2 3 4 0) := by decide

/-- Words of the vcmp family, composed from the fields that the spec gives (05 R102). -/
theorem test_decode_vcmp :
    decode 0x44530180 = .ok (.vcmp false .f32 .un 1 2 3 0)
      ∧ decode 0x44D248CD = .ok (.vcmpSx false .i32 (.cond .ltu) 3 2 9 1) := by decide

/-- Words of the vred family, composed from the fields that the spec gives (05 R103). -/
theorem test_decode_vred :
    decode 0x46500002 = .ok (.vredSum false .f32 true 1 2 0)
      ∧ decode 0x46530910 = .ok (.vredPerm false .i16 1 2 3 1)
      ∧ decode 0x46524121 = .ok (.vredRot false .f32 1 2 9 0) := by decide

/-- Words of the vmov family, composed from the fields that the spec gives (05 R106). -/
theorem test_decode_vmov :
    decode 0x4C500800 = .ok (.vmovMov false 1 2 1)
      ∧ decode 0x4C12406D = .ok (.vmovExt false .i32 2 9 0)
      ∧ decode 0x4C0250A1 = .ok (.vmovSetm false 9 2) := by decide

/-- Words of the pat family, composed from the fields that the spec gives (05 R110). -/
theorem test_decode_pat :
    decode 0x4E050000 = .ok (.patCfg false 10)
      ∧ decode 0x4E530001 = .ok (.patExec false 5 6 0) := by decide

/-- Words of the job family, composed from the fields that the spec gives (07 R169). -/
theorem test_decode_job :
    decode 0xD2460000 = .ok (.jobSub true 4 12)
      ∧ decode 0xD2628002 = .ok (.jobWait true 6 5) := by decide

/-- Words of the xbar family, composed from the fields that the spec gives (07 R174). -/
theorem test_decode_xbar :
    decode 0x54001C00 = .ok (.xbarCnt false 0 7)
      ∧ decode 0x54002C01 = .ok (.xbarTerm false 0 11)
      ∧ decode 0x54070003 = .ok (.xbarPulse false 14) := by decide

/-- Words of the work family, composed from the fields that the spec gives (08 R176). -/
theorem test_decode_work :
    decode 0x60000003 = .ok (.workExit false 0)
      ∧ decode 0x60329801 = .ok (.workFork false 3 5 6)
      ∧ decode 0x60040002 = .ok (.workJoin false 8) := by decide

/-- Words of the cx family, composed from the fields that the spec gives (09 R205). -/
theorem test_decode_cx :
    decode 0x66320000 = .ok (.cxDef false 3 4)
      ∧ decode 0x66000002 = .ok (.cxRun false)
      ∧ decode 0x66321401 = .ok (.cxDep false 3 4 5) := by decide

/-- Words of the sr family, composed from the fields that the spec gives (09 R214). -/
theorem test_decode_sr :
    decode 0x68321401 = .ok (.srPut false 3 4 5)
      ∧ decode 0x68020002 = .ok (.srDone false 4) := by decide

/-- Words of the fr family, composed from the fields that the spec gives (09 R222). -/
theorem test_decode_fr :
    decode 0x6A320000 = .ok (.frBoard false 3 4)
      ∧ decode 0x6A320001 = .ok (.frCancel false 3 4) := by decide

/-- Words of the red family, composed from the fields that the spec gives (09 R227). -/
theorem test_decode_red :
    decode 0x6C320000 = .ok (.redTree false 3 4)
      ∧ decode 0x6C321401 = .ok (.redPut false 3 4 5) := by decide

/-- Words of the sys family, composed from the fields that the spec gives (10 R232, R239). -/
theorem test_decode_sys :
    decode 0x70500100 = .ok (.sysGets false 5 .ctxstat)
      ∧ decode 0x70500301 = .ok (.sysSets false 5 .trappc)
      ∧ decode 0x70038002 = .ok (.sysBrk false 7)
      ∧ decode 0x70000003 = .ok (.sysRet false) := by decide

/-- Words of the mx family, composed from the fields that the spec gives (07 R157). -/
theorem test_decode_mx :
    decode 0xD0350000 = .ok (.mxGang true 3 10)
      ∧ decode 0x50000001 = .ok (.mxRowout false) := by decide

/-- Words of the otask family, composed from the fields that the spec gives (08 R189). -/
theorem test_decode_otask :
    decode 0x62448000 = .ok (.otaskSub false 4 9)
      ∧ decode 0x62448001 = .ok (.otaskStat false 4 9) := by decide

/-- Words of the gang family, composed from the fields that the spec gives (08 R198). -/
theorem test_decode_gang :
    decode 0x64328000 = .ok (.gangLead false 3 5)
      ∧ decode 0x64030002 = .ok (.gangJoin false 6) := by decide


/-! The words of the other constructors, put together from the match and the fields of their rows in the opcode table. -/

theorem test_decode_alu_row0 :
    decode 0x02321410 = .ok (.aluSub false 3 4 5)
      ∧ decode 0x02321420 = .ok (.aluAnd false 3 4 5)
      ∧ decode 0x02321430 = .ok (.aluOr false 3 4 5)
      ∧ decode 0x02321440 = .ok (.aluXor false 3 4 5)
      ∧ decode 0x02321450 = .ok (.aluAnot false 3 4 5)
      ∧ decode 0x02321460 = .ok (.aluSll false 3 4 5)
      ∧ decode 0x02321470 = .ok (.aluSrl false 3 4 5)
      ∧ decode 0x02321480 = .ok (.aluSra false 3 4 5)
      ∧ decode 0x02321490 = .ok (.aluRol false 3 4 5)
      ∧ decode 0x023214A0 = .ok (.aluMin false 3 4 5)
      ∧ decode 0x023214B0 = .ok (.aluMax false 3 4 5)
      ∧ decode 0x023214C0 = .ok (.aluUmin false 3 4 5)
      ∧ decode 0x023214D0 = .ok (.aluUmax false 3 4 5)
      ∧ decode 0x023214E0 = .ok (.aluStep2 false 3 4 5)
      ∧ decode 0x023214F0 = .ok (.aluStep4 false 3 4 5)
      ∧ decode 0x02321500 = .ok (.aluStep8 false 3 4 5) := by decide

theorem test_decode_alu_row1 :
    decode 0x02321510 = .ok (.aluStep64 false 3 4 5)
      ∧ decode 0x02320140 = .ok (.aluLzc false 3 4)
      ∧ decode 0x02320150 = .ok (.aluTzc false 3 4)
      ∧ decode 0x02320160 = .ok (.aluOnes false 3 4)
      ∧ decode 0x02320170 = .ok (.aluSx8 false 3 4)
      ∧ decode 0x02320180 = .ok (.aluSx16 false 3 4)
      ∧ decode 0x02320190 = .ok (.aluSx32 false 3 4)
      ∧ decode 0x02321600 = .ok (.aluMul false 3 4 5)
      ∧ decode 0x02321610 = .ok (.aluHiss false 3 4 5)
      ∧ decode 0x02321620 = .ok (.aluHiuu false 3 4 5)
      ∧ decode 0x02321630 = .ok (.aluHisu false 3 4 5)
      ∧ decode 0x02321650 = .ok (.aluQuou false 3 4 5)
      ∧ decode 0x02321660 = .ok (.aluRmd false 3 4 5)
      ∧ decode 0x02321670 = .ok (.aluRmdu false 3 4 5) := by decide

theorem test_decode_imm_row0 :
    decode 0x06327ABC = .ok (.andi false 3 4 0x7abc)
      ∧ decode 0x08327ABC = .ok (.ori false 3 4 0x7abc) := by decide

theorem test_decode_amo_row0 :
    decode 0x2632143E = .ok (.amoAnd false .d .ar 3 4 5)
      ∧ decode 0x2632145E = .ok (.amoOr false .d .ar 3 4 5)
      ∧ decode 0x2632147E = .ok (.amoXor false .d .ar 3 4 5)
      ∧ decode 0x2632149E = .ok (.amoMin false .d .ar 3 4 5)
      ∧ decode 0x263214BE = .ok (.amoMax false .d .ar 3 4 5)
      ∧ decode 0x263214DE = .ok (.amoMinu false .d .ar 3 4 5)
      ∧ decode 0x263214FE = .ok (.amoMaxu false .d .ar 3 4 5)
      ∧ decode 0x2632153E = .ok (.amoSwap false .d .ar 3 4 5) := by decide

theorem test_decode_units_row0 :
    decode 0x2E000000 = .ok (.barReg false)
      ∧ decode 0x2E000001 = .ok (.barWd false)
      ∧ decode 0x52320001 = .ok (.jobPoll false 3 4)
      ∧ decode 0x54320002 = .ok (.xbarRdc false 3 4)
      ∧ decode 0x54020004 = .ok (.xbarClr false 4)
      ∧ decode 0x60321400 = .ok (.workStart false 3 4 5)
      ∧ decode 0x60000004 = .ok (.workYield false)
      ∧ decode 0x60320005 = .ok (.workHold false 3 4)
      ∧ decode 0x60320006 = .ok (.workRelease false 3 4)
      ∧ decode 0x60320007 = .ok (.workLaunch false 3 4)
      ∧ decode 0x60320008 = .ok (.workMigrate false 3 4)
      ∧ decode 0x64320001 = .ok (.gangFollow false 3 4)
      ∧ decode 0x64000003 = .ok (.gangEnd false)
      ∧ decode 0x64300004 = .ok (.gangStat false 3)
      ∧ decode 0x66000003 = .ok (.cxStop false)
      ∧ decode 0x66321404 = .ok (.cxRd false 3 4 5) := by decide

theorem test_decode_units_row1 :
    decode 0x66021405 = .ok (.cxSlope false 4 5)
      ∧ decode 0x66321406 = .ok (.cxSample false 3 4 5)
      ∧ decode 0x68020000 = .ok (.srDef false 4)
      ∧ decode 0x68020003 = .ok (.srRej false 4)
      ∧ decode 0x68320004 = .ok (.srStat false 3 4)
      ∧ decode 0x68320005 = .ok (.srDrain false 3 4)
      ∧ decode 0x6A320002 = .ok (.frStat false 3 4)
      ∧ decode 0x6C320002 = .ok (.redWait false 3 4)
      ∧ decode 0x6C321403 = .ok (.redStat false 3 4 5)
      ∧ decode 0x6C321404 = .ok (.redMan false 3 4 5)
      ∧ decode 0x70320004 = .ok (.sysGate false 3 4)
      ∧ decode 0x70021405 = .ok (.sysInvp false 4 5)
      ∧ decode 0x70001406 = .ok (.sysInva false 5)
      ∧ decode 0x70000007 = .ok (.sysMret false) := by decide

theorem test_decode_vop_row0 :
    decode 0x4052480F = .ok (.vopAddSx false .i32 true 1 2 9 1)
      ∧ decode 0x4053082E = .ok (.vopSub false .i32 true 1 2 3 1)
      ∧ decode 0x4052482F = .ok (.vopSubSx false .i32 true 1 2 9 1)
      ∧ decode 0x4053084E = .ok (.vopMul false .i32 true 1 2 3 1)
      ∧ decode 0x4052484F = .ok (.vopMulSx false .i32 true 1 2 9 1)
      ∧ decode 0x4053086C = .ok (.vopMin false .i32 1 2 3 1)
      ∧ decode 0x4052486D = .ok (.vopMinSx false .i32 1 2 9 1)
      ∧ decode 0x4053088C = .ok (.vopMax false .i32 1 2 3 1)
      ∧ decode 0x4052488D = .ok (.vopMaxSx false .i32 1 2 9 1)
      ∧ decode 0x405008AE = .ok (.vopAbs false .i32 true 1 2 1)
      ∧ decode 0x405008CE = .ok (.vopNeg false .i32 true 1 2 1)
      ∧ decode 0x405308E2 = .ok (.vopDiv false .f32 true 1 2 3 1)
      ∧ decode 0x405248E3 = .ok (.vopDivSx false .f32 true 1 2 9 1)
      ∧ decode 0x4053092C = .ok (.vopAnd false .i32 1 2 3 1)
      ∧ decode 0x4052492D = .ok (.vopAndSx false .i32 1 2 9 1)
      ∧ decode 0x4053094C = .ok (.vopOr false .i32 1 2 3 1) := by decide

theorem test_decode_vop_row1 :
    decode 0x4052494D = .ok (.vopOrSx false .i32 1 2 9 1)
      ∧ decode 0x4053096C = .ok (.vopXor false .i32 1 2 3 1)
      ∧ decode 0x4052496D = .ok (.vopXorSx false .i32 1 2 9 1)
      ∧ decode 0x4053098C = .ok (.vopSll false .i32 1 2 3 1)
      ∧ decode 0x4052498D = .ok (.vopSllSx false .i32 1 2 9 1)
      ∧ decode 0x405309AC = .ok (.vopSrl false .i32 1 2 3 1)
      ∧ decode 0x405249AD = .ok (.vopSrlSx false .i32 1 2 9 1)
      ∧ decode 0x405309CC = .ok (.vopSra false .i32 1 2 3 1)
      ∧ decode 0x405309EC = .ok (.vopMulh false .i32 1 2 3 1)
      ∧ decode 0x405249ED = .ok (.vopMulhSx false .i32 1 2 9 1) := by decide

theorem test_decode_vfma_row0 :
    decode 0x4252480F = .ok (.vfmaFmaSx false .i32 true 1 2 9 1)
      ∧ decode 0x4253882E = .ok (.vfmaFms false .i32 true 1 2 3 4 1)
      ∧ decode 0x4252482F = .ok (.vfmaFmsSx false .i32 true 1 2 9 1)
      ∧ decode 0x4253884E = .ok (.vfmaFnma false .i32 true 1 2 3 4 1)
      ∧ decode 0x4252484F = .ok (.vfmaFnmaSx false .i32 true 1 2 9 1)
      ∧ decode 0x4253886E = .ok (.vfmaFnms false .i32 true 1 2 3 4 1)
      ∧ decode 0x4252486F = .ok (.vfmaFnmsSx false .i32 true 1 2 9 1)
      ∧ decode 0x42538886 = .ok (.vfmaDot2 false .bf16 true 1 2 3 4 1)
      ∧ decode 0x425248B7 = .ok (.vfmaDot4Sx false true 1 2 9 1) := by decide

theorem test_decode_vred_row0 :
    decode 0x4650082C = .ok (.vredMin false .i32 1 2 1)
      ∧ decode 0x4650084C = .ok (.vredMax false .i32 1 2 1)
      ∧ decode 0x4650086C = .ok (.vredAnd false .i32 1 2 1)
      ∧ decode 0x4650088C = .ok (.vredOr false .i32 1 2 1)
      ∧ decode 0x465008AC = .ok (.vredXor false .i32 1 2 1) := by decide

theorem test_decode_vmov_row0 :
    decode 0x4C53082C = .ok (.vmovSel false .i32 1 2 3 1)
      ∧ decode 0x4C42484D = .ok (.vmovBcast false .i32 1 9 1)
      ∧ decode 0x4C024881 = .ok (.vmovGetm false 9 1)
      ∧ decode 0x4C4008C0 = .ok (.vmovZero false 1 1) := by decide

theorem test_decode_vmem_row0 :
    decode 0x4BE227FF = .ok (.vmemLdf false .acq 7 2 4 (-1)) := by decide
/-! ### Small states -/

/-- A live context with these x registers. -/
def tc (xs : List (XReg × Word)) : Ctx := xs.foldl (fun c p => c.setX p.1 p.2) { Ctx.reset with live := true, pc := 0x2000084 }

/-- Core cycle 100, in which context n of a core issues. -/
def ts (core : Nat) (n : CtxNo) (k : Core) (c : Ctx) : State :=
  ({ State.reset with who := { core := core, ctx := n }, cycle := 100 }).setCore core { k with ctxs := k.ctxs.set n.val c n.isLt }

/-- Every address from 0x2000000 to 0x200FFFF is mapped by a range of tenant 0 to DRAM from 0 on, where a line has every slot marked. -/
def mappedAs (attr : Attr) (s : State) : State :=
  let e : LookEntry := { tenant := 0, base := 0x2000000, limit := 0x2010000, frame := 0, loc := 0, x := true, w := true, r := true
                         attr := attr, leaf := none, raw := 0 }
  { s with mem := Memory.writeBytes (Memory.writeBytes s.mem 0 [255, 255, 255, 255]) 0x100000 [1] }.modDie 0 (fun d =>
    { d with ttBase := 0x100000, ttCount := 1, ranges := [e] })

def mapped (s : State) : State := mappedAs Attr.raw s

/-- A launch on columns 0 to 7 and rows 0 to 7 of dies 0 and 1. -/
def tl (st : LaunchState) : Launch :=
  let b : Berth := { die0 := 0, dies := 2, col := 0, row := 0, w := 8, h := 8 }
  { lid := 0, tenant := 0, die := 0, descAddr := 0, own := false, reqArg0 := 0, reqArg1 := 0, reqPrio := 0, desc := none, prio := 0, age := 0
    state := st, berth := some b, quantum := 0, begun := none, rooms := [], placedAt := 0, issueAt := none, wentAt := none, timetable := none, requested := 0, haltAt := 0
    spent := 0, cancel := false, saved := false }

/-- Nothing stands in the way of any word of the issuing context (Safety.lean). -/
def freeToIssue (s : State) : Bool :=
  !(s.core s.who.core).leads s.who && (List.finRange 32).all (fun r => !(s.core s.who.core).isPort r) && (s.ctx s.who).outstanding.isEmpty

theorem clear {s : State} (h : freeToIssue s = true) (srcs dests : List Dest) : s.Clear srcs dests := by
  simp only [freeToIssue, Bool.and_eq_true, Bool.not_eq_true', List.all_eq_true, List.isEmpty_iff] at h
  obtain ⟨⟨h1, h2⟩, h3⟩ := h
  exact ⟨h1, fun r _ => h2 r (List.mem_finRange r), fun o ho => by simp [h3] at ho⟩

/-- Nothing stands in the way of a word, though results of registers that it does not name are awaited. -/
theorem clearOf {s : State} {srcs dests : List Dest} (h : (!(s.core s.who.core).leads s.who && (List.finRange 32).all (fun r => !(s.core s.who.core).isPort r)
    && (s.ctx s.who).outstanding.all (fun o => !(srcs ++ dests).contains o.dest)) = true) : s.Clear srcs dests := by
  simp only [Bool.and_eq_true, Bool.not_eq_true', List.all_eq_true, List.contains_eq_mem, decide_eq_false_iff_not] at h
  obtain ⟨⟨h1, h2⟩, h3⟩ := h
  exact ⟨h1, fun r _ => h2 r (List.mem_finRange r), h3⟩

/-- And no hint word is pending and no ordered task runs. -/
def Plain (s : State) : Prop := (∀ srcs dests, s.Clear srcs dests) ∧ s.NoHints ∧ s.ImmHints ∧ s.NoTask

theorem plain {s : State} (h : (freeToIssue s && !(s.ctx s.who).hints.pending && decide ((s.ctx s.who).role = .plain)) = true) : Plain s := by
  simp only [Bool.and_eq_true, Bool.not_eq_true', decide_eq_true_eq] at h
  obtain ⟨⟨h1, h4⟩, h5⟩ := h
  refine ⟨clear h1, h4, ?_, fun n => by simp [h5]⟩
  have h := h4
  simp only [Hints.pending, Bool.or_eq_false_iff] at h
  refine ⟨by simpa using h.1.2, by simpa using h.2, fun hx => ?_⟩
  simp [h.1.1.2] at hx

/-- An access reaches its place, and the state and the access then meet P. -/
def reachB (s : State) (kind : AccessKind) (va : Word) (n : Nat) (P : State → Access → Bool) : Bool :=
  decide (va.toNat % n = 0) && (match s.resolve s.who.core kind va n with
    | (t, .ok a) => (!a.beyond || decide ((t.core s.who.core).beyond < (t.core s.who.core).wn)) && t.portServes s.who.core a && P t a
    | _ => false)

theorem reaches {s : State} {kind : AccessKind} {va : Word} {n : Nat} {P : State → Access → Bool} (h : reachB s kind va n P = true) :
    ∃ t a, s.Reaches kind va n t a ∧ P t a = true := by
  simp only [reachB, Bool.and_eq_true, decide_eq_true_eq] at h
  obtain ⟨h1, h2⟩ := h
  split at h2
  · rename_i t a e
    simp only [Bool.and_eq_true, Bool.or_eq_true, Bool.not_eq_true', decide_eq_true_eq] at h2
    exact ⟨t, a, ⟨h1, e, fun hb => by simpa [hb] using h2.1.1, h2.1.2⟩, h2.2⟩
  · simp at h2

theorem passes {α β : Type} {p : α × Option β} (h : p.2.isNone = true) : ∃ t, p = (t, none) :=
  ⟨p.1, Prod.ext rfl (Option.isNone_iff_eq_none.mp h)⟩

/-! ### Scalar and control words -/

/-- Core 5, context 1: x3 an address of its own window, x4 = 7, x5 = 9. -/
def w0 : State := ts 5 1 Core.reset (tc [(3, 0x1000), (4, 7), (5, 9)])

theorem witness_SingleCycleAluResult : Plain w0 := plain (by decide)

theorem witness_MultiplyAndDivideResult : Plain w0 ∧ (w0.core 5).divBusy ≤ w0.cycle ∧ Plain (ts 5 1 { Core.reset with divBusy := 101 } (tc []))
    ∧ 100 < ((ts 5 1 { Core.reset with divBusy := 101 } (tc [])).core 5).divBusy := ⟨plain (by decide), by decide, plain (by decide), by decide⟩

theorem witness_ScalarWordFrame : Plain w0 ∧ ∃ t, exec (.aluAdd false 6 4 5) w0 = .next t := ⟨plain (by decide), _, rfl⟩

/-- A pending `imm`. -/
def wHint : State := ts 5 1 Core.reset { tc [(3, 0x1000)] with hints := { Hints.none with imm := some 1, first := 0x2000080 } }

theorem witness_ImmediateResult : Plain w0 ∧ wHint.ImmHints ∧ (wHint.ctx wHint.who).hints.pending = true :=
  ⟨plain (by decide), ⟨rfl, rfl, fun h => by simp [wHint] at h; decide⟩, by decide⟩

/-- A branch on x3 is not taken for `eq`; the mapped line admits one target, and the address above it does not. -/
def wJump : State := mapped (ts 5 1 Core.reset (tc [(3, 0x2000004), (4, 0x1000)]))

theorem witness_ControlTransferOutcome : Plain wJump ∧ WellFormed.br .eq = true ∧ WellFormed.br .ne = true ∧ (wJump.ctx wJump.who).getX 3 ≠ 0
    ∧ (∃ t, wJump.checkTarget 5 0x2000004 true = (t, none)) ∧ (∃ t p, wJump.checkTarget 5 0x1000 true = (t, some p)) :=
  ⟨plain (by decide), by decide, by decide, by decide, ⟨_, rfl⟩, ⟨_, _, rfl⟩⟩

theorem witness_TargetChecksInOrder : (0x2000002 : Word).toNat % 4 ≠ 0 ∧ 2 ^ 48 ≤ (0x1000000000000 : Word).toNat ∧ (0x1000 : Word).toNat < 0x2000000
    ∧ (∃ t c, wJump.resolveFetch 5 0x2010000 = (t, .error c)) ∧ (∃ t key, wJump.resolveFetch 5 0x2000004 = (t, .ok key))
    ∧ (∃ t key, wJump.resolveFetch 5 0x2000080 = (t, .ok key) ∧ t.peek (key / 128 * 128) 4 / 2 ^ 0 % 2 ≠ 1)
    ∧ (∃ t key, wJump.resolveFetch 5 0x2000000 = (t, .ok key) ∧ t.peek (key / 128 * 128) 4 / 2 ^ 0 % 2 = 1) :=
  ⟨by decide, by decide, by decide, ⟨_, _, rfl⟩, ⟨_, _, rfl⟩, ⟨_, _, rfl, by decide⟩, ⟨_, _, rfl, by decide⟩⟩

/-- A destination that awaits a result. -/
def ow (d : Dest) (p : Producer) : Outstanding := { dest := d, by_ := p, pc := 0x2000080, hints := .none, stale := false, past := false }

/-- x3 awaits a result whose value is on its way, with WHTRAP as given. -/
def wHazard (whtrap : Bool) (p : Producer) : State :=
  let s := ts 5 1 Core.reset { tc [(3, 1)] with whtrap := whtrap, outstanding := [ow (.x 3) p] }
  { s with agenda := [(105, .resultWrite s.who (Result.plain (.x 3) 8))] }

/-- An ordered task of slot 7. -/
def wTask : State := ts 5 1 Core.reset { tc [(3, 0x1000)] with role := .task 7 }

theorem witness_HintGroupsAndIssueTraps : (w0.core 5).leads w0.who = false ∧ Plain w0 ∧ (∀ srcs dests, wHint.Clear srcs dests)
    ∧ (wHint.ctx wHint.who).hints.pending = true ∧ (∀ srcs dests, wTask.Clear srcs dests) ∧ wTask.NoHints ∧ (wTask.ctx wTask.who).role = .task 7
    ∧ (wTask.ctx wTask.who).arrivedMesh = false :=
  ⟨by decide, plain (by decide), clear (by decide), by decide, clear (by decide), rfl, by decide, by decide⟩

theorem witness_HintGroupsAndIssueTraps_hazard : (∀ b p, ((wHazard b p).core 5).leads (wHazard b p).who = false)
    ∧ (∀ b p, ((wHazard b p).core 5).isPort 3 = false ∧ ((wHazard b p).core 5).isPort 4 = false) ∧ (∀ b p, (wHazard b p).NoHints)
    ∧ ∀ b p, (wHazard b p).ctx (wHazard b p).who = { tc [(3, 1)] with whtrap := b, outstanding := [ow (.x 3) p] } :=
  ⟨fun _ _ => rfl, fun _ _ => ⟨rfl, rfl⟩, fun _ _ => rfl, fun _ _ => rfl⟩

/-- A handler at the mapped line. -/
def wTrap (intrap : Bool) : State := mapped (ts 5 1 Core.reset { tc [] with trapVec := 0x2000004, intrap := intrap })

theorem witness_TrapEntrySavesAndRedirects : ∀ b : Bool, ((wTrap b).core 5).gang.active = false
    ∧ ((wTrap b).ctx (wTrap b).who).outstanding = [] ∧ ((wTrap b).ctx (wTrap b).who).popped = [] ∧ ((wTrap b).ctx (wTrap b).who).role = .plain
    ∧ ((wTrap b).ctx (wTrap b).who).intrap = b ∧ ((wTrap b).ctx (wTrap b).who).trapVec ≠ 0 ∧ ((wTrap b).ctx (wTrap b).who).live = true
    ∧ (∃ t, (wTrap b).checkTarget 5 0x2000004 true = (t, none)) ∧ (State.reset.ctx (wTrap b).who).live = false :=
  fun b => ⟨by cases b <;> decide, by cases b <;> decide, by cases b <;> decide, by cases b <;> decide, by cases b <;> decide,
    by cases b <;> decide, by cases b <;> decide, passes (by cases b <;> decide), by cases b <;> decide⟩

/-! ### Memory words -/

theorem witness_LoadResult : Plain w0 ∧ ∃ t a, w0.Reaches .read 0x1000 4 t a ∧ decide (t.loadPoison a 4 = none) = true :=
  ⟨plain (by decide), reaches (by decide)⟩

theorem witness_StoreResult : Plain w0 ∧ Memory.wf w0.mem = true ∧ (∃ t a, w0.Reaches .write 0x1000 8 t a ∧ decide (a.attr.format ≠ 9 ∧ a.attr.format ≠ 10) = true)
    ∧ (9 = 9 ∧ 2 = 2 ∨ 9 = 10 ∧ 2 = 4) := ⟨plain (by decide), by decide, reaches (by decide), by decide⟩

/-- Core 5, context 1, with x4 an address. -/
def wAt (va : Word) : State := ts 5 1 Core.reset (tc [(4, va)])

/-- A poisoned granule at offset 0x1000. -/
def wPoison : State := { w0 with poison := [(spadCell 5 0x1000, 8)] }

theorem witness_ScalarAccessTraps : (∀ va, (wAt va).NoHints) ∧ Plain (wAt 0x1001) ∧ ((0x1001 : Word)).toNat % 4 ≠ 0
    ∧ (∃ t e, (wAt 0x1700000).resolve 5 .read 0x1700000 4 = (t, .error e)) ∧ 2 ^ 48 ≤ (0x1000000000000 : Word).toNat
    ∧ 0x18000 ≤ (0x18000 : Word).toNat ∧ (0x18ffc : Word).toNat < 0x19000 ∧ Plain wPoison
    ∧ (∃ t a, wPoison.Reaches .read 0x1000 4 t a ∧ decide (t.loadPoison a 4 = some .poison) = true) :=
  ⟨fun _ => rfl, plain (by decide), by decide, ⟨_, _, rfl⟩, by decide, by decide, by decide, plain (by decide), reaches (by decide)⟩

theorem witness_AtomicWordSendsRequest : Plain w0 ∧ ∃ t a, w0.Reaches .atomic ((w0.ctx w0.who).getX 3) 8 t a ∧ decide (t.poisoned a.key 8 = false) = true :=
  ⟨plain (by decide), reaches (by decide)⟩

/-- A request on offset 0x1000 of core 5's scratchpad. -/
def wReq (op : AmoOp) (dest : Option XReg) : AtomicReq :=
  { op := op, sz := .w, addr := spadCell 5 0x1000, va := 0x1000, operand := 7, compare := 0, more := [], who := w0.issuer w0.who, dest := dest
    members := [w0.issuer w0.who], reply := 2, format := 0, beyond := false }

theorem witness_AtomicPerformedAtHome : Memory.wf w0.mem = true ∧ w0.poisoned (wReq .add (some 4)).addr 4 = false ∧ wPoison.poisoned (wReq .add (some 4)).addr 4 = true
    ∧ (wPoison.ctx (wReq .add none).who.slot).live = true ∧ (w0.core 5).isPort 4 = false := by decide

/-- x4 awaits the result of a request whose doubleword is poisoned. -/
def wReply : State :=
  { ts 5 1 Core.reset { tc [(3, 0x1000)] with outstanding := [ow (.x 4) .atomic] } with poison := [(spadCell 5 0x1000, 8)] }

theorem witness_AtomicPerformedAtHome_reply : wReply.poisoned (wReq .add (some 4)).addr 4 = true ∧ wReply.placeOf (wReq .add (some 4)).who = some (.slot w0.who)
    ∧ (wReply.ctx w0.who).park = .none ∧ (wReply.ctx w0.who).popped = []
    ∧ (wReply.ctx w0.who).outstanding.find? (fun o => o.dest = .x 4) = some (ow (.x 4) .atomic) ∧ (wReply.core 5).isPort 4 = false := by decide

/-- A lock word at offset 0x1000: free, read by one, and held. -/
def wLock (w : Nat) : State := { w0 with mem := Memory.writeBytes [] (spadCell 5 0x1000) (leBytes 8 w) }

theorem witness_LockWords : Plain (wLock 0) ∧ Plain (wLock 1) ∧ Plain (wLock (2 ^ 62)) ∧ Memory.wf (wLock 1).mem = true
    ∧ (∃ t a, (wLock 0).Reaches .lock ((w0.ctx w0.who).getX 3) 8 t a ∧ (decide (t.poisoned a.key 8 = false) && Memory.wf t.mem
        && decide (t.peek a.key 8 = 0)) = true)
    ∧ (∃ t a, (wLock 1).Reaches .lock ((w0.ctx w0.who).getX 3) 8 t a ∧ (decide (t.poisoned a.key 8 = false)
        && decide (t.peek a.key 8 % 2 ^ 32 ≠ 0) && decide (((t.die 0).locks).length < 16)) = true)
    ∧ (∃ t a, (wLock (2 ^ 62)).Reaches .lock ((w0.ctx w0.who).getX 3) 8 t a ∧ (decide (t.poisoned a.key 8 = false)
        && decide (t.peek a.key 8 / 2 ^ 62 % 2 = 1)) = true) :=
  ⟨plain (by decide), plain (by decide), plain (by decide), by decide, reaches (by decide), reaches (by decide), reaches (by decide)⟩

theorem witness_FenceCompletesOrParks : Plain w0 ∧ (w0.ctx w0.who).unacked = 0 ∧ (ts 5 1 Core.reset { tc [] with unacked := 1 }).NoHints
    ∧ ((ts 5 1 Core.reset { tc [] with unacked := 1 }).ctx w0.who).unacked ≠ 0 := ⟨plain (by decide), by decide, rfl, by decide⟩

/-! ### Ports, messages, barriers, the vertical FIFO -/

/-- Port 0 of core 5 bound to port 2 of core 6, which has answered. -/
def wPorts (q : Port) : State :=
  let k := { Core.reset with ports := Core.reset.ports.set 0 q }
  let s := (ts 5 1 k (tc [(3, 6 + 2 * 2 ^ 18), (4, 2 ^ 21), (6, 7)])).setCore 6 { Core.reset with ports := Core.reset.ports.set 2 { Port.reset with
    bound := true, peerCore := 5, peerPort := 0 } }
  { s with launches := [(0, tl .running)] }

theorem witness_QueuePortsBindAndUnbind : portOf 24 = some 0 ∧ Plain (wPorts Port.reset) ∧ ((wPorts Port.reset).core 5).ports.get 0 = Port.reset
    ∧ (6 + 2 * 2 ^ 18) < 2 ^ 21 ∧ (wPorts Port.reset).inBerth 5 6 = true ∧ (wPorts Port.reset).inBerth 5 200 = false
    ∧ ((wPorts Port.reset).core 6).ports.get 2 = { Port.reset with bound := true, peerCore := 5, peerPort := 0 }
    ∧ ¬(((wPorts Port.reset).core 7).ports.get 2).bound = true ∧ (wPorts { Port.reset with bound := true, fifo := [1], credits := 8 }).NoHints
    ∧ (wPorts { Port.reset with bound := true, fifo := [1], credits := 8 }).NoTask
    ∧ (((wPorts { Port.reset with bound := true, fifo := [1], credits := 8 }).core 5).ports.get 0).bound = true := by
  refine ⟨by decide, plain (by decide), by decide, by decide, by decide, by decide, by decide, by decide, rfl, fun _ => ?_, by decide⟩
  show Role.plain ≠ _
  simp

/-- Ports 0 and 1 of core 5 bound, an entry in port 0. -/
def wPair (fifo : List Word) : State :=
  let k := { Core.reset with ports := (Core.reset.ports.set 0 { Port.reset with bound := true, paired := true, peerCore := 6, peerPort := 0, fifo := fifo
                                                                                credits := 8 }).set 1 { Port.reset with
      bound := true, paired := true, peerCore := 6, peerPort := 1, credits := 8 } }
  ts 5 1 k (tc [])

theorem witness_PortsAsOperands : ∀ l, (wPair l).NoHints ∧ ((wPair l).core 5).leads (wPair l).who = false ∧ portOf 24 = some 0 ∧ portOf 25 = some 1
    ∧ ((wPair l).ctx (wPair l).who).outstanding = [] ∧ (((wPair l).core 5).ports.get 0).bound = true ∧ (((wPair l).core 5).ports.get 1).bound = true
    ∧ (((wPair l).core 5).ports.get 0).fifo = l ∧ (((wPair l).core 5).ports.get 1).credits = 8 :=
  fun _ => ⟨rfl, rfl, by decide, by decide, rfl, rfl, rfl, rfl, rfl⟩

/-- A send of 8 bytes from offset 0x1000 to ring 1 of core 5. -/
def wSend (va : Word) (len : Nat) : State := ts 5 1 Core.reset (tc [(3, va), (4, BitVec.ofNat 64 (len + 2 ^ 11 + 5 * 2 ^ 16))])

theorem witness_MessageSendParksForItsReads : Plain (wSend 0x1000 8) ∧ Plain (wSend 0x1000 4) ∧ Plain (wSend 0x1004 8) ∧ Plain (wSend 0x17ff8 16)
    ∧ (∃ t, (wSend 0x1000 8).readOwn w0.who 0x1000 8 = (t, none)) ∧ groupOf 5 = groupOf 5 :=
  ⟨plain (by decide), plain (by decide), plain (by decide), plain (by decide), ⟨_, rfl⟩, rfl⟩

/-- A send that has 40 or 64 bytes to read. -/
def wSending (n : Nat) : State :=
  let m : Message := { src := 5, core := 5, ring := 1, bytes := [], who := w0.issuer w0.who, dest := 4, delay := 0 }
  ts 5 1 Core.reset { tc [(4, 7)] with park := .sending 0x1000 n m false }

theorem witness_MessageSendParksForItsReads_reads : ∃ m, ((wSending 40).ctx w0.who).park = .sending 0x1000 40 m false ∧ ((wSending 32).ctx w0.who).park = .sending 0x1000 32 m false
    ∧ m.bytes.length + 32 < 40 ∧ 32 ≤ m.bytes.length + 32 ∧ ((wSending 40).ctx w0.who).role = .plain :=
  ⟨_, rfl, rfl, by decide, by decide, by decide⟩

/-- Ring 1 of core 5 with this size and these positions, and a message of 8 bytes for it. -/
def wRing (size head used : Nat) : State :=
  ts 5 1 { Core.reset with rings := Core.reset.rings.set 1 { Ring.reset with base := 0x2000, size := size, head := head, used := used } } (tc [])
def wMsg : Message := { src := 5, core := 5, ring := 1, bytes := [1, 2, 3, 4, 5, 6, 7, 8], who := w0.issuer w0.who, dest := 4, delay := 0 }

theorem witness_MessageArrivesWholeOrRefused : Memory.wf (wRing 0 0 0).mem = true ∧ Memory.wf (wRing 64 0 0).mem = true ∧ (wRing 64 48 0).inBerth 5 5 = true ∧ 48 + 16 ≤ 64 ∧ 16 ≤ 64 - 0
    ∧ 64 < 56 + 16 ∧ 64 - 56 + 16 ≤ 64 - 0 ∧ (((wRing 64 48 56).core 5).rings.get 1).overflow < 2 ^ 32 - 1 ∧ 48 + 16 ≤ 64 ∧ 64 - 56 < 16
    ∧ 8 + wMsg.bytes.length = 16 := by decide

/-- A core that lies in its rectangle, with its context registered or not. -/
def wBar (reg : Bool) (x : Word) : State :=
  ts 5 1 { Core.reset with bar := { Barriers.reset with rect := 0x2010000, reg := if reg then 1 else 0, member := 2, phase := 3 } }
    { tc [(3, x)] with registered := reg }

theorem witness_BarrierWords : Plain (wBar false 0) ∧ Plain (wBar true 1) ∧ Plain (wBar true 2) ∧ rectOf ((wBar true 1).core 5).bar.rect = { col := 0, row := 0, w := 8, h := 16 }
    ∧ ((wBar true 1).ctx w0.who).registered = true ∧ ((wBar false 0).ctx w0.who).registered = false ∧ ((wBar true 1).ctx w0.who).arrivedMesh = false
    ∧ ((wBar true 1).core 5).bar.member.getLsbD 1 = true ∧ ((wBar true 2).core 5).bar.member.getLsbD 2 = false
    ∧ 1 ≤ ((3 : BitVec 16) - 2).toNat ∧ ((3 : BitVec 16) - 2).toNat ≤ 32767 ∧ ((3 : BitVec 16) - 3).toNat = 0 ∧ 32767 < ((3 : BitVec 16) - 4).toNat :=
  ⟨plain (by decide), plain (by decide), plain (by decide), by decide, by decide, by decide, by decide, by decide, by decide, by decide, by decide, by decide,
    by decide⟩

theorem witness_BarrierReleasesAndRegisters : (wBar true 1).CoresOk ∧ 5 ∈ ({ col := 0, row := 0, w := 8, h := 16 } : Rect).cores 0
    ∧ rectOf ((wBar true 1).core 5).bar.rect = { col := 0, row := 0, w := 8, h := 16 } ∧ 5 ∈ (wBar true 1).tagMembers 0 1
    ∧ ((ts 5 1 { Core.reset with bar := { Barriers.reset with sent := true, tagSent := 1 } } (tc [])).core 5).bar.tagSent ≠ 0
    ∧ ((wBar true 1).core 5).bar.tagSent = 0 ∧ (∀ g, ((wBar true 1).core 5).bar.tagArr.get g = 0)
    ∧ (∀ g : Fin 8, ((ts 5 1 Core.reset (tc [])).core 5).bar.member.getLsbD g.val = true → ((ts 5 1 Core.reset (tc [])).core 5).bar.tagReg.get g ≠ 0) :=
  ⟨by unfold State.CoresOk; decide, by decide, by decide, by decide, by decide, by decide, by decide, by decide⟩

/-- A lower core, and the upper one bonded to it, with entries in the lower one's FIFO. -/
def wVf (core : Nat) (l : List (Nat × Vec)) (va : Word) : State := (ts core 1 Core.reset (tc [(3, va)])).modCore 5 (fun k => { k with vfifo := l })

theorem witness_VerticalFifoWords : Plain (wVf 5 [] 0x1000) ∧ Plain (wVf 8197 [(90, 7)] 0x1000) ∧ dieOf 5 % 2 = 0 ∧ dieOf 8197 % 2 = 1 ∧ 8197 - 8192 = 5
    ∧ (∃ t, (wVf 5 [] 0x1000).readOwn w0.who 0x1000 64 = (t, none)) ∧ (∃ t a, (wVf 8197 [(90, 7)] 0x1000).resolve 8197 .write 0x1000 64 = (t, .ok a))
    ∧ (∀ c : CtxNo, (((wVf 8197 [(90, 7)] 0x1000).core 8197).ctxs.get c).park.isPop = false)
    ∧ Plain (wVf 5 (List.replicate 8 (90, 7)) 0x1000) ∧ 8 ≤ ((wVf 5 (List.replicate 8 (90, 7)) 0x1000).core 5).vfifo.length :=
  ⟨plain (by decide), plain (by decide), by decide, by decide, by decide, ⟨_, rfl⟩, ⟨_, _, rfl⟩, by decide, plain (by decide), by decide⟩


/-! ### Vector words and the patch -/

/-- Core 5, context 1, with the divide and root unit occupied until cycle b. -/
def wRoot (b : Nat) : State := ts 5 1 { Core.reset with rootBusy := b } (tc [])

theorem witness_VectorLanewiseResult : Plain w0 := plain (by decide)

theorem witness_DivideAndRootResult : Plain (wRoot 100) ∧ ((wRoot 100).core 5).rootBusy ≤ (wRoot 100).cycle ∧ Plain (wRoot 101)
    ∧ (wRoot 101).cycle < ((wRoot 101).core 5).rootBusy := ⟨plain (by decide), by decide, plain (by decide), by decide⟩

theorem witness_IntegerLanesAndRounding : fmtOf .i8 = none ∧ 0x80 < 2 ^ LaneTy.i8.width ∧ 0xFF < 2 ^ LaneTy.i8.width
    ∧ 2 * (3 * 2 ^ 1 - 5) = 2 ^ 1 ∧ 2 * (5 - 2 * 2 ^ 1) = 2 ^ 1 := by decide

theorem witness_FusedMultiplyResult : Plain w0 := plain (by decide)

theorem witness_VectorCompareResult : Plain w0 ∧ LaneTy.f32 ≠ .i8 := ⟨plain (by decide), by decide⟩

theorem witness_VectorReductionResult : Plain w0 ∧ fmtOf .i32 = none := ⟨plain (by decide), by decide⟩

/-- m1 as given, and x5 the mapped page. -/
def wLane (m : BitVec 32) : State := ts 5 1 Core.reset { tc [(5, 0x2000000)] with m := (Ctx.reset).m.set 1 m }

theorem witness_VectorMoveAndConvertResult : Plain (wLane 4) ∧ Plain (wLane 0) ∧ 2 < LaneTy.f32.count
    ∧ laneActive .f32 (((wLane 4).ctx w0.who).getM 1) 2 = true ∧ (∀ j < 2, laneActive .f32 (((wLane 4).ctx w0.who).getM 1) j = false)
    ∧ ∀ i < LaneTy.f32.count, laneActive .f32 (((wLane 0).ctx w0.who).getM 1) i = false :=
  ⟨plain (by decide), plain (by decide), by decide, by decide, by decide, by decide⟩

/-- The lanes of 32 bits that m1 names. -/
def active1 (s : State) : List Nat := (List.range 16).filter (fun i => ((s.ctx s.who).getM 1).getLsbD i)

theorem witness_VectorLoadAndStoreResult : Plain (wLane 0) ∧ Plain (wLane 4) ∧ active1 (wLane 0) = [] ∧ active1 (wLane 4) = [2] ∧ (0x1000 : Word).toNat % 64 = 0
    ∧ (0x1020 : Word).toNat % 64 ≠ 0 ∧ (∃ t a, (wLane 4).Reaches .write 0x1000 64 t a ∧ true = true)
    ∧ (∃ t a, (wLane 4).Reaches .read 0x1000 64 t a ∧
      decide (t.loadPoison { a with key := a.key + 4 * 2, spad := a.spad.map (fun q => (q.1, q.2 + 4 * 2)) } 4 = none) = true) :=
  ⟨plain (by decide), plain (by decide), by decide, by decide, by decide, by decide, reaches (by decide), reaches (by decide)⟩

/-- The context of `wLane` at a page of a format. -/
def wFmt (attr : Attr) : State := mappedAs attr (wLane 4)

/-- The access of `wFmt` to its page, once every byte of its record that it reads is resolved where the page is PL8. -/
def fmtServes (attr : Attr) : Bool :=
  let ok (t : State) (a : Access) : Bool := t.portServes 5 a && decide ((t.core 5).beyond < (t.core 5).wn)
  match (wFmt attr).resolve 5 .read 0x2000000 4 with
  | (t, .ok a) => decide (a.attr = attr) && (attr.format ≠ 8 && ok t a && decide (t.loadPoison { a with key := a.key + 4 * 2 } 4 = none)
    || match t.resolvePieces 5 0x2000000 1 (planeBytes (32 * 2 ^ attr.blockg) (attr.planesn + 1) [2]) with
      | (u, .ok (x :: xs)) => ok u x.2 && (x :: xs).all (fun y => y.2.beyond == x.2.beyond && decide (u.loadPoison y.2 1 = none))
      | _ => false)
  | _ => false

theorem witness_FormatLoadResult : Plain (wLane 0) ∧ active1 (wLane 0) = [] ∧ Plain (wFmt Attr.raw) ∧ Plain (wFmt { format := 8, blockg := 0, planesn := 2 })
    ∧ active1 (wFmt { format := 8, blockg := 0, planesn := 2 }) = [2] ∧ fmtServes Attr.raw = true ∧ fmtServes { format := 10, blockg := 0, planesn := 0 } = true
    ∧ fmtServes { format := 8, blockg := 0, planesn := 2 } = true ∧ (∀ a, ((wFmt a).ctx w0.who).getX 5 = 0x2000000) ∧ (0x1002 : Word).toNat % 4 ≠ 0 :=
  ⟨plain (by decide), by decide, plain (by decide), plain (by decide), by decide, by decide, by decide, by decide, fun _ => rfl, by decide⟩

/-- x4 the address of a configuration block, and a patch loaded or not. -/
def wPatch (p : Option Patch) : State := ts 5 1 { Core.reset with patch := p } (tc [(4, 0x1000)])

theorem witness_PatchWords : (∀ p, (wPatch p).NoHints ∧ ((wPatch p).core 5).patchLoading = false ∧ ((wPatch p).core 5).patch = p) ∧ Plain (wPatch none)
    ∧ Plain (wPatch (some { header := 0, cells := [1] })) ∧ inGroupWindow 5 0x1000 = true ∧ inGroupWindow 5 (0x1000 + 135) = true
    ∧ (∀ n : CtxNo, ∀ o ∈ (((wPatch none).core 5).ctxs.get n).outstanding, o.by_ ≠ .patch) ∧ (∃ t a, (wPatch none).resolve 5 .read 0x1000 136 = (t, .ok a))
    ∧ 0 < [(1 : Word)].length :=
  ⟨fun _ => ⟨rfl, rfl, rfl⟩, plain (by decide), plain (by decide), by decide, by decide, by decide, ⟨_, _, rfl⟩, by decide⟩

/-- A configuration load that has read these doublewords, the next one at cycle n. -/
def wPatCfg (n : Nat) (block : List Word) : State := ts 5 1 Core.reset { tc [(4, 0x1000)] with park := .patCfg 0x1000 n block false }

theorem witness_PatchWords_park : (∀ n block, ((wPatCfg n block).ctx w0.who).park = .patCfg 0x1000 n block false) ∧ (wPatCfg 101 []).cycle < 101 ∧ 100 ≤ (wPatCfg 100 []).cycle
    ∧ (∃ t acc v lat, (wPatCfg 100 []).readScalar w0.who (0x1000 + BitVec.ofNat 64 (8 * [].length (α := Word))) .d false = (t, .ok (acc, v, lat)))
    ∧ (∃ t acc lat, (wPatCfg 100 (List.replicate 16 0)).readScalar w0.who (0x1000 + BitVec.ofNat 64 (8 * (List.replicate 16 (0 : Word)).length)) .d false = (t, .ok (acc, 0, lat)))
    ∧ [].length (α := Word) < 16 ∧ (List.replicate 16 (0 : Word)).length = 16 ∧ ∀ i < 17, blockFault i ((List.replicate 16 0 ++ [0]).getD i 0) = none :=
  ⟨fun _ _ => rfl, by decide, by decide, ⟨_, _, _, _, rfl⟩, ⟨_, _, _, rfl⟩, by decide, by decide, by decide⟩

/-! ### Engines, crossbar, work, ordered tasks, gangs -/

/-- Job slot 2 has ended as state st; position 0 or another of its cluster; x4 an address or the job's identifier. -/
def wJob (core : Nat) (st : Nat) (v : Word) (arrivals : BitVec 8) : State :=
  (ts core 1 Core.reset (tc [(4, v)])).modCluster (clusterOf core) (fun k => { k with
    jobs := k.jobs.set 2 { JobSlot.reset with gen := 3, used := true, state := st }, gangArrivals := arrivals })

/-- A drain-row helper of row 9. -/
def wRow : State := ts 5 1 Core.reset { tc [] with role := .drainRow 9 0x62 0x1000 0 false }

theorem witness_EngineWords : Plain (wJob 0 2 0x1000 0) ∧ Plain (wJob 1 2 0x62 0xFD) ∧ Plain (wJob 1 1 0x62 0) ∧ (∃ t, (wJob 0 2 0x1000 0).readOwn w0.who 0x1000 32 = (t, none))
    ∧ posOf 0 = 0 ∧ posOf 1 ≠ 0 ∧ inClusterWindow 0 0x1000 = true ∧ inClusterWindow 0 (0x1000 + 71) = true
    ∧ (∃ t, (wJob 0 2 0x1000 0).readOwn w0.who 0x1000 72 = (t, none)) ∧ (wJob 0 2 0x1000 0).gangHeld 0 = false ∧ (wJob 1 2 0x62 0xFD).gangHeld 1 = false
    ∧ (∀ p : Fin 8, ((wJob 1 2 0x62 0xFD).cluster (clusterOf 1)).gangArrivals.getLsbD p.val = true ∨ p.val = posOf 1)
    ∧ (∀ srcs dests, wRow.Clear srcs dests) ∧ wRow.NoHints ∧ (wRow.ctx wRow.who).role = .drainRow 9 0x62 0x1000 0 false := by
  refine ⟨plain (by decide), plain (by decide), plain (by decide), ⟨_, rfl⟩, by decide, by decide, by decide, by decide, ⟨_, rfl⟩, by decide, by decide, by decide,
    clear (by decide), rfl, by decide⟩

theorem witness_EngineWords_wait : (((wJob 1 2 0x62 0).cluster (clusterOf 1)).statusOf 0x62).1 = true
    ∧ (((wJob 1 1 0x62 0).cluster (clusterOf 1)).statusOf 0x62).1 = false := by decide

theorem witness_CrossbarWords : Plain w0 ∧ (9 : Word).toNat < 2 ^ 16 ∧ 2 ^ 33 ≤ (0x200000000 : Word).toNat := ⟨plain (by decide), by decide, by decide⟩

/-- The control context of core 5 with x4 an entry that passes, and n tasks in the deque. -/
def wStart (n : CtxNo) (depth : Nat) : State :=
  mapped (ts 5 n { Core.reset with deque := List.replicate depth { entry := 0, arg0 := 0, arg1 := 0, pushed := 0 } } (tc [(4, 0x2000004)]))

/-- The control context of a core whose helper slots are all taken. -/
def wAllTaken : State := ts 5 0 { Core.reset with ctxs := Vector.replicate 11 (tc []) } (tc [])

theorem witness_StartAndForkResult : Plain (wStart 0 0) ∧ Plain (wStart 1 31) ∧ Plain (wStart 1 32) ∧ Plain wAllTaken
    ∧ (∀ n : CtxNo, ¬(1 ≤ n.val ∧ ¬(n = 10 ∧ wAllTaken.slotReserved 5 = true) ∧ (wAllTaken.core 5).slotFree n 100 = true))
    ∧ (1 ≤ (1 : CtxNo).val ∧ ¬((1 : CtxNo) = 10 ∧ (wStart 0 0).slotReserved 5 = true) ∧ ((wStart 0 0).core 5).slotFree 1 100 = true) ∧ (∀ i : CtxNo, i < 1 → ¬1 ≤ i.val)
    ∧ (∃ u, (wStart 0 0).checkTarget 5 0x2000004 true = (u, none)) ∧ ((wStart 1 31).core 5).deque.length < 32 ∧ 32 ≤ ((wStart 1 32).core 5).deque.length :=
  ⟨plain (by decide), plain (by decide), plain (by decide), plain (by decide), by decide, by decide, by decide, passes (by decide), by decide, by decide⟩

theorem readsOk {p : State × Except Trap (List Word)} {P : State → List Word → Bool} (h : (match p with | (t, .ok ds) => P t ds | _ => false) = true) :
    ∃ t ds, p = (t, .ok ds) ∧ P t ds = true := by
  split at h
  · exact ⟨_, _, rfl, h⟩
  · simp at h

/-- Doublewords at offset 0x1000 of core 5's scratchpad, read by a core that lies in a launch. -/
def wCard (ds : List Word) (k : Core) (c : Ctx) : State :=
  { ts 5 1 k c with mem := Memory.writeBytes [] (spadCell 5 0x1000) (ds.flatMap (fun d => leBytes 8 d.toNat)), launches := [(0, tl .running)] }

/-- A core with helper slots all taken, a task in its deque and room to spill. -/
def wStarved : State :=
  ts 5 1 { Core.reset with ctxs := Vector.replicate 11 (tc []), deque := [{ entry := 0, arg0 := 0, arg1 := 0, pushed := 0 }], spillBase := 0x17000 } (tc [])

/-- The state with x3 a number. -/
def w3 (n : CtxNo) (v : Word) : State := { ts 5 n Core.reset (tc [(3, v)]) with launches := [(0, tl .running)] }

theorem witness_WorkWords : Plain w0 ∧ (∃ t a, w0.Reaches .read 0x1000 8 t a ∧ (decide (t.loadPoison a 8 = none) && decide (leValue (Memory.readBytes t.mem a.key 8) = 0)) = true)
    ∧ Plain (wCard [3] Core.reset (tc [(3, 0x1000)])) ∧ (∃ t a, (wCard [3] Core.reset (tc [(3, 0x1000)])).Reaches .read 0x1000 8 t a
      ∧ (decide (t.loadPoison a 8 = none) && decide (leValue (Memory.readBytes t.mem a.key 8) ≠ 0)) = true) ∧ inGroupWindow 5 0x1000 = true
    ∧ (w0.ctx w0.who).outstanding = [] ∧ (w0.ctx w0.who).popped = [] ∧ (∃ t a, w0.resolve 5 .atomic 0x1000 8 = (t, .ok a)) ∧ (∃ t, w0.readOwn w0.who 0x1000 32 = (t, none)) :=
  ⟨plain (by decide), reaches (by decide), plain (by decide), reaches (by decide), by decide, by decide, by decide, ⟨_, _, rfl⟩, ⟨_, rfl⟩⟩

/-- A context that ends while x4 awaits a result, a stage's exit or a helper. -/
def wExit (r : Role) : State := ts 5 1 Core.reset { tc [(3, 0x1000)] with role := r, outstanding := [ow (.x 4) .load] }

theorem roleOk {s : State} (r : Role) (h : ∀ n, r ≠ .task n) (e : (s.ctx s.who).role = r) : s.NoTask := fun n => e ▸ h n

theorem witness_WorkWords_exit : (wExit .plain).Clear [.x 3] [] ∧ (wExit (.exit 3)).Clear [.x 3] [] ∧ (∀ r, (wExit r).NoHints) ∧ (wExit (.exit 3)).NoTask ∧ (wExit .plain).NoTask
    ∧ ((wExit (.exit 3)).ctx w0.who).role = .exit 3 ∧ ((wExit .plain).ctx w0.who).outstanding ≠ [] ∧ ((wExit .plain).ctx w0.who).popped = []
    ∧ (∃ t a, w0.Reaches .atomic 0x1000 8 t a ∧ decide (a.beyond = false) = true) :=
  ⟨clearOf (by decide), clearOf (by decide), fun _ => rfl, roleOk (.exit 3) (by simp) (by decide), roleOk .plain (by simp) (by decide), by decide, by decide, by decide,
    reaches (by decide)⟩

theorem witness_WorkWords_migrate_yield : Plain (w3 1 6) ∧ Plain (w3 1 5) ∧ Plain (w3 0 6) ∧ (w3 1 6).inBerth 5 6 = true ∧ (w3 1 6).inBerth 5 200 = false
    ∧ Plain wStarved ∧ (wStarved.core 5).inGang wStarved.who = false ∧ wStarved.starved 5 ≠ [] ∧ 1024 ≤ (wStarved.core 5).spillRoom ∧ w0.starved 5 = [] :=
  ⟨plain (by decide), plain (by decide), plain (by decide), by decide, by decide, plain (by decide), by decide, by decide, by decide, by decide⟩

/-- An ordered task of launch 0 in a slot, in a state. -/
def tk (state : Nat) : OTask :=
  { gen := 3, ts := 10, key := 4, entry := 0x2000004, arg := 8, foot := [], lid := 0, cluster := 0, crossing := none, parent := none, state := state, runs := 1
    age := 0, running := none, home := 5, startedAt := 0, finishedAt := 0, firstStore := none, buffer := [], buffered := [], exitDec := none, held := none
    killed := false, stormKill := false, direct := false, stepped := [], writeSet := [], readSet := [], records := [], slopes := [], fp := 0 }

/-- Die 0 with a last commit of order (10, 4) and task 5 in this state, and a helper with x4 as given. -/
def wTasks (tasks : KMap OTask) (v : Word) : State :=
  (ts 5 1 Core.reset (tc [(4, v)])).modDie 0 (fun d => { d with tasks := tasks, commits := [(0, { last := some (10, 4), busy := none, from_ := 0, holds := [] })] })

/-- A helper parked on its card at 0x1000, whose third doubleword is d. -/
def wOtask (d : Word) : State := wCard [11, 0x2000004, 8, d] Core.reset { tc [] with park := .otaskSub 0x1000 90 [11, 0x2000004, 8] 4 false }

theorem witness_OrderedTaskWords : Plain (wTasks [(5, tk 1)] 0x1000) ∧ (∃ t, (wTasks [] 0x1000).readOwn w0.who 0x1000 32 = (t, none)) ∧ Plain (wTasks [(5, tk 1)] (3 * 512 + 5))
    ∧ kget (0 * 512 + (3 * 512 + 5) % 512) ((wTasks [(5, tk 1)] 0).die 0).tasks = some (tk 1) ∧ (tk 1).gen = (3 * 512 + 5) / 512 ∧ (tk 1).state < 8
    ∧ (∀ d, ((wOtask d).ctx w0.who).park = .otaskSub 0x1000 90 [11, 0x2000004, 8] 4 false)
    ∧ (∃ t ds, (wOtask 0).readCard w0.who 0x1000 4 90 [] = (t, .ok ds) ∧ decide (ds.length < 4) = true)
    ∧ (∃ t ds, (wOtask 0).readCard w0.who 0x1000 4 90 [11, 0x2000004, 8] = (t, .ok ds) ∧ decide (ds.length = 4 ∧ ds.getD 3 0 = 0) = true)
    ∧ (∃ t ds, (wOtask (2 ^ 48)).readCard w0.who 0x1000 4 90 [11, 0x2000004, 8] = (t, .ok ds) ∧ decide (ds.length = 4 ∧ 2 ^ 48 ≤ (ds.getD 3 0).toNat) = true)
    ∧ (∃ t ds, (wOtask 4).readCard w0.who 0x1000 4 90 [11, 0x2000004, 8] = (t, .ok ds) ∧ decide (ds.length = 4 ∧ (ds.getD 3 0).toNat < 2 ^ 48 ∧ (ds.getD 3 0).toNat % 8 ≠ 0) = true)
    ∧ (wTasks [] 0).taskOf w0.who = none ∧ (((wTasks [] 0).die 0).commitsOf 0).last = some (10, 4) :=
  ⟨plain (by decide), ⟨_, rfl⟩, plain (by decide), by decide, by decide, by decide, fun _ => rfl, readsOk (by decide), readsOk (by decide), readsOk (by decide), readsOk (by decide), by decide, by decide⟩

theorem kget_all {α : Type} (x : α) {n m : Nat} (h : n < m) : kget n ((List.range m).map (fun n => (n, x))) = some x := by
  have hk : ∀ l : List Nat, n ∈ l → kget n (l.map (fun n => (n, x))) = some x := by
    intro l
    induction l with
    | nil => simp
    | cons a l ih =>
      intro hn
      by_cases he : a = n
      · subst he; simp [kget]
      · have := ih (by simpa [Ne.symm he] using hn)
        simpa [kget, he, Ne.symm he] using this
  exact hk _ (by simpa using h)

theorem witness_OrderedTaskWords_full : (∀ n < 512, kget (0 * 512 + n) ((wTasks [] 0).die 0).tasks = none) ∧ (tk 1).open_ = true
    ∧ ∀ n < 512, kget n ((List.range 512).map (fun n => (n, tk 1))) = some (tk 1) := ⟨fun _ _ => rfl, by decide, fun _ h => kget_all _ h⟩

/-- Core 5 (position 1) takes part in a gang that core 6 leads, attached or not. -/
def wGang (active attached : Bool) (v : Word) : State :=
  ts 5 1 { Core.reset with gang := { Gang.reset with active := active, mask := 6, leader := 2, ctx := 1, attached := attached } } (tc [(4, v)])

/-- Core 5 (position 1) leads cores 5 and 6; core 6 follows it, or does not yet. -/
def wLead (follows : Bool) : State :=
  let x := if follows then { tc [] with park := .gangFollow 1 4 false } else tc []
  (ts 5 1 Core.reset { tc [] with park := .gangLead 6 4 false }).setCore 6 { Core.reset with ctxs := Core.reset.ctxs.set 3 x }

theorem witness_GangWords : Plain (wGang false false 6) ∧ posOf 5 = 1 ∧ (6 : Word).getLsbD 1 = true ∧ ((wGang false false 0).core 5).ganged = false
    ∧ Plain (wGang false false 3) ∧ Plain (wGang false false 0x100) ∧ Plain (wGang true true 0) ∧ Plain (wGang true false 0)
    ∧ ((wLead true).ctx w0.who).park = .gangLead 6 4 false ∧ ((wLead true).core 5).isPort 4 = false ∧ ((wLead true).followerOf 6 1).isSome = true
    ∧ (wLead false).followerOf 6 1 = none ∧ 6 ∈ coresOfCluster (clusterOf 5) ∧ (6 : BitVec 8).getLsbD (posOf 6) = true :=
  ⟨plain (by decide), by decide, by decide, by decide, plain (by decide), plain (by decide), plain (by decide), plain (by decide), by decide, by decide, by decide, by decide,
    by decide, by decide⟩

/-- Core 5 (position 1) leads cores 4 to 6: core 6 is attached, core 4 is not. -/
def wLeads : State :=
  let g (attached : Bool) : Gang := { Gang.reset with active := true, mask := 7, leader := 1, ctx := 1, attached := attached }
  ((ts 5 1 { Core.reset with gang := g true } (tc [])).setCore 4 { Core.reset with gang := g false }).setCore 6 { Core.reset with gang := g true }

theorem witness_GangWords_end : (wLeads.core 5).leads w0.who = true ∧ wLeads.gangFull w0.who = false ∧ wLeads.NoHints ∧ wLeads.gangMates 5 ≠ []
    ∧ ((wGang true true 0).core 5).inGang w0.who = true ∧ ((wGang false true 0).core 5).inGang w0.who = false := by
  refine ⟨by decide, by decide, rfl, by decide, by decide, by decide⟩

/-! ### Crossings, stages, the ferry, reductions, system words -/

/-- A variable of this index with these dependants. -/
def cv (index : Nat) (deps : List Nat) : CxVar :=
  { index := index, x := 0, t := 0, s := 0, q := 0x3F800000, qb := 0x3F800000, next := noCrossing, deps := 0x1200, deplist := deps, owner := 5, handler := 0, sts := 0
    stw := 0, swin := 0, scnt := 0, task := none, due := none }

/-- Core 5, in a launch, with these variables in its cluster, the unit running or not, a last commit, and x4 and x5 as given. -/
def wCx (running : Bool) (vars : KMap CxVar) (last : Option (Nat × Nat)) (x y : Word) : State :=
  ({ (ts 5 1 Core.reset (tc [(4, x), (5, y)])) with launches := [(0, tl .running)] }.modDie 0 (fun d => { d with
    commits := [(0, { last := last, busy := none, from_ := 0, holds := [] })] })).modCluster 1 (fun k => { k with cxRunning := running, vars := vars })

theorem witness_CrossingWords : Plain (wCx false [] none 0x1000 0) ∧ Plain (wCx true [] none 0x1000 0) ∧ (∃ t, (wCx false [] none 0x1000 0).readOwn w0.who 0x1000 32 = (t, none))
    ∧ Plain (wCx false [(0, cv 7 []), (1, cv 8 [])] none 7 8) ∧ (wCx false [(0, cv 7 []), (1, cv 8 [])] none 7 8).findVar 5 7 = some (1, 0, cv 7 [])
    ∧ ((wCx false [(0, cv 7 []), (1, cv 8 [])] none 7 8).findVar 5 8).isSome = true ∧ 32 ≤ (cv 7 (List.replicate 32 8)).deplist.length
    ∧ Plain (wCx false [] (some (9, 0)) 9 0x1000) ∧ (∀ i < 4, ∃ e, (wCx false [] (some (9, 0)) 9 0x1000).resolve 5 .write (0x1000 + BitVec.ofNat 64 (512 * i)) 512
      = (wCx false [] (some (9, 0)) 9 0x1000, .ok e)) ∧ (wCx false [] (some (9, 0)) 9 0x1000).lastTs 5 = some 9
    ∧ (0x1000 : Word).toNat % 64 = 0 ∧ (0x3F800000 : Word).toNat < 2 ^ 32 ∧ (0x3F800000 : Word).toNat / 2 ^ 23 % 2 ^ 8 ≠ 255 :=
  ⟨plain (by decide), plain (by decide), ⟨_, rfl⟩, plain (by decide), by decide, by decide, by decide, plain (by decide), fun i h => by
    match i, h with
    | 0, _ => exact ⟨_, rfl⟩
    | 1, _ => exact ⟨_, rfl⟩
    | 2, _ => exact ⟨_, rfl⟩
    | 3, _ => exact ⟨_, rfl⟩, by decide, by decide, by decide, by decide⟩

/-- A helper parked on a variable card, in a launch whose handler table at 0x1020 has an entry. -/
def wDef : State :=
  { wCard [0x3F80000000000000, 0x700000000, 0x1200, 0, 0x2000004] Core.reset { tc [] with park := .cxDef 0x1000 90 [0x3F80000000000000, 0x700000000, 0x1200] 4 false } with
    launches := [(0, { tl .running with desc := some { descOf (List.replicate 16 0) with htab := 0x1020 } })] }

theorem witness_CrossingWords_def : (wDef.ctx w0.who).park = .cxDef 0x1000 90 [0x3F80000000000000, 0x700000000, 0x1200] 4 false
    ∧ (∃ t ds, wDef.readCard w0.who 0x1000 4 90 [0x3F80000000000000, 0x700000000, 0x1200] = (t, .ok ds) ∧ (decide (ds.length = 4) && decide (dwFault 0x1000 (varCardCheck t 5) ds = none) && decide (kget 0 (t.cluster 1).vars = none)) = true)
    ∧ ∀ n < 512, kget n ((List.range 512).map (fun n => (n, cv 7 []))) ≠ none :=
  ⟨by decide, readsOk (by decide), fun _ h => by simp [kget_all _ h]⟩

/-- A stage of a class, and sets of which set 0 is defined with one such stage. -/
def wSets (cls : Nat) (records : KMap Record) (role : Role) (park : Park) (x : Word) : State :=
  let st : Stage := { entry := 0x2000004, cls := cls, pos := 0, weight := 3, passed := 0, rejects := 0, passedNow := 0, rejectsNow := 0 }
  (ts 5 1 Core.reset { tc [(4, x)] with role := role, park := park, origin := 5 }).modCluster 1 (fun k => { k with
    sets := k.sets.set 0 { StageSet.reset with defined := true, stages := [st] }, records := records })

def rec0 : Record := { header := 0, payload := 0, injector := 5, draw := none, queued := none, delivering := true }

theorem witness_StageWords : Plain (wSets 0 [] .plain .none 0x1000) ∧ setCardLength ((wSets 0 [] .plain .none 0x1000).peek (spadCell 5 0x1000) 8) = 1
    ∧ (∃ t, (wSets 0 [] .plain .none 0x1000).readOwn w0.who 0x1000 8 = (t, none)) ∧ (∀ srcs dests, (wSets 0 [(3, rec0)] (.stage 3 0 false) .none 0).Clear srcs dests)
    ∧ (wSets 0 [(3, rec0)] (.stage 3 0 false) .none 0).NoHints ∧ ((wSets 0 [(3, rec0)] (.stage 3 0 false) .none 0).ctx w0.who).role = .stage 3 0 false
    ∧ (((wSets 0 [(3, rec0)] (.stage 3 0 false) .none 0).cluster 1).sets.get (headerSet 0)).stages[headerCur 0]?.isSome = true
    ∧ Plain (wSets 0 [] .plain .none 0) ∧ (((wSets 0 [] .plain .none 0).cluster 1).sets.get 0).defined = true ∧ (((wSets 0 [] .plain .none 0).cluster 1).sets.get 1).defined = false
    ∧ ((wSets 0 [(3, rec0)] .plain (.srDrain 0 4 false) 0).ctx w0.who).park = .srDrain 0 4 false ∧ (0 : Word).toNat / 2 ^ 48 % 2 ^ 14 = 0
    ∧ ∀ m < 256, kget m ((List.range 256).map (fun n => (n, rec0))) ≠ none :=
  ⟨plain (by decide), by decide, ⟨_, rfl⟩, clear (by decide), rfl, by decide, by decide, plain (by decide), by decide, by decide, by decide, by decide,
    fun _ h => by simp [kget_all _ h]⟩

/-- A boarding of launch 0 by core 5 in entry 3. -/
def bd (state : Nat) (live : Bool) : Boarding :=
  { gen := 2, live := live, lid := 0, core := 5, layer := 1, chunk0 := 0, nch := 2, tiles := 0x1000, lap := 4, misses := 0, reason := 0, state := state, landed := []
    bad := [], missedNow := false }

/-- Core 5 whose launch owns the ferry, with layer 1 in its timetable, lap 4, and entry 3 of the pier as given. -/
def wFerry (mine : Bool) (shut : Nat) (b : KMap Boarding) (park : Park) (x : Word) : State :=
  let l : Layer := { n := 1, pier := 0, ret := false, pl8 := false, planes := 8, chunks := 4, source := 0x2000000, start := 100 }
  { (ts 5 1 Core.reset { tc [(4, x)] with park := park }).modDie 0 (fun d => { d with boardings := b }) with
    ferry := { Ferry.reset with running := mine, layers := [l], lap := 4, shut := shut } }

def br0 : BoardReq := { who := w0.who, dest := 4, lid := 0, next := false, lap := 4, layer := 1, chunk0 := 0, nch := 2, tiles := 0x1000 }

theorem witness_FerryWords : Plain (wFerry true 0 [] .none 0x1000) ∧ (∃ t, (wFerry true 0 [] .none 0x1000).readOwn w0.who 0x1000 32 = (t, none))
    ∧ Plain (wFerry false 0 [] .none 0x1000) ∧ (wFerry true 0 [] .none 0).ferry.owner = ((wFerry true 0 [] .none 0).core 5).lid
    ∧ ((wFerry true 0 [(3, bd 2 true)] .none 0).die 0).boarding 0 (2 * 1024 + 3) = some (bd 2 true) ∧ ((wFerry true 0 [] .none 0).die 0).boarding 0 3 = none
    ∧ Plain (wFerry true 0 [(3, bd 2 true)] .none (2 * 1024 + 3)) ∧ (∀ sh, ((wFerry true sh [] (.pier 4 false) 0).ctx w0.who).park = .pier 4 false)
    ∧ ((wFerry true 0 [] .none 0).ferry.layer 1).isSome = true ∧ (wFerry true 0 [] .none 0).ferry.namedLap 4 = some 4 ∧ (bd 5 false).live = false
    ∧ (∀ l, (wFerry true 0 [] .none 0).ferry.layer 1 = some l → (wFerry true 0 [] .none 0).ferry.open_ l 0 0 4 = true ∧ (wFerry true 5000 [] .none 0).ferry.open_ l 0 0 4 = false)
    ∧ ∀ n < 1024, kget n ((List.range 1024).map (fun n => (n, bd 2 true))) = some (bd 2 true) := by
  refine ⟨plain (by decide), ⟨_, rfl⟩, plain (by decide), by decide, by decide, by decide, plain (by decide), fun _ => rfl, by decide, by decide, by decide, ?_,
    fun _ h => kget_all _ h⟩
  intro l h
  have h' : (wFerry true 0 [] .none 0).ferry.layer 1
    = some { n := 1, pier := 0, ret := false, pl8 := false, planes := 8, chunks := 4, source := 0x2000000, start := 100 } := by decide
  rw [h'] at h
  cases h
  decide

/-- Tree 5 of die 0 at core 5, with 2 chunks of a step. -/
def tr : Tree := { count := 1, root := 5, nchunk := 2, dst := 0x4000, lid := 0, step := 3, chunks := [], last := [], fresh := true }

/-- Core 5 with tree 5, the tile at 0x1000 tracked and valid or not, and x4 and x5 as given. -/
def wRed (track : Bool) (x y : Word) : State :=
  (ts 5 1 { Core.reset with tags := [(8, { track := track, poison := false, consumed := false, valid := false })] } (tc [(4, x), (5, y)])).modDie 0 (fun d => { d with
    trees := [(5, tr)] })

theorem elementsOk {p : State × Except Trap (List Nat)} (h : (match p with | (_, .ok _) => true | _ => false) = true) : ∃ t es, p = (t, .ok es) := by
  split at h
  · exact ⟨_, _, rfl⟩
  · simp at h

theorem witness_ReductionWords : Plain (wRed false 0x1000 0) ∧ (∃ t, (wRed false 0x1000 0).readOwn w0.who 0x1000 32 = (t, none)) ∧ (wRed false 0x1000 0).treeOf 0 5 = some tr
    ∧ (wRed false 0x1000 0).treeOf 0 6 = none ∧ Plain (wRed false 0x8005000000100003 0x1000) ∧ Plain (wRed true 0x8005000000100003 0x1000)
    ∧ 2 ^ 63 ≤ (0x8005000000100003 : Word).toNat ∧ (0x8005000000100003 : Word).toNat / 2 ^ 48 % 2 ^ 15 = 5
    ∧ (0x8005000000100003 : Word).toNat / 2 ^ 20 % 2 ^ 28 < tr.nchunk ∧ (0x8005000000100003 : Word).toNat % 2 ^ 20 = tr.step % 2 ^ 20
    ∧ (∃ t, (wRed false 0x1000 0).readOwn w0.who 0x1000 512 = (t, none)) ∧ (wRed false 0 0).tileReadable 5 0x1000 = true ∧ (wRed true 0 0).tileReadable 5 0x1000 = false
    ∧ groupOf 5 = groupOf tr.root ∧ Plain (wRed false 0x1000 0x2000000000000004) ∧ (0x2000000000000004 : Word).toNat / 2 ^ 61 = 1 ∧ (0x2000000000000004 : Word).toNat / 2 ^ 12 % 2 ^ 49 = 0
    ∧ (∃ t es, (wRed false 0x1000 0x2000000000000004).readElements w0.who 0x1000 .b 4 = (t, .ok es)) ∧ [(0 : Word), 0, 0, 0].length = 4
    ∧ ∀ n < 1024, kget n ((List.range 1024).map (fun n => (n, tr))) ≠ none :=
  ⟨plain (by decide), ⟨_, rfl⟩, by decide, by decide, plain (by decide), plain (by decide), by decide, by decide, by decide, by decide, ⟨_, rfl⟩, by decide, by decide,
    by decide, plain (by decide), by decide, by decide, elementsOk (by decide), by decide, fun _ h => by simp [kget_all _ h]⟩

/-- Core 5 in monitor mode, with x4 a page and x5 a tenant. -/
def wMon (x y : Word) : State := ts 5 1 { Core.reset with mode := .monitor } (tc [(4, x), (5, y)])

theorem witness_StateRegisterWords : Plain w0 ∧ (w0.core 5).mode = .tenant ∧ Plain (wMon 0 0) ∧ ((wMon 0 0).core 5).mode = .monitor :=
  ⟨plain (by decide), by decide, plain (by decide), by decide⟩

/-- A context that returns to the mapped line, or to a line that holds no code. -/
def wRet (pc : Word) : State := mapped (ts 5 1 Core.reset { tc [] with trapPc := pc, intrap := true })

theorem retOk {p : State × Option Trap} (h : p.2.isSome = true) : ∃ t e, p = (t, some e) := by
  obtain ⟨t, e⟩ := p
  match e, h with
  | some e, _ => exact ⟨t, e, rfl⟩

theorem witness_SystemWords : Plain (wRet 0x2000000) ∧ ((wRet 0x2000000).ctx w0.who).outstanding = []
    ∧ (let u := (wRet 0x2000000).modCtx w0.who (fun c => { c with pc := 0x2000004, intrap := false, park := .none, readyAt := 100 + 1 })
       ∃ t, u.checkTarget 5 0x2000004 false = (t, none))
    ∧ (let u := (wRet 0x2000080).modCtx w0.who (fun c => { c with pc := 0x2000084, intrap := false, park := .none, readyAt := 100 + 1 })
       ∃ t e, u.checkTarget 5 0x2000084 false = (t, some e))
    ∧ (ts 5 1 Core.reset { tc [] with outstanding := [ow (.x 7) .load] }).NoHints ∧ Plain (wMon 0x2000000 3) ∧ (wMon 0x2000000 3).Monitor
    ∧ Plain (wMon 0x1000000000000 3) ∧ Plain (wMon 0 0x10000) ∧ (w0.core 5).mode = .tenant ∧ Plain w0 ∧ Plain (ts 8192 1 Core.reset (tc [(4, 8)])) ∧ dieOf 8192 % 2 = 1
    ∧ ((ts 5 1 Core.reset { tc [] with park := .invalidating 3 (some 0x2000) 100 false }).ctx w0.who).park = .invalidating 3 (some 0x2000) w0.cycle false :=
  ⟨plain (by decide), by decide, passes (by decide), retOk (by decide), rfl, plain (by decide), by unfold State.Monitor; decide, plain (by decide), plain (by decide),
    by decide, plain (by decide), plain (by decide), by decide, by decide⟩

/-! ### Events -/

/-- x7 awaits a load. -/
def wOut (park : Park) : State := ts 5 1 Core.reset { tc [] with park := park, outstanding := [ow (.x 7) .load] }

/-- Context 1, alone on its core, watches the word at 0x1000 for eq to y. -/
def wWatch (y : Word) : State := ts 5 1 Core.reset { tc [] with park := .watch 0x1000 (spadCell 5 0x1000) .d false .eq y 4 false }

theorem scalarOk {p : State × Except Cause (Access × Word × Nat)} {P : Word → Bool} (h : (match p with | (_, .ok (_, v, _)) => P v | _ => false) = true) :
    ∃ t a v q, p = (t, .ok (a, v, q)) ∧ P v = true := by
  split at h
  · exact ⟨_, _, _, _, rfl, h⟩
  · simp at h

/-- A request on the lock word at 0x1000, the word, and the requests that wait. -/
def lreq (op : LockOp) (core : Nat) : LockReq :=
  { op := op, noWait := false, addr := spadCell 5 0x1000, va := 0x1000, who := { core := core, ctx := 1 }, dest := 4, counted := true, reply := 2, beyond := false, format := 0 }
def wLocks (word : Nat) (waiting : List LockReq) : State :=
  ({ ts 5 1 Core.reset { tc [] with park := .lock 4 none false false } with mem := Memory.writeBytes [] (spadCell 5 0x1000) (leBytes 8 word) }).modDie 0 (fun d =>
    { d with locks := waiting })

theorem witness_AccessAndLockEvents : (w0.ctx w0.who).live = true ∧ (w0.ctx w0.who).park = .none ∧ ((wOut .marker).ctx w0.who).park = .marker
    ∧ ((wOut .marker).ctx w0.who).outstanding = [ow (.x 7) .load] ∧ (Result.plain (.x 7) 1).beyond = false ∧ w0.issuing (w0.issuer w0.who) = some w0.who ∧ w0.arrivalsClear 5 = true
    ∧ w0.placeOf (w0.issuer w0.who) = some (.slot w0.who) ∧ (w0.ctx w0.who).poisonAcks = [] ∧ (w0.core 5).isPort 4 = false
    ∧ (∀ y, (wWatch y).cores.map (·.1) = [5] ∧ ((wWatch y).core 5).swapped = []) ∧ (∀ n : CtxNo, n ≠ 1 → (((wWatch 0).core 5).ctxs.get n).live = false)
    ∧ (∃ t a v q, (wWatch 0).readScalar w0.who 0x1000 .d false = (t, .ok (a, v, q)) ∧ condHolds .eq v 0 = true)
    ∧ (∃ t a v q, (wWatch 1).readScalar w0.who 0x1000 .d false = (t, .ok (a, v, q)) ∧ (!condHolds .eq v 1) = true) :=
  ⟨by decide, by decide, by decide, by decide, by decide, by decide, by decide, by decide, by decide, by decide, fun _ => ⟨rfl, rfl⟩, by decide, scalarOk (by decide),
    scalarOk (by decide)⟩

theorem witness_AccessAndLockEvents_lock : Memory.wf (wLocks 0 []).mem = true ∧ Memory.wf (wLocks (2 ^ 62) []).mem = true ∧ (wLocks 0 []).peek (lreq .racq 5).addr 8 = 0
    ∧ ((wLocks (2 ^ 62) []).peek (lreq .racq 5).addr 8) / 2 ^ 62 % 2 = 1 ∧ ((wLocks 0 []).ctx (lreq .racq 5).who).park = .lock 4 none false false
    ∧ 16 ≤ (((wLocks (2 ^ 62) ((List.range 16).map (lreq .racq))).die (lreq .racq 5).home).locks.filter (fun q => q.sameRouter (lreq .racq 5))).length
    ∧ ∀ v, (wLocks v [lreq .racq 5]).dies.flatMap (fun d => d.2.locks.filter (fun q => q.addr / 8 = (lreq .racq 5).addr / 8)) = [lreq .racq 5] := by
  refine ⟨by decide, by decide, by decide, by decide, by decide, by decide, fun v => ?_⟩
  show [lreq .racq 5].filter (fun q => q.addr / 8 = (lreq .racq 5).addr / 8) ++ [] = _
  decide

/-- A copy of 128 bytes within core 0's scratchpad, and a matrix operation of one column. -/
def cj : CopyJob := { src := 0x1000, dst := 0x2000, len := 128, terms := 0, arm := false, tagen := true, tag := 3, mask := 0, kind := 0, core := 0 }
def mo : MatrixOp :=
  { abase := 0x1000, bbase := 0x2000, cbase := 0x4000, astride := 64, bstride := 64, cstride := 256, scaleA := 0, scaleB := 0, metaA := 0, terms := 0, arm := false
    tagen := true, tag := 3, drain := false, bt := false, acc := false, outf := 0, epat := 0, bpat := 0, planes := 0, k := 1, handler := 0 }

/-- Cluster 0 with this job in slot 2, waiting or running. -/
def wEngine (job : JobKind) (running : Bool) : State :=
  let m := job.isMatrix
  let j : JobSlot := { JobSlot.reset with gen := 3, used := true, taken := true, job := some job, state := if running then 1 else 0 }
  (ts 0 1 { Core.reset with slice := { Slice.reset with state := 2, rowEnd := some 99 } } (tc [])).modCluster 0 (fun k => { k with
    jobs := k.jobs.set 2 j, running := if running && m then some 2 else none, copying := if running && !m then some 2 else none })

theorem copied {p : State × Nat × Option EngineFault} {P : State → Nat → Bool} (h : (p.2.2.isNone && P p.1 p.2.1) = true) : ∃ t n, p = (t, n, none) ∧ P t n = true := by
  simp only [Bool.and_eq_true, Option.isNone_iff_eq_none] at h
  exact ⟨p.1, p.2.1, Prod.ext rfl (Prod.ext rfl h.1), h.2⟩

theorem rowOk {p : State × Except EngineFault (List (BitVec 32))} {P : State → Bool} (h : (match p with | (t, .ok _) => P t | _ => false) = true) :
    ∃ t vs, p = (t, .ok vs) ∧ P t = true := by
  split at h
  · exact ⟨_, _, rfl, h⟩
  · simp at h

theorem witness_EngineEvents : ((wJob 1 2 0 0xFF).cluster 0).gangArrivals = BitVec.allOnes 8 ∧ (w0.cluster 0).gangArrivals ≠ BitVec.allOnes 8
    ∧ ((wEngine (.copy cj) false).cluster 0).copying = none ∧ (wEngine (.copy cj) false).nextJob 0 false = some (2, .copy cj)
    ∧ ((wEngine (.matrix mo) true).cluster 0).matrixRunning = some (2, mo) ∧ ((wEngine (.copy cj) true).cluster 0).copyRunning = some (2, cj)
    ∧ (∃ t n, (wEngine (.copy cj) true).copyPieces 0 cj 128 3 0 = (t, n, none) ∧ decide (t.cluster 0 = (wEngine (.copy cj) true).cluster 0) = true) :=
  ⟨by decide, by decide, by decide, by decide, by decide, by decide, copied (by decide)⟩

theorem witness_EngineEvents_row : ((wEngine (.matrix mo) true).core 0).slice.rowEnd = some 99 ∧ coreOfCluster 0 0 = 0 ∧ posOf 0 = 0
    ∧ (((wEngine (.matrix mo) true).core 0).slice.buffers.filter (·.held)).length < 2
    ∧ ∃ t vs, (wEngine (.matrix mo) true).computeRow 0 mo 0 = (t, .ok vs) ∧ decide (t.cores = (wEngine (.matrix mo) true).cores) = true :=
  ⟨by decide, by decide, by decide, by decide, rowOk (by decide +kernel)⟩

/-- Core 0 with a row due now, or a request to start. -/
def wSlice (buffers : List DrainRow) (req : Option Nat) : State := ts 0 1 { Core.reset with slice := { Slice.reset with buffers := buffers, startReq := req } } (tc [])
def dr : DrainRow :=
  { row := 1, job := 0x62, addr := 0x1000, outf := 0, vals := List.replicate 64 0, age := 90, held := true, handler := false, due := some 100, paged := false }

theorem witness_EngineEvents_limiter : ((wSlice [dr] none).core 0).slice.dueRow 100 = some dr
    ∧ (∃ t, (wSlice [dr] none).engineWrite 0 0x1000 (rowOut 0 dr.vals) = (t, none))
    ∧ (∀ c ∈ coresOfGroup 0, ((wSlice [] none).core c).slice.startReq = none ∧ ((wSlice [] none).core c).slice.stopReq = none)
    ∧ ((wSlice [] (some 99)).core 0).slice.startReq = some 99 ∧ 0 ∈ coresOfGroup 0
    ∧ ∀ c ∈ coresOfGroup 0, ((wSlice [] (some 99)).core c).slice.stopReq = none ∧ (c ≠ 0 → ((wSlice [] (some 99)).core c).slice.startReq = none) :=
  ⟨by decide, passes (by decide +kernel), by decide, by decide, by decide, by decide⟩

/-- The launch of `tl` with a description that lets tasks be stolen at this level. -/
def td (steal : Nat) (st : LaunchState) : Launch := { tl st with desc := some { descOf (List.replicate 16 0) with steal := steal } }

/-- Core 5, with entry 0x2000004 mapped. -/
def wk (k : Core) : State := { mapped (ts 5 0 k (tc [])) with launches := [(0, td 2 .running)] }

def dq : DequeTask := { entry := 0x2000004, arg0 := 1, arg1 := 2, pushed := 0 }

theorem witness_StartEvents : firstPending (((wk Core.reset).pending 5).filter (fun p => ((wk Core.reset).slotFor 5 p.2).isSome)) = none
    ∧ firstPending (((wk { Core.reset with deque := [dq] }).pending 5).filter (fun p => ((wk { Core.reset with deque := [dq] }).slotFor 5 p.2).isSome)) = some .deque
    ∧ (wk { Core.reset with deque := [dq] }).freeSlot 5 = some 1 ∧ (∃ t, (wk Core.reset).checkTarget 5 0x2000004 true = (t, none))
    ∧ (let k := { Core.reset with tileReady := Core.reset.tileReady.set 3 { TileReady.reset with fired := [(90, 0x2000004, 7)] } }
       firstPending (((wk k).pending 5).filter (fun p => ((wk k).slotFor 5 p.2).isSome)) = some (.tile 3)
        ∧ ((wk k).core 5).tileReady.get 3 = { TileReady.reset with fired := [(90, 0x2000004, 7)] }) := by
  refine ⟨by decide, by decide, by decide, passes (by decide), by decide, by decide⟩

/-- Task 5 of launch 0 waits on die 0. -/
def wWait : State := (wk Core.reset).modDie 0 (fun d => { d with tasks := [(5, { tk 0 with cluster := 1 })] })

theorem witness_StartEvents_task : (wWait.cores.map (·.1)).filter (fun c => dieOf c = dieOf 5) = [5]
    ∧ firstPending ((wWait.pending 5).filter (fun p => (wWait.slotFor 5 p.2).isSome)) = some (.task 5) ∧ wWait.freeSlot 5 = some 1
    ∧ kget 5 (wWait.die (dieOf 5)).tasks = some { tk 0 with cluster := 1 } ∧ (tk 0).crossing = none ∧ (∃ t, wWait.checkTarget 5 0x2000004 true = (t, none))
    ∧ (wWait.cores.map (·.1)).filter (fun c => dieOf c = 3) = [] := ⟨by decide, by decide, by decide, by decide, by decide, passes (by decide), by decide⟩

/-- A swapped-out context that may be resumed, and a victim for a task that starves. -/
def kBack : Core := { Core.reset with swapped := [{ ctx := tc [], slot := 1, resume := some 90, space := { near := 1024, far := [] } }] }
def kOut : Core :=
  { Core.reset with ctxs := Vector.replicate 11 { tc [] with park := .yielding false }, deque := [dq], spillBase := 0x17000 }

theorem witness_StartEvents_swap : firstPending (((wk kBack).pending 5).filter (fun p => ((wk kBack).slotFor 5 p.2).isSome)) = some (.resume 0)
    ∧ (wk kBack).freeSlot 5 = some 1 ∧ ((wk kBack).core 5).swapped[0]?.isSome = true ∧ (tc []).popped = []
    ∧ ((ts 5 0 kOut { tc [] with park := .yielding false }).core 5).mover = .idle ∧ 1024 ≤ (kOut).spillRoom ∧ ((ts 5 0 kOut (tc [])).victim 5).isSome = true
    ∧ ((ts 5 0 kOut (tc [])).takeSpill 5 1024).2.isSome = true ∧ (wk Core.reset).victim 5 = none
    ∧ ((wk { Core.reset with mover := .out 1 100 }).core 5).mover = .out 1 100 ∧ ((wk { Core.reset with mover := .out 1 101 }).core 5).mover = .out 1 101 := by decide

theorem witness_StartEvents_steal : (wk { Core.reset with steal := { Steal.reset with level := 1 } }).launchOf 5 = some (td 2 .running) ∧ (td 2 .running).berth.isSome = true
    ∧ (td 2 .running).desc.isSome = true ∧ (wk Core.reset).pending 5 = [] ∧ ((wk Core.reset).freeSlot 5).isSome = true
    ∧ ({ Steal.reset with level := 1 }.nextVictim 5 { die0 := 0, dies := 2, col := 0, row := 0, w := 8, h := 8 }).isSome = true
    ∧ ((wk { Core.reset with steal := { Steal.reset with level := 3 } }).core 5).steal.level = 3
    ∧ ((wk { Core.reset with steal := { Steal.reset with backoff := some 100 } }).core 5).steal.backoff = some 100
    ∧ ((wk { Core.reset with arrivals := [{ ctx := tc [], source := 6, dest := 4, pending := [], arrived := none }] }).core 5).arrivals.length = 1
    ∧ (∃ t key, (wk Core.reset).resolveFetch 5 (BitVec.ofNat 64 0x2000000) = (t, .ok key)) := ⟨by decide, by decide, by decide, by decide, by decide, by decide, by decide,
      by decide, by decide, ⟨_, _, rfl⟩⟩

/-- A cluster with two candidate stages of set 0, one, or none, and a record that needs a draw. -/
def wDraw (classes : List Nat) : State :=
  let st (c : Nat) : Stage := { entry := 0x2000004, cls := c, pos := 0, weight := 3, passed := 0, rejects := 0, passedNow := 0, rejectsNow := 0 }
  w0.modCluster 1 (fun k => { k with sets := k.sets.set 0 { StageSet.reset with defined := true, stages := classes.map st }, records := [(3, { rec0 with draw := some 90 })] })

/-- Task 5 of launch 0 on die 0, ready to commit. -/
def wCommit : State := w0.modDie 0 (fun d => { d with tasks := [(5, tk 2)] })

/-- A context that takes a sample of tick 9, with a variable whose crossing at tick t is due or not, in a running unit. -/
def wSample (next : Nat) : State :=
  let s := wCx true [(0, { cv 7 [] with next := next, due := some 90 })] (some (8, 0)) 0 0
  s.modCtx w0.who (fun c => { c with park := .cxSample 9 0x1000 4 none false })

theorem witness_UnitEvents : (wCommit.die 0).tasks = [(5, tk 2)] ∧ ((wCommit.die 0).commitsOf 0).busy = none ∧ ((wCommit.die 0).commitsOf 0).from_ ≤ 100 ∧ (tk 2).lid = 5 / 512
    ∧ ((wDraw [0, 0]).cluster 1).nextDraw 100 = some (3, { rec0 with draw := some 90 }) ∧ (((wDraw [0, 0]).cluster 1).sets.get 0).candidates 0 = [(0, 3), (1, 3)]
    ∧ (((wDraw [0]).cluster 1).sets.get 0).candidates 0 = [(0, 3)] ∧ (((wDraw [2]).cluster 1).sets.get 0).candidates 0 = []
    ∧ ((wSample noCrossing).ctx w0.who).park = .cxSample 9 0x1000 4 none false ∧ (wSample noCrossing).sampleReady 5 9 = true ∧ (wSample 9).sampleReady 5 9 = false
    ∧ kget 0 ((wSample 9).cluster 1).vars = some { cv 7 [] with next := 9, due := some 90 } ∧ ((wSample 9).cluster 1).cxRunning = true
    ∧ ((wSample 9).die 0).freeTask 0 = some 0 ∧ (((wSample 9).die 0).commitsOf 0).last = some (8, 0) ∧ coreOfCluster 1 0 = 4 ∧ ((wSample 9).core 4).lid = 0 := by decide +kernel

/-- A ring with one message, a tile-ready entry that is armed on tile 8, and port 2 of core 6 that sends to port 0 of core 5 and lacks a credit. -/
def wUnits (valid : Bool) : State :=
  let k := { Core.reset with
    rings := Core.reset.rings.set 1 { Ring.reset with base := 0x2000, size := 64, head := 16, used := 16 }
    tileReady := Core.reset.tileReady.set 3 { TileReady.reset with dw0 := 0x8000000002000004, dw2 := 0x100000008 }
    tags := [(8, { track := true, poison := false, consumed := false, valid := valid })], spillBase := 0x17000
    ports := Core.reset.ports.set 0 { Port.reset with bound := true, paired := true, peerCore := 6, peerPort := 2 } }
  (({ ts 5 1 k (tc []) with mem := Memory.writeBytes [] (spadCell 5 0x2000) (leBytes 8 8) }).setCore 6 { Core.reset with ports := Core.reset.ports.set 2 { Port.reset with
    bound := true, paired := true, peerCore := 5, peerPort := 0 } }).modGroup 0 (fun g => { g with blocked := [(6, 2)] })

theorem witness_UnitEvents_core : ((wUnits true).core 5).fires (((wUnits true).core 5).tileReady.get 3) = true
    ∧ ((wUnits false).core 5).fires (((wUnits false).core 5).tileReady.get 3) = false ∧ ((wUnits true).core 5).armOk 0 = false
    ∧ (((wUnits true).core 5).rings.get 0).size = 0 ∧ (((wUnits true).core 5).rings.get 1).size ≠ 0 ∧ 0 < (((wUnits true).core 5).rings.get 1).used
    ∧ (wUnits true).ringEntry 5 (((wUnits true).core 5).rings.get 1) = (16, false) ∧ w0.lackingFifos 0 = [] ∧ (wUnits true).lackingFifos 0 = [((8, 5, 0), (6, 2))]
    ∧ 8 + 8 ≤ 1024 ∧ 64 ≤ ((wUnits true).core 5).spillRoom ∧ ((wUnits true).takeSpill 5 64).2.isSome = true ∧ (3 : Word).toNat < 16 ∧ 16 ≤ (16 : Word).toNat := by decide

/-- A good contribution of 1 to chunk 1 of tree 5, and one whose manifest fails. -/
def con (bad : Nat) : Contribution :=
  contributionOf 0 5 1 3 (List.replicate 512 0) |> fun c => { c with manifest := c.manifest + bad }

/-- Tree 5 with this chunk 1. -/
def wTree (count nchunk : Nat) (k : Option TreeChunk) : State :=
  (ts 5 1 Core.reset (tc [])).modDie 0 (fun d => { d with trees := [(5, { tr with count := count, nchunk := nchunk, chunks := (k.map (fun k => (1, k))).toList })] })

theorem witness_RingAndTreeEvents : (kget 5 ((wTree 2 2 none).die 0).trees).isSome = true ∧ (con 0).die = 0 ∧ (con 0).slot = 5 ∧ (con 0).chunk = 1 ∧ (con 0).step = 3
    ∧ ((wTree 2 2 none).die 0).accumulators 5 < 64 ∧ (∃ a, (some { TreeChunk.start with acc := some (con 0), merged := 1 }) = some a ∧ a.acc = some (con 0)) ∧ (con 0).count ≠ 2
    ∧ (con 0).good = true ∧ ((con 0).merge (con 0)).good = true ∧ (con 1).good = false
    ∧ (wTree 1 1 (some { TreeChunk.start with acc := some (con 0), merged := 1 })).tagReady [] (spansOf 5 0x4200 512) = true
    ∧ (∃ t, (wTree 1 1 (some { TreeChunk.start with acc := some (con 0), merged := 1 })).engineWrite 5 0x4200 (contributionResult (con 0)) = (t, none))
    ∧ 9 ≠ 3 % 2 ^ 20 ∧ (9 + 1) % 2 ^ 20 ≠ 3 % 2 ^ 20 := by
  refine ⟨by decide +kernel, by decide +kernel, by decide +kernel, by decide +kernel, by decide +kernel, by decide +kernel, ⟨_, rfl, rfl⟩, by decide +kernel, by decide +kernel, by decide +kernel, by decide +kernel, by decide +kernel,
    passes (by decide +kernel), by decide +kernel, by decide +kernel⟩

/-- A chunk of layer 1 for two tiles of core 5, and its dock entry on die 0. -/
def dc : DeckChunk :=
  { layer := 1, chunk := 0, lap := 4, manifest := 0, bad := false, torn := false, pl8 := false, planes := 8, ret := false, srcPier := 0, scales := 0, cargo := List.replicate 4096 0 }
def wDock (busy : Option Nat) : State :=
  w0.modDie 0 (fun d => { d with dock := [{ chunk := dc, dests := [{ ident := 2051, core := 5, tile := 8, next := 0 }], busy := busy }] })

theorem witness_FerryEvents : (w0.die 0).dock = [] ∧ ((wDock none).die 0).dock.map (·.busy) = [none] ∧ (wDock none).tileFree 5 8 false = true
    ∧ ((wDock (some 100)).die 0).dock.map (·.busy) = [some 100] ∧ w0.ferry.leaving = false ∧ { Ferry.reset with leaving := true }.leaving = true
    ∧ w0.ferry.incoming = none ∧ w0.ferry.running = false ∧ w0.ferry.speedWrite = none := by decide

/-- A description of H × W on so many dies, at 0x2001000 of tenant 0. -/
def dsc (h w dies : Nat) : List Word := [0x2000004, 0, BitVec.ofNat 64 (dies + w * 2 ^ 6 + h * 2 ^ 14), 1] ++ List.replicate 12 0
def wl (l : Launch) (h w dies : Nat) (die0 : Die → Die) : State :=
  let s := mapped (ts 5 1 Core.reset (tc []))
  ({ s with mem := Memory.writeBytes s.mem 0x1000 ((dsc h w dies).flatMap (fun (d : Word) => leBytes 8 d.toNat)), launches := [(0, l)] }).modDie 0 die0
def tp (addr : Word) : Launch := { tl .pending with descAddr := addr, berth := none }

theorem bytesOk {p : State × Except EngineFault (List Byte)} {P : State → List Byte → Bool} (h : (match p with | (t, .ok bs) => P t bs | _ => false) = true) :
    ∃ t bs, p = (t, .ok bs) ∧ P t bs = true := by
  split at h
  · exact ⟨_, _, rfl, h⟩
  · simp at h

/-- The description is read, with no handler table and no load list; whether its reserved bits are zero, its fields in range, a berth exists. -/
def accepts (h w dies : Nat) (die0 : Die → Die) (reserved ok berth : Bool) : Bool :=
  match (wl (tp 0x2001000) h w dies die0).controllerRead 0 0x2001000 128 with
  | (t, .ok bs) =>
    let d := descOf (dwords bs 16)
    descReserved (dwords bs 16) == reserved && d.ok == ok && d.htab == 0 && d.tables == 0
      && (!ok || (searchBerth 0 d.w d.h d.dies (fun b => if t.serves b then some b else none)).isSome == berth)
  | _ => false

theorem witness_LaunchEvents : accepts 2 4 1 (fun d => { d with ready := true }) true true true = true ∧ accepts 0 4 1 id true false false = true
    ∧ accepts 64 128 32 (fun d => { d with outOfService := true }) true true false = true ∧ (tp 0x2001000).desc = none ∧ (tp 0x2001000).own = false
    ∧ (match (wl (tp 0x3000000) 2 4 1 id).controllerRead 0 0x3000000 128 with | (_, .error _) => true | _ => false) = true := by decide +kernel

/-- A running launch, and one that is pre-empted, on a berth of 8 × 8 of two dies. -/
def tb (st : LaunchState) : Launch := { tl st with haltAt := 90 }
def tq : Berth := { die0 := 0, dies := 2, col := 0, row := 0, w := 8, h := 8 }

theorem witness_LaunchEvents_berth : (tb .running).berth = some tq ∧ (wl (tb .running) 2 4 1 id).launch 0 = some (tb .running)
    ∧ (wl (tb .running) 2 4 1 id).over (tb .running) tq = false ∧ ({ State.reset with launches := [(0, tb .running)] }).over (tb .running) tq = true
    ∧ ({ State.reset with cycle := 100, launches := [(0, tb .preempting)] }).settled (tb .preempting) tq = true
    ∧ ({ State.reset with cycle := 100, launches := [(0, tb .preempting)] }).committing (tb .preempting) tq = false
    ∧ ({ ts 5 1 Core.reset { tc [] with unacked := 1 } with launches := [(0, tb .preempting)] }).settled (tb .preempting) tq = false
    ∧ (State.reset.die 0).saveBase = 0 ∧ (State.reset.die 0).ready = false ∧ State.reset.head 0 = none := by decide +kernel

/-- Launch 0 heads die 0, whose other launch holds the whole module or nothing. -/
def wHead (all : Bool) : State :=
  let d := descOf (((if all then dsc 64 128 32 else dsc 2 4 1)).map (·.toNat))
  let other : Launch := { tl .running with lid := 1 }
  { State.reset with launches := [(0, { tp 0 with desc := some d }), (1, other)] }.modDie 0 (fun x => { x with store := [0], preemptFrom := 1, ready := true, ltenant := 7 })

theorem witness_LaunchEvents_head : ((wHead true).head 0).map (·.lid) = some 0 ∧ ((wHead false).head 0).map (·.lid) = some 0 ∧ (wHead true).cycle < ((wHead true).die 0).preemptFrom
    ∧ (((wHead false).head 0).bind (·.desc)).any (fun d => ((wHead false).findBerth 0 d).isSome) = true
    ∧ (((wHead true).head 0).bind (·.desc)).any (fun d => ((wHead true).findBerth 0 d).isNone) = true
    ∧ ((wHead true).die 0).ready = true ∧ ((wHead true).die 0).ltenant.toNat % 2 ^ 16 ≠ 0 ∧ ((wHead true).die 0).store.length < 128 ∧ ((wHead true).die 0).reentries = []
    ∧ ((wHead true).die 0).storeSlot = some 1 ∧ 128 ≤ (List.range 128).length ∧ (State.reset.die 0).ltenant.toNat % 2 ^ 16 = 0 ∧ (wHead true).images = []
    ∧ (tl .running).state = .running ∧ (State.reset.die 0).cqTail - (State.reset.die 0).cqHead = (State.reset.die 0).cqSize := by decide +kernel

/-- Launch 0 is being loaded: afresh, or from an image. -/
def wLoad (saved : Bool) : State :=
  let b : Berth := { die0 := 0, dies := 1, col := 0, row := 0, w := 1, h := 1 }
  let l : Launch := { tl .loading with berth := some b, desc := some (descOf ((dsc 1 1 1).map (·.toNat))), saved := saved }
  { ts 5 1 Core.reset (tc []) with launches := [(0, l)], images := [{ SaveImage.blank 0 b with cores := [(0, Core.reset)] }] }

def wSaved : State :=
  { wHead false with launches := (wHead false).launches.map (fun e => (e.1, { e.2 with saved := true })) }

theorem witness_LaunchEvents_saved : (wSaved.head 0).any (fun l => l.saved && decide (l.lid = 0)) = true ∧ wSaved.image 0 = none
    ∧ (wSaved.head 0).any (fun l => l.desc.any (fun d => (wSaved.findBerth 0 d).isSome)) = true := by decide +kernel

theorem witness_LaunchEvents_load : ∀ saved, ((wLoad saved).launch 0).any (fun l =>
      decide (l.state = .loading) && l.berth.isSome && l.issueAt.isNone && l.timetable.isNone && (l.saved == saved) && decide (l.lid = 0)
        && ((wLoad saved).filesOf l).isEmpty && l.desc.any (fun d => d.tables == 0 && d.htab == 0)) = true
    ∧ ((wLoad saved).image 0).any (fun i => (wLoad saved).imageStands i && i.timetable.isNone && decide (i.cores.map (·.1) = [0])) = true := by decide

theorem witness_LaunchEvents_room : ({ die0 := 0, dies := 1, col := 0, row := 0, w := 4, h := 2 : Berth }).meets { die0 := 0, dies := 1, col := 0, row := 0, w := 8, h := 8 } = true := by
  decide

/-- The records of an image of launch 5 of tenant 7, of one core, that hold nothing of it. -/
def imgAreas : List (Nat × List Byte) :=
  [(64, (descOf ((dsc 1 1 1).map (·.toNat))).bytes), (192, le8 [5, 0, 9, 7]), (224, leBytes 2 1 ++ leBytes 2 1 ++ leBytes 2 1)]
def imgRecords : List WrittenRecord := [(4, 0, 256, imgAreas), (3, 0, 64, []), (2, 0, 64, []), (1, 0, 64, [])]

/-- The image lies at 0x100000 of a module whose die 0 is ready. -/
def wImage : State := { (State.reset.modDie 0 (fun d => { d with ready := true })) with mem := Memory.writeBytes [] 0x100000 (imgRecords.flatMap WrittenRecord.bytes) }

def imgHead : ImageHead := { lid := 5, tenant := 7, fields := (dsc 1 1 1).map (·.toNat), spent := 9 }

theorem imgBody : recordBody 256 imgAreas = (dsc 1 1 1).flatMap (fun (d : Word) => leBytes 8 d.toNat) ++ le8 [5, 0, 9, 7] ++ leBytes 2 1 ++ leBytes 2 1 ++ leBytes 2 1 ++ leBytes 26 0 := by
  decide +kernel

theorem img_read (off n : Nat) (h : off + n ≤ 192) (hn : fileNat (recordBody 256 imgAreas) off n = k) (rest : List Byte) :
    fileNat (recordBytes 4 0 256 imgAreas ++ rest) (64 + off) n = k := by
  have hl : (recordBody 256 imgAreas).length = 192 := by decide +kernel
  rw [recordBytes, List.append_assoc, List.append_assoc, fileNat_behind _ _ _ _ (length_recordHeader ..), fileNat, List.drop_append_of_le_length (by omega), List.take_append_of_le_length (by simp; omega)]
  exact hn

theorem wImage_mem : wImage.mem = Memory.writeBytes [] 0x100000 (imgRecords.flatMap WrittenRecord.bytes) := by simp only [wImage]

theorem wImage_bytes : wImage.imageBytes 0x100000 = imgRecords.flatMap WrittenRecord.bytes := by
  have hl : (recordBody 256 imgAreas).length = 192 := by decide +kernel
  refine State.imageBytes_records 0x100000 Memory.wf_nil imgRecords ?_ wImage_mem ?_
  · intro r hr
    simp only [imgRecords, List.mem_cons, List.not_mem_nil, or_false] at hr
    obtain rfl | rfl | rfl | rfl := hr <;> simp only [hl] <;> decide
  · have p (off : Nat) (h : off + 2 ≤ 192) (hn : fileNat (recordBody 256 imgAreas) off 2 = 1) : wImage.peek (0x100000 + (64 + off)) 2 = 1 := by
      have hb : imgRecords.flatMap WrittenRecord.bytes = recordBytes 4 0 256 imgAreas ++ (imgRecords.drop 1).flatMap WrittenRecord.bytes := rfl
      rw [State.peek, wImage_mem,
        Memory.readBytes_writeBytes_part _ _ _ _ (by rw [hb, List.length_append, length_recordBytes, hl]; simp [recordSize]; omega) Memory.wf_nil, hb]
      exact img_read off 2 h hn _
    rw [p 160 (by omega) (by decide +kernel), p 162 (by omega) (by decide +kernel), p 164 (by omega) (by decide +kernel)]
    rfl

theorem takeRecord_empty (kind : Nat) (rest : List Byte) : ∃ r, takeRecord kind 0 (recordBytes kind 0 64 [] ++ rest) = some (r, rest) :=
  ⟨_, takeRecord_recordBytes kind 0 64 [] rest (by decide)⟩

theorem witness_LaunchEvents_image : ∃ i, imageOf wImage.overflowBytes (wImage.imageBytes (imageCell 0x100000)) = some (imgHead, i) := by
  have hl : (recordBody 256 imgAreas).length = 192 := by decide +kernel
  rw [show imageCell 0x100000 = 0x100000 from by decide, wImage_bytes]
  have hb : imgRecords.flatMap WrittenRecord.bytes = recordBytes 4 0 256 imgAreas ++ (recordBytes 3 0 64 [] ++ (recordBytes 2 0 64 [] ++ (recordBytes 1 0 64 [] ++ []))) := rfl
  have hh : imageHead (imgRecords.flatMap WrittenRecord.bytes) = some (imgHead, recordBytes 3 0 64 [] ++ (recordBytes 2 0 64 [] ++ (recordBytes 1 0 64 [] ++ []))) := by
    rw [hb, imageHead, takeRecord_recordBytes 4 0 256 imgAreas _ (by rw [hl]; decide)]
    simp only [Option.map_some]
    rw [show (192 : Nat) = 64 + 128 from rfl, show (216 : Nat) = 64 + 152 from rfl, show (208 : Nat) = 64 + 144 from rfl,
      fileNat_behind _ _ _ _ (length_recordHeader ..), fileNat_behind _ _ _ _ (length_recordHeader ..), fileNat_behind _ _ _ _ (length_recordHeader ..),
      List.drop_left' (length_recordHeader ..)]
    have : ({ lid := fileNat (recordBody 256 imgAreas) 128 8 % 2 ^ 21, tenant := fileNat (recordBody 256 imgAreas) 152 8, fields := dwords (recordBody 256 imgAreas) 16, spent := fileNat (recordBody 256 imgAreas) 144 8 } : ImageHead) = imgHead := by decide +kernel
    rw [this]
  obtain ⟨r3, h3⟩ := takeRecord_empty 3 (recordBytes 2 0 64 [] ++ (recordBytes 1 0 64 [] ++ []))
  obtain ⟨r2, h2⟩ := takeRecord_empty 2 (recordBytes 1 0 64 [] ++ [])
  obtain ⟨r1, h1⟩ := takeRecord_empty 1 []
  have hd : imgHead.berth.dies = 1 ∧ imgHead.berth.clusters.length = 1 ∧ imgHead.berth.cores.length = 1 := by decide +kernel
  rw [imageOf, hh]
  simp only [hd.1, hd.2.1, hd.2.2, takeRecords, h3, h2, h1, Option.map_some]
  exact ⟨_, rfl⟩
theorem witness_LaunchEvents_restore : wImage.launch imgHead.lid = none ∧ (wImage.die 0).ready = true ∧ (descOf imgHead.fields).tables = 0 ∧ descReserved imgHead.fields = true
    ∧ (descOf imgHead.fields).ok = true ∧ (wImage.die 0).store.length < 128 ∧ (wImage.die 0).reentries = []
    ∧ (searchBerth 0 1 1 1 (fun b => if wImage.serves b then some b else none)).isSome = true
    ∧ (let s := State.reset.modDie 0 (fun d => { d with ready := true }); imageOf s.overflowBytes (s.imageBytes (imageCell 0x100000)) = none) :=
  ⟨rfl, rfl, by decide, by decide, by decide, by decide, by decide, by decide +kernel, by decide +kernel⟩

/-- Tables of tenant 0 that map the page 0x2000000 to frame 0x300000. -/
def wPages : State :=
  let tables : List (Nat × Nat) := [(0x100000, 0x200001), (0x200000, 0x201001), (0x201000, 0x202001), (0x202080, 0x203001), (0x203000, 0x300003)]
  { w0.modDie 0 (fun d => { d with ttBase := 0x100000, ttCount := 1 }) with
    mem := tables.foldl (fun m e => Memory.writeBytes m e.1 (leBytes 8 e.2)) [] }

theorem witness_HostRegisterEvents : homeDie 0x2000000 = 0 ∧ homeDie 0x2000000 ≠ 1
    ∧ (w0.modCluster 1 (fun k => { k with paged := [(0, 0x2000, .copy)] })).stalledOn 0 0x2000 = [(0, 1, .copy)] ∧ (State.reset.die 0).ready = false ∧ (State.reset.die 0).failStep = 0
    ∧ (State.reset.die 0).requests = [] ∧ (0 : Word) - 0 < 1
    ∧ (match wPages.walk 0x2000000 ((wPages.tenantWord 0 0 0) / 2 ^ 12 % 2 ^ 28 * 4096) 4 with
      | some l => leafOk 0 l && !l.big && decide (l.raw % 2 = 1) && decide (l.raw / 2 ^ 51 % 4 < 2) && decide (l.raw / 2 ^ 12 % 2 ^ 28 * 4096 = 0x300000)
        && decide (l.addr + 8 ≤ 0x400000)
      | none => false) = true
    ∧ isDram 0x300000 = true ∧ isDram 0x400000 = true ∧ Memory.wf wPages.mem = true ∧ 0x400000 % 4096 = 0 := by decide +kernel

theorem keyOk {p : State × Except Cause (Nat × LookEntry)} (h : (match p with | (_, .ok _) => true | _ => false) = true) : ∃ t key e, p = (t, .ok (key, e)) := by
  split at h
  · exact ⟨_, _, _, rfl⟩
  · simp at h

theorem witness_HostTransferEvents : (∃ t key e, (mapped w0).translate 0 .write 0x2000000 = (t, .ok (key, e))) ∧ 0x2000000 % 4096 + [(1 : Byte)].length ≤ 4096
    ∧ (∃ t e, w0.translate 0 .write 0x1000 = (t, .error e)) ∧ (∃ t bs, (mapped w0).ferryRead 0 0x2000000 2 4 = (t, .ok bs) ∧ decide (bs.length = 4) = true)
    ∧ isDram 0x1000 = true ∧ isDram 0x900000000 = false ∧ Memory.wf w0.mem = true ∧ { Spdm.reset with version := true }.version = true ∧ Spdm.reset.version = false
    ∧ { Spdm.reset with capabilities := true }.capabilities = true ∧ 2 ^ 9 / 2 ^ 9 % 2 = 1 ∧ 2 ^ 6 / 2 ^ 6 % 2 = 1 :=
  ⟨keyOk (by decide), by decide, ⟨_, _, rfl⟩, bytesOk (by decide), by decide, by decide, by decide, by decide, by decide, by decide, by decide, by decide⟩

/-- An upper core, quiet for 16 cycles, down or halted as given. -/
def wQuiet (down halted : Bool) : State := ts 8192 1 { Core.reset with quiet := 16, down := down, halted := halted } (tc [])

theorem witness_FaultAndPowerEvents : (wHead true).failedLinks.contains 3 = false ∧ ({ State.reset with failedLinks := [3] }).failedLinks.contains 3 = true
    ∧ (w3 1 0).launch ((w3 1 0).core 5).lid = some (tl .running) ∧ (tl .running).lid = ((w3 1 0).core 5).lid ∧ (tl .running).berth = some tq ∧ (tl .running).cancel = false
    ∧ ({ Die.reset with failing := [3], retired := [7] }).failing = [3] ∧ (3 ∉ (State.reset.die 0).failing) ∧ (w0.launches.any (fun _ => true)) = false
    ∧ dieOf 8192 % 2 = 1 ∧ 16 ≤ ((wQuiet false false).core 8192).quiet ∧ (wQuiet false false).wakes 8192 = false ∧ (wQuiet false true).wakes 8192 = true
    ∧ ((wQuiet true false).core 8192).down = true ∧ ((wQuiet true false).core 8192).waking = none ∧ w0.agenda = [] ∧ Memory.wf w0.mem = true := by decide

/-! ### The step, the encoding, the invariant -/

/-- Core 5 stands at a word of a held line: `alu.cmp` of 04 R83. -/
def wStep : State :=
  { ts 5 1 { Core.reset with lines := [(0x2000080, (0x80, [3, 0x02952D26]))] } (tc []) with
    mem := Memory.writeBytes [] 0x80 (leBytes 4 3 ++ leBytes 4 0x02952D26) }

theorem witness_StepRunsDecodedInstruction : wStep.nextCandidate = some (56, wStep.who) ∧ (wStep.ctx wStep.who).poisonAcks = [] ∧ (wStep.core 5).follows wStep.who = false
    ∧ wStep.begun = true ∧ wStep.agenda = [] ∧ kget (0x2000084 / 128 * 128) (wStep.core 5).lines = some (0x80, [3, 0x02952D26])
    ∧ ([3, 0x02952D26].getD 0 0 : BitVec 32).getLsbD 0 = true ∧ wStep.peek (0x80 + 4 * (0x2000084 % 128 / 4)) 4 = (([3, 0x02952D26] : List (BitVec 32)).getD 1 0).toNat
    ∧ decode 0x02952D26 = .ok (.aluCmp false .ltu 9 10 11) ∧ WellFormed (.wake 5) = true := by decide

theorem witness_EncodedInstructionDecodes : WellFormed (.aluCmp false .ltu 9 10 11) = true ∧ encode (.aluCmp false .ltu 9 10 11) = some 0x02952D26 := by decide

theorem witness_DecodedInstructionEncodes : decode 0x02952D26 = .ok (.aluCmp false .ltu 9 10 11) := by decide

theorem witness_StepKeepsInvariant : wStep.MemOk ∧ wStep.CoresOk ∧ ∃ t, step wStep = .next t :=
  ⟨by unfold State.MemOk; decide, by unfold State.CoresOk; decide, _, rfl⟩

/-! ### Witnesses of single clauses -/

/-- The header of the line of a target, as core 5 fetches it. -/
def headerAt (s : State) (target : Word) (P : State → Nat → BitVec 32 → Bool) : Bool :=
  match s.resolveFetch 5 target with
  | (t, .ok key) => let r := t.codeWord 5 (target.toNat / 128 * 128) key 0; P r.1 key r.2
  | _ => false

theorem witness_TargetChecksInOrder_header :
    headerAt wJump 0x2000004 (fun u key h => !u.poisoned (key / 128 * 128) 4 && h.getLsbD 0 && h.getLsbD 1 && decide ((0x2000004 : Word).toNat % 128 / 4 = 1)) = true
    ∧ headerAt wJump 0x2000000 (fun u key h => !u.poisoned (key / 128 * 128) 4 && h.getLsbD 0) = true
    ∧ headerAt wJump 0x2000080 (fun u key h => !u.poisoned (key / 128 * 128) 4 && !h.getLsbD 0) = true
    ∧ headerAt { wJump with mem := Memory.writeBytes wJump.mem 0 [1, 0, 0, 0] } 0x2000004 (fun u key h => !u.poisoned (key / 128 * 128) 4 && h.getLsbD 0 && !h.getLsbD 1) = true
    ∧ headerAt { wJump with poison := [(0, 64)] } 0x2000004 (fun u key _ => u.poisoned (key / 128 * 128) 4) = true
    ∧ kget 0x2000000 (wJump.core 5).lines = none ∧ wJump.overwritten = [] := by decide

/-- A load of the word at 0x1000 with hint data. -/
def wWaitLd (mod reg : Option (BitVec 23)) : State :=
  ts 5 1 Core.reset { tc [(3, 0x1000), (4, 7)] with hints := { Hints.none with mod := mod, reg := reg, first := 0x2000080 } }

theorem witness_LoadResult_wait : (∀ m r srcs dests, (wWaitLd m r).Clear srcs dests) ∧ (∀ m r, ((wWaitLd m r).ctx w0.who).hints.mod = m ∧ ((wWaitLd m r).ctx w0.who).hints.reg = r)
    ∧ (wWaitLd none none).NoTask ∧ (∃ t a, (wWaitLd (some 0x400000) (some 4)).Reaches .read 0x1000 8 t a ∧ (decide (t.loadPoison a 8 = none)
      && condHolds .eq (BitVec.ofNat 64 (leValue (Memory.readBytes t.mem a.key 8))) 0 && !condHolds .eq (BitVec.ofNat 64 (leValue (Memory.readBytes t.mem a.key 8))) 7) = true)
    ∧ condOf (0x400000 - 2 ^ 22) = some .eq ∧ condOf (0x40000B - 2 ^ 22) = some .none ∧ 2 ^ 22 + 12 ≤ (0x40000C : BitVec 23).toNat
    ∧ 0 < (1 : BitVec 23).toNat ∧ 2 ^ 22 + 2 ^ 4 ≤ (0x400010 : BitVec 23).toNat ∧ 32 ≤ (0x20 : BitVec 23).toNat ∧ ((some 0 : Option (BitVec 23)).getD 0).toNat = 0 :=
  ⟨fun _ _ => clear rfl, fun _ _ => ⟨rfl, rfl⟩, fun _ => by show Role.plain ≠ _; simp, reaches (by decide), by decide, by decide, by decide, by decide, by decide, by decide, by decide⟩

theorem witness_AtomicPerformedAtHome_bundle : { wReq .add none with more := [5] }.more ≠ [] ∧ (wReq .add none).dest = none ∧ (wReq .add none).more = []
    ∧ w0.poisoned (wReq .fadd none).addr 4 = false ∧ (0x3F800000 : Nat) / 2 ^ 23 % 256 < 255 ∧ { wReq .fadd none with operand := 0x3F800000 }.sz = .w
    ∧ { wReq .add none with format := 10, addr := 0x1000 }.addr < 2 ^ 50 ∧ w0.poisoned 0x1000 4 = false := by decide

theorem witness_QueuePortsBindAndUnbind_bound : (wPorts { Port.reset with bound := true }).inBerth 5 6 = true ∧ ((wPorts { Port.reset with bound := true }).core 5).ports.get 0
    = { Port.reset with bound := true } := by decide

/-- A send, or the reading of one, whose buffer is poisoned, or whose tile bears POISON. -/
def wBad (s : State) (tile : Bool) : State :=
  if tile then s.modCore 5 (fun k => { k with tags := [(8, { track := false, poison := true, consumed := false, valid := false })] })
  else { s with poison := [(spadCell 5 0x1008, 8)] }

theorem failsWith {p : State × Option Trap} {P : Trap → Bool} (h : (p.2.any P) = true) : ∃ t e, p = (t, some e) ∧ P e = true := by
  obtain ⟨t, e⟩ := p
  match e, h with
  | some e, h => exact ⟨t, e, rfl, h⟩

theorem witness_MessageSendParksForItsReads_fails : Plain (wBad (wSend 0x1000 16) false) ∧ Plain (wBad (wSend 0x1000 16) true)
    ∧ (∃ t e, (wBad (wSend 0x1000 16) false).readOwn w0.who 0x1000 16 = (t, some e) ∧ decide (e.cause = .poison) = true)
    ∧ (∃ t e, (wBad (wSend 0x1000 16) true).readOwn w0.who 0x1000 16 = (t, some e) ∧ decide (e.cause = .manifest) = true)
    ∧ (∃ t, (wSending 40).readOwn w0.who 0x1000 32 = (t, none))
    ∧ (∃ t e, (wBad (wSending 40) false).readOwn w0.who 0x1000 32 = (t, some e) ∧ decide (e.cause = .poison) = true)
    ∧ (∃ t e, (wBad (wSending 40) true).readOwn w0.who 0x1000 32 = (t, some e) ∧ decide (e.cause ≠ .poison) = true)
    ∧ ((wBad (wSending 40) false).ctx w0.who).park = ((wSending 40).ctx w0.who).park :=
  ⟨plain (by decide), plain (by decide), failsWith (by decide), failsWith (by decide), ⟨_, rfl⟩, failsWith (by decide), failsWith (by decide), rfl⟩

/-- A registered context of a core whose rectangle is empty. -/
def wOutside : State := ts 5 1 { Core.reset with bar := { Barriers.reset with reg := 1 } } { tc [] with registered := true }

theorem witness_BarrierWords_outside : Plain wOutside ∧ (wOutside.ctx w0.who).registered = true ∧ ¬1 ≤ (rectOf (wOutside.core 5).bar.rect).w :=
  ⟨plain (by decide), by decide, by decide⟩

theorem witness_IntegerLanesAndRounding_float : (LaneTy.bf16, 0x7F80, 0x7FC0) ∈ [(LaneTy.f32, 0x7F800000, 0x7FC00000), (.bf16, 0x7F80, 0x7FC0), (.f16, 0x7C00, 0x7E00)]
    ∧ 0x7F80 < 0xFFC1 % 2 ^ 15 ∧ 0xFF80 % 2 ^ 15 = 0x7F80 ∧ 0x8000 % 2 ^ 15 = 0 ∧ 0x3F80 % 2 ^ 15 < 0x7F80 ∧ 0xFFC1 < 2 ^ LaneTy.bf16.width
    ∧ 0x7F80 ∈ [0x3F80, 0x7F80, 0xFF80] ∧ 0x7F80 + 2 ^ 15 ∈ [0x3F80, 0x7F80, 0xFF80] ∧ fmtOf .i16 = none := by decide

/-- The context of `wFmt` with hint data, x6 naming a scale byte at 0x1000 of its own scratchpad. -/
def wFmtHint (attr : Attr) (mod reg : Option (BitVec 23)) : State :=
  mappedAs attr (ts 5 1 Core.reset { tc [(5, 0x2000000), (6, 0x1000)] with m := (Ctx.reset).m.set 1 4, hints := { Hints.none with mod := mod, reg := reg, first := 0x2000080 } })

def pl8At : Attr := { format := 8, blockg := 0, planesn := 2 }

/-- Every byte of the record that p planes of the block's lane group g need is resolved, and with a scale byte's address that byte. -/
def planesServe (mod reg : Option (BitVec 23)) (planes : Nat) (els : List Nat) : Bool :=
  match (wFmtHint pl8At mod reg).resolve 5 .read 0x2000000 4 with
  | (t, .ok a) => decide (a.attr = pl8At) && (match t.resolvePieces 5 0x2000000 1 (planeBytes 32 planes els) with
    | (u, .ok (x :: xs)) => u.portServes 5 x.2 && decide ((u.core 5).beyond < (u.core 5).wn) && (x :: xs).all (fun y => y.2.beyond == x.2.beyond && decide (u.loadPoison y.2 1 = none))
    | (u, .ok []) => (match u.resolve 5 .read 0x1000 1 with | (y, .ok x) => decide (y.loadPoison x 1 = none) && y.portServes 5 x && !x.beyond | _ => false)
    | _ => false)
  | _ => false

theorem witness_FormatLoadResult_hints : (∀ attr m r srcs dests, (wFmtHint attr m r).Clear srcs dests) ∧ (wFmtHint pl8At none none).NoTask
    ∧ (∀ attr m r, ((wFmtHint attr m r).ctx w0.who).hints.mod = m ∧ ((wFmtHint attr m r).ctx w0.who).hints.reg = r)
    ∧ active1 (wFmtHint pl8At none none) = [2] ∧ planesServe (some 0x401012) none 2 [16 + 2] = true ∧ planesServe (some 0x100) (some 6) 3 [] = true
    ∧ 0x401012 / 2 ^ 17 % 2 ^ 5 = 0 ∧ 0x401012 % 2 ^ 4 = 2 ∧ 0x401012 / 2 ^ 4 % 2 ^ 4 = 1 ∧ 1 < 32 / 16 ∧ 0x401012 / 2 ^ 8 % 2 ^ 9 = 16 ∧ 0x401012 / 2 ^ 22 = 1
    ∧ 0x20000 / 2 ^ 17 % 2 ^ 5 ≠ 0 ∧ (6 : BitVec 23).toNat < 32 ∧ ¬(0x20 : BitVec 23).toNat < 32 ∧ 0x021 % 2 ^ 4 = 1 ∧ 32 / 16 ≤ 0x020 / 2 ^ 4 % 2 ^ 4 :=
  ⟨fun _ _ _ => clear rfl, fun _ => by show Role.plain ≠ _; simp, fun _ _ _ => ⟨rfl, rfl⟩, by decide, by decide, by decide, by decide, by decide, by decide, by decide, by decide,
    by decide, by decide, by decide, by decide, by decide, by decide⟩

/-- The doubleword that the reading of a block has come to, whole or poisoned. -/
def wBlock (bad : Bool) : State := let s := wOtask 0; if bad then { s with poison := [(spadCell 5 0x1018, 8)] } else s

theorem witness_EngineWords_card : (∀ b, ((match ((wBlock b).resolve 5 .read 0x1018 8).2 with | .ok a => (a.port 5).isNone | _ => false) = true)) ∧ [11, 0x2000004, (8 : Word)].length < 4
    ∧ (wBlock false).cycle < 98 + 3 ∧ 90 + 3 ≤ (wBlock false).cycle ∧ (∃ t a v q, (wBlock false).readScalar w0.who 0x1018 .d false = (t, .ok (a, v, q)) ∧ decide (v = 0) = true)
    ∧ (match (wBlock true).readScalar w0.who 0x1018 .d false with | (_, .error e) => decide (e = .poison) | _ => false) = true :=
  ⟨by decide, by decide, by decide, by decide, scalarOk (by decide), by decide⟩

theorem witness_WorkWords_join : (∃ t a, (wCard [3] Core.reset (tc [(3, 0x1000)])).Reaches .read 0x1000 8 t a ∧ decide (leValue (Memory.readBytes t.mem a.key 8) ≠ 0) = true)
    ∧ wStarved.startsWait 5 = true ∧ w0.startsWait 5 = false ∧ 1024 ≤ (wStarved.core 5).spillRoom ∧ (w0.core 5).spillRoom < 1024 := ⟨reaches (by decide), by decide, by decide, by decide, by decide⟩

theorem witness_GangWords_behind : (wLeads.gangMates 5).all (fun m => (wLeads.core m).gang.behind.isNone) = true ∧ (wLeads.core 6).gang.attached = true ∧ (wLeads.core 4).gang.attached = false
    ∧ 6 ∈ wLeads.gangMates 5 ∧ ((wLeads.modCore 6 (fun k => { k with gang := { k.gang with behind := some 4 } })).core 6).gang.behind ≠ none := by decide

/-- The unit whose variables' owner protects its first tiles from writes, or not. -/
def wDep (prot : Bool) : State :=
  let s := wCx false [(0, cv 7 []), (1, cv 8 [])] none 7 8
  if prot then s.modCore 5 (fun k => { k with prot := k.prot.set 0 0xA000000000FF0000 }) else s

theorem witness_CrossingWords_dep : (cv 7 []).deplist.length < 32 ∧ (cv 7 []).owner = 5
    ∧ (match protCheck ((wDep false).core 5) false true 0x1200 2 with | .ok _ => true | _ => false) = true
    ∧ (match protCheck ((wDep true).core 5) false true 0x1200 2 with | .error e => decide (e = .protection) | _ => false) = true := by decide

theorem witness_CrossingWords_sample : (wCx false [] (some (8, 0)) 9 0x1000).sampleReady 5 9 = true ∧ (wCx false [] (some (8, 0)) 9 0x1000).lastTs 5 = some 8
    ∧ (wCx true [(0, { cv 7 [] with next := 9 })] (some (8, 0)) 9 0x1000).sampleReady 5 9 = false := by decide

theorem witness_StateRegisterWords_speed : w0.ferry.speedWrite = none ∧ { Ferry.reset with speedWrite := some 4 }.speedWrite = some 4 ∧ (1 ≤ (4 : Word).toNat % 2 ^ 5 ∧ (4 : Word).toNat % 2 ^ 5 ≤ 16)
    ∧ ¬(1 ≤ (0 : Word).toNat % 2 ^ 5 ∧ (0 : Word).toNat % 2 ^ 5 ≤ 16) := by decide

theorem witness_SystemWords_busy : (w0.ctx w0.who).unacked = 0 ∧ w0.pageBusy 3 (some 0x2000) = false ∧ w0.pageBusy 3 none = false := by decide

/-- A cluster whose array may start its operation, whose operands lie in scratchpad regions of the format given. -/
def wRegion (format : Nat) : State :=
  (wEngine (.matrix mo) false).modCore 0 (fun k => { k with prot := k.prot.set 0 (BitVec.ofNat 64 (2 ^ 63 + 2 ^ 62 + 2 ^ 61 + format * 2 ^ 57 + (if format = 8 then 2 ^ 53 else 0) + 192 * 2 ^ 16)) })

theorem attrOk {p : State × Except EngineFault Attr} {P : State → Attr → Bool} (h : (match p with | (t, .ok a) => P t a | _ => false) = true) :
    ∃ t a, p = (t, .ok a) ∧ P t a = true := by
  split at h
  · exact ⟨_, _, rfl, h⟩
  · simp at h

theorem witness_EngineEvents_start : ((wEngine (.matrix mo) false).cluster 0).gangOffer = none ∧ ((wEngine (.matrix mo) false).cluster 0).running = none
    ∧ (wEngine (.matrix mo) false).nextJob 0 true = some (2, .matrix mo)
    ∧ (((wEngine (.matrix mo) false).modCluster 0 (fun k => { k with gangOffer := some (90, mo) })).cluster 0).gangOffer ≠ none
    ∧ (∃ t a, (wRegion 4).attrAt 0 mo.abase = (t, .ok a) ∧ (match t.attrAt 0 mo.bbase with | (_, .ok b) => (match mo.mode a b with | .ok n => decide (n = 64) | _ => false) | _ => false) = true)
    ∧ (∃ t a, (wRegion 8).attrAt 0 mo.abase = (t, .ok a) ∧ (match t.attrAt 0 mo.bbase with | (_, .ok b) => (match mo.mode a b with | .error _ => true | _ => false) | _ => false) = true) :=
  ⟨by decide, by decide, by decide, by decide, attrOk (by decide), attrOk (by decide)⟩

theorem witness_EngineEvents_grant : ((wSlice [] (some 99)).core 0).down = false ∧ 99 < (wSlice [] (some 99)).cycle ∧ ((wEngine (.matrix mo) true).cluster (clusterOf 0)).matrixRunning = some (2, mo) := by decide

theorem witness_StartEvents_resume : ((wk kBack).spillAccess 5 .read []).2 = true ∧ (kBack.swapped.map (·.space.far)) = [[]] := by decide

theorem witness_RingAndTreeEvents_forward : (con 0).good = true ∧ 5 ≠ (tr.root + 300) ∧ (wTree 2 2 none).agenda = [] ∧ (con 0).count < 3 ∧ 1 ≤ (con 0).count
    ∧ ((con 0).merge (con 0)).count = 2 := by decide +kernel

/-- The dock of `wDock` before a tile that is tracked and holds data, that is POISON, and that is POISON for a chunk which the boarding saw landed bad. -/
def wTile (poison again : Bool) : State :=
  ((wDock none).modCore 5 (fun k => { k with tags := [(8, { track := true, poison := poison, consumed := false, valid := true })] })).modDie 0 (fun d => { d with
    boardings := [(3, { bd 2 true with bad := if again then [0] else [] })] })

theorem witness_FerryEvents_tile : (((wTile true true).core 5).tag (8 + 0)).poison = true ∧ dc.bad = false ∧ ((wTile true true).die (dieOf 5)).standing 2051 = some { bd 2 true with bad := [0] }
    ∧ [(0 : Nat)].contains (dc.chunk - 0) = true ∧ ((w0.core 5).tag (8 + 0)).track = false ∧ ((wDock (some 100)).die 0).dock.map (·.dests.length) = [1] := by decide

/-- A ferry under a timetable, one step before its lap ends or before layer 1's first pair, with a pair on the ring. -/
def wRing1 (start lapLen : Nat) : State :=
  let l : Layer := { n := 1, pier := 0, ret := false, pl8 := false, planes := 8, chunks := 4, source := 0x2000000, start := start }
  { mapped w0 with ferry := { Ferry.reset with running := true, layers := [l], lap := 4, stepNo := 99, lapStart := 0, lapLen := lapLen, pairs := [([dc], 0, 30)] } }

theorem witness_FerryEvents_run : (∀ a b, (wRing1 a b).ferry.running = true ∧ (wRing1 a b).ferry.leaving = false) ∧ (wRing1 100 1088).ferry.layers.map (fun l => decide (l.start ≤ 100 ∧ 100 < l.start + l.npairs)) = [true]
    ∧ (wRing1 0 100).ferry.stepNo + 1 = (wRing1 0 100).ferry.lapStart + (wRing1 0 100).ferry.lapLen ∧ (wRing1 100 1088).pierServes 0 = true
    ∧ { Ferry.reset with incoming := some { lid := 0, tenant := 0, layers := [], lapLen := 1088, auto := false, div := 1 } }.incoming = some { lid := 0, tenant := 0, layers := [], lapLen := 1088, auto := false, div := 1 }
    ∧ Ferry.reset.drain ≤ 1 ∧ (match (wRing1 100 1088).ferryRead 0 0x2000000 4 8192 with | (_, .ok bs) => decide (bs.length = 8192) | _ => false) = true
    ∧ (match (wRing1 100 1088).ferryRead 0 0x1000 4 8192 with | (_, .error _) => true | _ => false) = true := by
  refine ⟨fun _ _ => ⟨rfl, rfl⟩, by decide, by decide, by decide, by decide, by decide, by decide +kernel, by decide⟩

theorem witness_HostRegisterEvents_log : ({ Die.reset with log := [FaultRecord.blank], fqSize := 16 }).log = [FaultRecord.blank]
    ∧ ({ Die.reset with log := [FaultRecord.blank], fqSize := 16 }).fqTail ≠ ({ Die.reset with log := [FaultRecord.blank], fqSize := 16 }).fqHead + 16 := by decide

theorem witness_HostTransferEvents_phys : w0.pagesMove = false ∧ 0x1000 / 2 ^ 36 = (0x1000 + [(1 : Byte)].length - 1) / 2 ^ 36 := by decide

/-- A store, an atomic, a message or a reply on its way, whose tenant field a receiver cannot read. -/
def wField (posted : List Posted) (agenda : List (Nat × Instr)) : State := { w3 1 0 with posted := posted, agenda := agenda }
def pst : Posted := { who := w0.issuer w0.who, key := 0x1000, old := [1, 2, 3, 4], due := 150 }

theorem witness_FaultAndPowerEvents_field : (wField [] []).posted = [] ∧ (wField [pst] []).posted = [pst] ∧ pst.who.slot = w0.who ∧ (wField [pst] []).cycle ≤ pst.due
    ∧ pst.key % 4096 = (0x2000000 : Word).toNat % 4096 ∧ Memory.wf (wField [pst] []).mem = true ∧ (wReq .add none).dest = none ∧ (wReq .add none).members = [w0.issuer w0.who]
    ∧ (wReq .add none).va = 0x1000 ∧ wMsg.who.slot = w0.who ∧ (Result.plain (.x 4) 8).dest = .x 4 := by decide

theorem witness_FaultAndPowerEvents_form : ∀ b, zeroMapWidth ((wField [pst] []).blockFormat b) = 0 := fun b => by
  cases b <;> rfl

theorem witness_FaultAndPowerEvents_header : (wRing1 100 1088).ferry.pairs[0]? = some ([dc], 0, 30) ∧ [dc][0]? = some dc ∧ 3 ∈ ({ Die.reset with failing := [3, 5], retired := [7] }).failing
    ∧ (w0.core 5).down = false ∧ 64 ≤ ({ Core.reset with flitless := 64 }).flitless ∧ (w0.core 5).flitless < 64 ∧ eventCore (.creditReturn 5 0) = some 5 :=
  ⟨rfl, rfl, by decide, by decide, by decide, by decide, by decide⟩

theorem witness_StepRunsDecodedInstruction_line : (wStep.ctx wStep.who).newLine = false ∧ ((wStep.modCtx wStep.who (fun c => { c with newLine := true })).ctx wStep.who).newLine = true
    ∧ 0x80 % 128 = 0 ∧ wStep.overwritten = [] ∧ wStep.poisoned (0x80 + 0x2000084 % 128) 4 = false ∧ wStep.poisoned 0x80 4 = false ∧ wStep.peek 0x80 4 = 3
    ∧ WellFormed (.creditReturn 262144 0) = false := by decide

end Sys2Proof.Machine
end

section
/-! SUPPORT. What every step keeps (00 R3, R6; 06 R115): the canonical form of memory and the ascending order of the listed cores. Few operations touch
either: a core is set at its key (`setCore`), the listed cores are changed where they stand (`mapCores`), and memory is written, restored or filtered
(`setMem`). Every other operation of the model is put together from operations before it, so each lemma below cites the lemmas of the
operations that its definition calls, in the order of the model's files; `exec` and `step` collect them. -/

namespace Sys2Proof.Machine

/-- What an instruction or an event answers keeps the invariant. -/
def NextInv : Host.Outcome State Fault Refusal → Prop
  | .next t => t.Inv
  | .fault _ | .refused _ => True

/-- The state that the body of a word leaves keeps the invariant, and so does the request that it notes at a butterfly port. -/
def Body.Inv : Body → Prop
  | .done s | .jump s _ | .trap s _ | .park s _ | .ended s | .hint s => s.Inv
  | .hold => True
  | .holdWith note => ∀ t : State, t.Inv → (note t).Inv

/-- The state in which a fetch ends keeps the invariant. -/
def Fetched.Inv : Fetched → Prop
  | .word s _ | .begin s | .trap s _ => s.Inv
  | .busy => True

/-- The keys of a sparse map after a value is set are the old ones and the one set. -/
theorem mem_keys_kset {α : Type} {k j : Nat} {v : α} {m : KMap α} (h : j ∈ (kset k v m).map (·.1)) : j = k ∨ j ∈ m.map (·.1) := by
  induction m with
  | nil => simpa [kset] using h
  | cons e m ih =>
    obtain ⟨k', v'⟩ := e
    simp only [kset] at h
    split_ifs at h with h1 h2
    · subst h1; simpa using h
    · simpa using h
    · rcases List.mem_cons.1 h with h | h
      · exact .inr (by simp [h])
      · exact (ih h).imp_right (List.mem_cons_of_mem _)

/-- Setting a value keeps the keys of a sparse map in ascending order. -/
theorem kset_sorted {α : Type} (k : Nat) (v : α) {m : KMap α} (h : (m.map (·.1)).Pairwise (· < ·)) : ((kset k v m).map (·.1)).Pairwise (· < ·) := by
  induction m with
  | nil => simp [kset]
  | cons e m ih =>
    obtain ⟨k', v'⟩ := e
    obtain ⟨h1, h2⟩ := List.pairwise_cons.1 h
    simp only [kset]
    split_ifs with e1 e2
    · subst e1; exact h
    · refine List.pairwise_cons.2 ⟨fun j hj => ?_, h⟩
      rcases List.mem_cons.1 hj with hj | hj
      · rw [hj]; exact e2
      · exact Nat.lt_trans e2 (h1 j hj)
    · refine List.pairwise_cons.2 ⟨fun j hj => ?_, ih h2⟩
      rcases mem_keys_kset hj with hj | hj
      · rw [hj]; exact Nat.lt_of_le_of_ne (Nat.le_of_not_lt e2) (fun e => e1 e.symm)
      · exact h1 j hj

namespace State

variable {s : State}

theorem Same.inv {t : State} (h : s.Same t) (hi : s.Inv) : t.Inv := ⟨h.memOk hi.memory, by rw [CoresOk, h.cores]; exact hi.cores⟩

namespace Inv

/-- A change of the state beside its memory and its cores. -/
theorem others (h : s.Inv) (cycle turn : Nat) (begun : Bool) (agenda : List (Nat × Instr)) (late : List (Nat × Late)) (who : CtxId) (stalled : Bool) (asked : List CtxId)
    (deciding : Option Nat) (free serials : Nat) (clusters : KMap Cluster) (groups : KMap Group) (dies : KMap Die) (launches : KMap Launch) (images : List SaveImage)
    (modules : List LoadedModules) (ferry : Ferry) (overwritten : List (Nat × BitVec 32 × Nat)) (poison : List (Nat × Nat)) (zeroBlocks : KMap Nat) (posted : List Posted)
    (host : HostPort) (spdm : Spdm) (boot : Boot) (refusals : KMap Nat) (failedLinks : List Nat) :
    State.Inv { cycle, turn, begun, agenda, late, who, stalled, asked, deciding, free, serials, cores := s.cores, clusters, groups, dies, launches, images, modules, ferry, mem := s.mem,
                overwritten, poison, zeroBlocks, posted, host, spdm, boot, refusals, failedLinks } := ⟨h.memory, h.cores⟩

/-- A memory in canonical form takes the place of the old one. -/
theorem setMem (h : s.Inv) {m : Memory} (hm : Memory.wf m = true) : ({ s with mem := m } : State).Inv := ⟨hm, h.cores⟩

/-- A change of each listed core where it stands. -/
theorem mapCores (h : s.Inv) (f : Core → Core) : ({ s with cores := s.cores.map (fun k : Nat × Core => (k.1, f k.2)) } : State).Inv :=
  ⟨h.memory, by simpa [CoresOk, Function.comp_def] using h.cores⟩

/-- The state that an operation answers beside its result, from the lemma about that operation. -/
theorem ofEq {α : Type} {p : State × α} {a : α} (e : p = (s, a)) (h : p.1.Inv) : s.Inv := by
  rw [e] at h
  exact h

theorem foldl {α : Type} {f : State → α → State} (h : s.Inv) (hf : ∀ (t : State) a, t.Inv → (f t a).Inv) (l : List α) : (l.foldl f s).Inv := by
  induction l generalizing s with
  | nil => exact h
  | cons a l ih => exact ih (hf _ _ h)

theorem foldr {α : Type} {f : α → State → State} (h : s.Inv) (hf : ∀ (t : State) a, t.Inv → (f a t).Inv) (l : List α) : (l.foldr f s).Inv := by
  induction l with
  | nil => exact h
  | cons a l ih => exact hf _ _ ih

theorem foldlFst {α β : Type} {f : State × β → α → State × β} {p : State × β} (h : p.1.Inv) (hf : ∀ (q : State × β) a, q.1.Inv → (f q a).1.Inv) (l : List α) :
    (l.foldl f p).1.Inv := by
  induction l generalizing p with
  | nil => exact h
  | cons a l ih => exact ih (hf _ _ h)

/-! ### Base -/

theorem setCore (h : s.Inv) (c : Nat) (k : Core) : (s.setCore c k).Inv := ⟨h.memory, kset_sorted _ _ h.cores⟩
theorem modCore (h : s.Inv) (c : Nat) (f : Core → Core) : (s.modCore c f).Inv := h.setCore ..
theorem setCluster (h : s.Inv) (c : Nat) (k : Cluster) : (s.setCluster c k).Inv := h.others ..
theorem modCluster (h : s.Inv) (c : Nat) (f : Cluster → Cluster) : (s.modCluster c f).Inv := h.setCluster ..
theorem setGroup (h : s.Inv) (g : Nat) (k : Group) : (s.setGroup g k).Inv := h.others ..
theorem modGroup (h : s.Inv) (g : Nat) (f : Group → Group) : (s.modGroup g f).Inv := h.setGroup ..
theorem setDie (h : s.Inv) (d : Nat) (k : Die) : (s.setDie d k).Inv := (Same.setDie s d k).inv h
theorem modDie (h : s.Inv) (d : Nat) (f : Die → Die) : (s.modDie d f).Inv := (Same.modDie s d f).inv h
theorem setCtx (h : s.Inv) (w : CtxId) (c : Ctx) : (s.setCtx w c).Inv := h.modCore ..
theorem modCtx (h : s.Inv) (w : CtxId) (f : Ctx → Ctx) : (s.modCtx w f).Inv := h.setCtx ..
theorem setLaunch (h : s.Inv) (l : Launch) : (s.setLaunch l).Inv := h.others ..
theorem post (h : s.Inv) (due : Nat) (i : Instr) : (s.post due i).Inv := (Same.post s due i).inv h
theorem postEnd (h : s.Inv) (n : Nat) (i : Instr) : (s.postEnd n i).Inv := h.post ..
theorem drew (h : s.Inv) : (s.drew).Inv := (Same.drew s).inv h
theorem addLate (h : s.Inv) (core : Nat) (x : Late) : (s.addLate core x).Inv := h.others ..
theorem writeMemAfter (h : s.Inv) (wait key : Nat) (bytes : List Byte) : (s.writeMemAfter wait key bytes).Inv := (Same.writeMemAfter s wait key bytes).inv h
theorem writeMem (h : s.Inv) (key : Nat) (bytes : List Byte) : (s.writeMem key bytes).Inv := (Same.writeMem s key bytes).inv h

/-! ### Access -/

theorem sendRequest (h : s.Inv) (home : Nat) (r : PageRequest) : (s.sendRequest home r).1.Inv := (Same.sendRequest s home r).inv h
theorem requestPage (h : s.Inv) (home asker tenant : Nat) (kind : AccessKind) (va : Nat) : (s.requestPage home asker tenant kind va).Inv := (Same.requestPage s home asker tenant kind va).inv h
theorem logDirty (h : s.Inv) (home tenant va : Nat) : (s.logDirty home tenant va).Inv := (Same.logDirty s home tenant va).inv h
theorem setAD (h : s.Inv) (home tenant va : Nat) (write : Bool) (leaf : Nat) (e : LookEntry) : (s.setAD home tenant va write leaf e).Inv := (Same.setAD s home tenant va write leaf e).inv h
theorem lookup (h : s.Inv) (home asker tenant : Nat) (kind : AccessKind) (va : Nat) : (s.lookup home asker tenant kind va).1.Inv := (Same.lookup s home asker tenant kind va).inv h
theorem dropPages (h : s.Inv) (home tenant va : Nat) : (s.dropPages home tenant va).Inv := h.modDie ..
theorem enter (h : s.Inv) (home tenant : Nat) (kind : AccessKind) (va : Nat) (e : LookEntry) : (s.enter home tenant kind va e).1.Inv := (Same.enter s home tenant kind va e).inv h
theorem ruling (h : s.Inv) (home asker tenant : Nat) (kind : AccessKind) (va : Nat) : (s.ruling home asker tenant kind va).1.Inv := (Same.ruling s home asker tenant kind va).inv h
theorem translateFrom (h : s.Inv) (asker tenant : Nat) (kind : AccessKind) (va : Nat) : (s.translateFrom asker tenant kind va).1.Inv := (Same.translateFrom s asker tenant kind va).inv h
theorem translate (h : s.Inv) (tenant : Nat) (kind : AccessKind) (va : Nat) : (s.translate tenant kind va).1.Inv := (Same.translate s tenant kind va).inv h
theorem countAccess (h : s.Inv) (home tenant stack : Nat) (e : LookEntry) : (s.countAccess home tenant stack e).Inv := (Same.countAccess s home tenant stack e).inv h
theorem resolve (h : s.Inv) (core : Nat) (kind : AccessKind) (va : Word) (n : Nat) : (s.resolve core kind va n).1.Inv := (Same.resolve s core kind va n).inv h
theorem encodeBlock (h : s.Inv) (format b : Nat) : (s.encodeBlock format b).Inv := (Same.encodeBlock s format b).inv h
theorem zeroMap (h : s.Inv) (attr : Attr) (key n : Nat) : (s.zeroMap attr key n).Inv := (Same.zeroMap s attr key n).inv h
theorem writePage (h : s.Inv) (attr : Attr) (key : Nat) (bytes : List Byte) : (s.writePage attr key bytes).Inv := (Same.writePage s attr key bytes).inv h
theorem storeAt (h : s.Inv) (a : Access) (bytes : List Byte) : (s.storeAt a bytes).Inv := (Same.storeAt s a bytes).inv h
theorem writePhys (h : s.Inv) (key : Nat) (bytes : List Byte) : (s.writePhys key bytes).Inv := (h.writeMem ..).foldl (fun _ _ h1 => iteInduction (fun _ => h1) (fun _ => h1.encodeBlock ..)) _
theorem storeIssued (h : s.Inv) (a : Access) (bytes : List Byte) : (s.storeIssued a bytes).Inv := (Same.storeIssued s a bytes).inv h
theorem fetchEntry (h : s.Inv) (core : Nat) (va : Word) : (s.fetchEntry core va).1.Inv := (Same.fetchEntry s core va).inv h
theorem resolveFetch (h : s.Inv) (core : Nat) (va : Word) : (s.resolveFetch core va).1.Inv := (Same.resolveFetch s core va).inv h
theorem codeWord (h : s.Inv) (core line key i : Nat) : (s.codeWord core line key i).1.Inv := (Same.codeWord s core line key i).inv h
theorem checkTarget (h : s.Inv) (core : Nat) (target : Word) (all : Bool) : (s.checkTarget core target all).1.Inv := (Same.checkTarget s core target all).inv h

/-! ### Barriers -/

theorem modBar (h : s.Inv) (core : Nat) (f : Barriers → Barriers) : (s.modBar core f).Inv := h.modCore ..
theorem startSweep (h : s.Inv) (core : Nat) : (s.startSweep core).Inv := iteInduction (fun _ => h.modDie ..) (fun _ => h)
theorem sendMesh (h : s.Inv) (core : Nat) : (s.sendMesh core).Inv := (h.modBar ..).startSweep ..

theorem sweepTo (h : s.Inv) (t : Sweep) (next : Nat) : (s.sweepTo t next).Inv := by
  unfold State.sweepTo
  grind [modBar, modDie]

theorem dropSweep (h : s.Inv) (t : Sweep) : (s.dropSweep t).Inv := h.modDie ..
theorem sweepUp (h : s.Inv) (t : Sweep) : (s.sweepUp t).Inv := iteInduction (fun _ => h.sweepTo ..) (fun _ => h.post ..)

theorem moveSweep (h : s.Inv) (t : Sweep) : (s.moveSweep t).Inv := by
  unfold State.moveSweep
  grind [dropSweep, modBar, sweepTo, sweepUp]

theorem moveSweeps (h : s.Inv) (die : Nat) : (s.moveSweeps die).Inv := h.foldl (fun _ _ h1 => h1.moveSweep ..) _
theorem meshSend (h : s.Inv) (core : Nat) : (s.meshSend core).Inv := iteInduction (fun _ => h.sendMesh ..) (fun _ => h)
theorem tagComplete (h : s.Inv) (die : Nat) (t : Fin 8) : (s.tagComplete die t).Inv := iteInduction (fun _ => h.post ..) (fun _ => h)
theorem tagSend (h : s.Inv) (core : Nat) (t : Fin 8) : (s.tagSend core t).Inv := iteInduction (fun _ => (h.modBar ..).tagComplete ..) (fun _ => h)
theorem arriving (h : s.Inv) (w : CtxId) : (s.arriving w).Inv := h.modCtx ..
theorem arriveMesh (h : s.Inv) (w : CtxId) : (s.arriveMesh w).Inv := (((h.arriving ..).modCtx ..).modBar ..).meshSend ..
theorem arriveTag (h : s.Inv) (w : CtxId) (t : Fin 8) : (s.arriveTag w t).Inv := (((h.arriving ..).modCtx ..).modBar ..).tagSend ..
theorem withdrawMesh (h : s.Inv) (core : Nat) (arrived : Bool) : (s.withdrawMesh core arrived).Inv := iteInduction (fun _ => h.modBar ..) (fun _ => (h.modBar ..).meshSend ..)
theorem withdrawTag (h : s.Inv) (core : Nat) (arrived : Bool) (t : Fin 8) : (s.withdrawTag core arrived t).Inv := iteInduction (fun _ => iteInduction (fun _ => h.modBar ..) (fun _ => (h.modBar ..).tagSend ..)) (fun _ => h)
theorem withdraw (h : s.Inv) (core : Nat) (arrivedMesh : Bool) (arrivedTags : BitVec 8) : (s.withdraw core arrivedMesh arrivedTags).Inv := (h.withdrawMesh ..).foldl (fun _ _ h1 => h1.withdrawTag ..) _
theorem withdrawCtx (h : s.Inv) (w : CtxId) : (s.withdrawCtx w).Inv := iteInduction (fun _ => ((h.arriving ..).withdraw ..).modCtx ..) (fun _ => h)
theorem sendArrivals (h : s.Inv) (core : Nat) : (s.sendArrivals core).Inv := (h.meshSend ..).foldl (fun _ _ h1 => h1.tagSend ..) _

/-! ### Roles -/

theorem ringFault (h : s.Inv) (die : Nat) (r : FaultRecord) : (s.ringFault die r).Inv := iteInduction (fun _ => h.setDie ..) (fun _ => (h.setDie ..).writeMem ..)

theorem logFault (h : s.Inv) (die : Nat) (r : FaultRecord) : (s.logFault die r).Inv := by
  unfold State.logFault
  grind [ringFault, setDie]

theorem logProgramFault (h : s.Inv) (core : Nat) (cause : Cause) (va : Nat) : (s.logProgramFault core cause va).Inv := h.logFault ..
theorem drained (h : s.Inv) (core : Nat) (job : BitVec 16) (at_ : Nat) : (s.drained core job at_).Inv := iteInduction (fun _ => iteInduction (fun _ => (h.modCore ..).post ..) (fun _ => h.modCore ..)) (fun _ => h)

theorem roleEnd (h : s.Inv) (w : CtxId) (killed : Bool) : (s.roleEnd w killed).Inv := by
  unfold State.roleEnd
  grind [drained, modCluster, modCore, modDie]

theorem restSlice (h : s.Inv) (core : Nat) : (s.restSlice core).Inv := h.modCore ..
theorem withdrawGang (h : s.Inv) (core : Nat) : (s.withdrawGang core).Inv := iteInduction (fun _ => (h.modCluster ..).restSlice ..) (fun _ => h.modCluster ..)
theorem detach (h : s.Inv) (core : Nat) : (s.detach core).Inv := (h.modCore ..).others ..

theorem leaveGang (h : s.Inv) (w : CtxId) (next : Word) : (s.leaveGang w next).Inv := by
  unfold State.leaveGang
  grind [modCore, foldl, foldlFst]

theorem spillAccess (h : s.Inv) (core : Nat) (kind : AccessKind) (lines : List Nat) : (s.spillAccess core kind lines).1.Inv := by
  unfold State.spillAccess
  grind [logProgramFault, resolve, foldl, foldlFst]

theorem dropArrival (h : s.Inv) (w : CtxId) : (s.dropArrival w).Inv := by
  unfold State.dropArrival
  grind [withdrawGang]

theorem endCtx (h : s.Inv) (w : CtxId) (killed : Bool) : (s.endCtx w killed).Inv := by
  unfold State.endCtx
  grind [dropArrival, leaveGang, modCore, roleEnd, withdrawCtx]

/-! ### Ops -/

theorem postOrdered (h : s.Inv) (due : Nat) (i : Instr) (same : Instr → Bool) : (s.postOrdered due i same).Inv := h.post ..
theorem postLink (h : s.Inv) (src dst due : Nat) (credit : Bool) (i : Instr) : (s.postLink src dst due credit i).Inv := iteInduction (fun _ => h.post ..) (fun _ => h.postOrdered ..)
theorem sendCredit (h : s.Inv) (core : Nat) (q : Port) : (s.sendCredit core q).Inv := iteInduction (fun _ => (h.postLink ..).drew ..) (fun _ => h)
theorem refillFifo (h : s.Inv) (core : Nat) (q : Port) : (s.refillFifo core q).Inv := iteInduction (fun _ => h) (fun _ => h.spillAccess ..)
theorem popPort (h : s.Inv) (core : Nat) (p : Fin 8) : (s.popPort core p).Inv := ((h.refillFifo ..).modCore ..).sendCredit ..

theorem takePop (h : s.Inv) (w : CtxId) (p : Fin 8) : (s.takePop w p).Inv := by
  unfold State.takePop
  grind [modCore, modCtx, refillFifo]

theorem returnCredits (h : s.Inv) (w : CtxId) : (s.returnCredits w).Inv := iteInduction (fun _ => h) (fun _ => (h.modCtx ..).foldl (fun _ _ h1 => h1.sendCredit ..) _)

theorem unpop (h : s.Inv) (w : CtxId) : (s.unpop w).Inv := by
  unfold State.unpop
  grind [modCore, modCtx, foldr, foldlFst]

theorem sendPort (h : s.Inv) (core : Nat) (p : Fin 8) (from_ : Nat) (v : Word) : (s.sendPort core p from_ v).Inv := iteInduction (fun _ => (h.postLink ..).drew ..) (fun _ => h)
theorem takeCredit (h : s.Inv) (core : Nat) (p : Fin 8) : (s.takeCredit core p).Inv := h.modCore ..

theorem enterTrap (h : s.Inv) (w : CtxId) (t : Trap) : (s.enterTrap w t).Inv := by
  unfold State.enterTrap
  grind [checkTarget, endCtx, logProgramFault, modCtx]

theorem holdTrap (h : s.Inv) (w : CtxId) (slot : Nat) (t : Trap) : (s.holdTrap w slot t).Inv := (h.modCtx ..).modDie ..

theorem raise (h : s.Inv) (w : CtxId) (t : Trap) : (s.raise w t).Inv := by
  unfold State.raise
  grind [detach, enterTrap, holdTrap, modCtx, unpop]

theorem trapReturn (h : s.Inv) (w : CtxId) : (s.trapReturn w).Inv := by
  unfold State.trapReturn
  grind [checkTarget, modCtx, raise]

theorem writeX (h : s.Inv) (w : CtxId) (d : XReg) (v : Word) : (s.writeX w d v).Inv := by
  unfold State.writeX
  grind [modCtx, sendPort, takeCredit]

theorem markOut (h : s.Inv) (w : CtxId) (d : Dest) (by_ : Producer) : (s.markOut w d by_).Inv := iteInduction (fun _ => h) (fun _ => h.modCtx ..)

theorem later (h : s.Inv) (w : CtxId) (lat : Nat) (by_ : Producer) (r : Result) : (s.later w lat by_ r).Inv := by
  unfold State.later
  grind [markOut, postEnd, takeCredit]

theorem laterX (h : s.Inv) (w : CtxId) (lat : Nat) (by_ : Producer) (d : XReg) (v : Word) : (s.laterX w lat by_ d v).Inv := h.later ..

theorem awaitX (h : s.Inv) (w : CtxId) (by_ : Producer) (d : XReg) : (s.awaitX w by_ d).Inv := by
  unfold State.awaitX
  grind [markOut, takeCredit]

theorem answerX (h : s.Inv) (w : CtxId) (d : XReg) (at_ : Nat) (v : Word) : (s.answerX w d at_ v).Inv := by
  unfold State.answerX
  grind [markOut, modCtx, post, sendPort]

theorem retire (h : s.Inv) (w : CtxId) (sw : Bool) (next : Word) : (s.retire w sw next).Inv := h.modCtx ..
theorem finishPark (h : s.Inv) (w : CtxId) (sw : Bool) (from_ : Nat) : (s.finishPark w sw from_).Inv := (h.returnCredits ..).modCtx ..
theorem modButterfly (h : s.Inv) (p : Nat × Bool) (f : Butterfly → Butterfly) : (s.modButterfly p f).Inv := h.modCore ..

theorem servePort (h : s.Inv) (core : Nat) (a : Access) : (s.servePort core a).Inv := by
  unfold State.servePort
  grind [modButterfly]

theorem notePort (h : s.Inv) (core : Nat) (a : Access) : (State.notePort core a s).Inv := by
  unfold State.notePort
  grind [modButterfly, others]

theorem askPort (h : s.Inv) (w : CtxId) (a : Access) : (s.askPort w a).Inv := by
  unfold State.askPort
  grind [modButterfly, others]

theorem countBeyond (h : s.Inv) (core : Nat) (b : Bool) : (s.countBeyond core b).Inv := iteInduction (fun _ => h.modCore ..) (fun _ => h)

theorem exitCheck (h : s.Inv) (w : CtxId) (counter : Option Word) : (s.exitCheck w counter).1.Inv := by
  unfold State.exitCheck
  grind [resolve]

theorem doExit (h : s.Inv) (w : CtxId) (counter : Option Word) : (s.doExit w counter).Inv := by
  unfold State.doExit
  grind [countBeyond, drew, endCtx, exitCheck, modCtx, modDie, post, raise, returnCredits]

theorem tryExit (h : s.Inv) (w : CtxId) (counter : Option Word) : (s.tryExit w counter).Inv := by
  unfold State.tryExit
  grind [askPort, doExit, exitCheck, servePort]

theorem resultsHome (h : s.Inv) (w : CtxId) : (s.resultsHome w).Inv := by
  unfold State.resultsHome
  grind [enterTrap, modCtx, trapReturn, tryExit]

theorem formPeekNew (h : s.Inv) (f : Form) (w : CtxId) : (Machine.Form.peekNew f s w).1.Inv := by
  unfold Machine.Form.peekNew
  grind [drew, modCtx, foldl, foldlFst]

theorem formSettle (h : s.Inv) (f : Form) (s0 : State) (w : CtxId) : (f.settle s0 w s).Inv :=
  h.foldl (fun _ _ h1 => iteInduction (fun _ => h1) (fun _ => (h1.drew ..).modCtx ..)) _

theorem bodyNext {b : Body} (h : b.Inv) {g : State → State} (hg : ∀ t : State, t.Inv → (g t).Inv) : (b.next g).Inv := by
  cases b with
  | done t | jump t _ | park t _ | hint t => exact hg t h
  | trap | ended | hold | holdWith => exact h

theorem formRestore (h : s.Inv) (f : Form) (w : CtxId) (old : List (Dest × Vec)) : (Machine.Form.restore f w old s).Inv := h.foldl (fun _ _ h1 => iteInduction (fun _ => h1) (fun _ => h1.modCtx ..)) _

theorem forward (h : s.Inv) (w : CtxId) (g : Core) (held : Bool) (i : Instr) : (s.forward w g held i).Inv := by
  unfold State.forward
  grind [modCore, post, foldl, foldlFst]

theorem formClose (h : s.Inv) (f : Form) (s0 : State) (w : CtxId) (pops : List (Fin 8)) : (f.close s0 w pops s).Inv :=
  (h.foldl (fun _ _ h1 => h1.popPort ..) _).forward ..

theorem formFinish (h : s.Inv) (f : Form) (w : CtxId) (pops : List (Fin 8)) (old : List (Dest × Vec)) {b : Body} (hb : b.Inv) :
    (f.finish s w pops old b).Inv := by
  cases b with
  | done t | jump t _ => exact ((formRestore hb ..).retire ..).formClose ..
  | hint t => exact ((formRestore hb ..).modCtx ..).formClose ..
  | park t p => exact (((formRestore hb ..).modCtx ..).foldl (fun _ _ h1 => h1.takePop ..) _).forward ..
  | ended t => exact formClose hb ..
  | trap t p => exact (formRestore hb ..).raise ..
  | hold => exact h.others ..
  | holdWith note => exact (hb _ h).others ..

theorem formRun (h : s.Inv) (f : Form) {body : List Word → State → Body} (hb : ∀ l (t : State), t.Inv → (body l t).Inv) (w : CtxId) : (f.run body s s w).Inv := by
  unfold Form.run
  grind [bodyNext, formFinish, formPeekNew, formSettle, modCtx, raise]

theorem notReady (h : s.Inv) (f : Form) : (s.notReady f).Inv := (iteInduction (fun _ => h) (fun _ => h.modGroup ..)).others ..

theorem issue (h : s.Inv) (f : Form) {body : List Word → State → Body} (hb : ∀ l (t : State), t.Inv → (body l t).Inv) : NextInv (Machine.issue f body s) := by
  unfold Machine.issue
  grind [formRun, notReady, raise, NextInv]

/-! ### Memory -/

theorem touchControl (h : s.Inv) (core off : Nat) (t : Moment) : (s.touchControl core off t).Inv := iteInduction (fun _ => h.post ..) (fun _ => h)
theorem fireEntry (h : s.Inv) (core : Nat) (i : Fin 16) (t : Moment) : (s.fireEntry core i t).Inv := iteInduction (fun _ => (h.setCore ..).touchControl ..) (fun _ => h)
theorem setTagAt (h : s.Inv) (core tile : Nat) (g : TileTag) (t : Moment) : (s.setTagAt core tile g t).Inv := iteInduction (fun _ => ((h.modCore ..).touchControl ..).foldl (fun _ _ h1 => h1.fireEntry ..) _) (fun _ => (h.modCore ..).touchControl ..)
theorem tagStore (h : s.Inv) (core tile : Nat) (v : Word) : (s.tagStore core tile v).Inv := h.setTagAt ..
theorem entryStore (h : s.Inv) (core : Nat) (i : Fin 16) (dw : Nat) (v : Word) : (s.entryStore core i dw v).Inv := ((h.setCore ..).touchControl ..).fireEntry ..
theorem consume (h : s.Inv) (core : Nat) (i : Fin 8) (n : Word) : (s.consume core i n).Inv := iteInduction (fun _ => h) (fun _ => (h.setCore ..).touchControl ..)

theorem consumeBehind (h : s.Inv) (core : Nat) (i : Fin 8) (n : Word) : (s.consumeBehind core i n).Inv := by
  unfold State.consumeBehind
  grind [consume, post, foldl, foldlFst]

theorem controlStore (h : s.Inv) (core off : Nat) (v : Word) {t : State} (e : s.controlStore core off v = .ok t) : t.Inv := by
  unfold State.controlStore at e
  grind [consumeBehind, entryStore, tagStore]

theorem withPort (h : s.Inv) (core : Nat) (a : Access) {go : State → Body} (hg : ∀ t : State, t.Inv → (go t).Inv) : (Machine.withPort core a s go).Inv := by
  unfold Machine.withPort
  grind [countBeyond, notePort, servePort, Body.Inv]

theorem takeSpill (h : s.Inv) (core n : Nat) : (s.takeSpill core n).1.Inv := by
  unfold State.takeSpill
  grind [modCore, spillAccess]

theorem fillSpill (h : s.Inv) (core : Nat) (sp : Spill) (bytes : List Byte) : (s.fillSpill core sp bytes).Inv := by
  unfold State.fillSpill
  grind [resolve, writePage, foldl, foldlFst]

theorem storeNow (h : s.Inv) (w : CtxId) (a : Access) (ps : Pieces) : (s.storeNow w a ps).Inv := iteInduction (fun _ => (((h.foldl (fun _ _ h1 => h1.storeIssued ..) _).modCtx ..).postEnd ..).drew ..) (fun _ => ((h.foldl (fun _ _ h1 => h1.storeIssued ..) _).modCtx ..).postEnd ..)

theorem heldLines (h : s.Inv) (w : CtxId) (kind : AccessKind) (va n : Nat) : (s.heldLines w kind va n).1.Inv := by
  unfold State.heldLines
  grind [spillAccess]

theorem withLines (h : s.Inv) (w : CtxId) (va n : Nat) {go : State → Body} (hg : ∀ t : State, t.Inv → (go t).Inv) : (Machine.withLines s w va n go).Inv := by
  unfold Machine.withLines
  grind [endCtx, heldLines, Body.Inv]

theorem resolveStore (h : s.Inv) (w : CtxId) (va : Word) (n : Nat) : (s.resolveStore w va n).1.Inv := by
  unfold State.resolveStore
  grind [resolve]

theorem storeBody (h : s.Inv) (w : CtxId) (va : Word) (a : Access) (ps : Pieces) : (Machine.storeBody s w va a ps).Inv := by
  unfold Machine.storeBody
  grind [endCtx, heldLines, modDie, resolve, storeNow, takeSpill, withPort, foldl, foldlFst, Body.Inv]

theorem readScalar (h : s.Inv) (w : CtxId) (va : Word) (sz : Size) (sext : Bool) : (s.readScalar w va sz sext).1.Inv := by
  unfold State.readScalar
  dsimp only
  split
  · exact h
  · split
    · split
      · split <;> exact h
      · exact h
    · split
      · next e => exact ofEq e (h.resolve ..)
      · next e => split <;> exact ofEq e (h.resolve ..)

theorem replyOf (h : s.Inv) (a : Access) (r : Result) : (s.replyOf a r).1.Inv := by
  unfold State.replyOf
  grind [drew]

theorem loadBody (h : s.Inv) (d : XReg) (sz : Size) (sext : Bool) (va : Word) : (Machine.loadBody d sz sext va s).Inv := by
  unfold Machine.loadBody
  grind [later, readScalar, replyOf, withLines, withPort, Body.Inv]

theorem reserveX (h : s.Inv) (w : CtxId) (d : XReg) : (s.reserveX w d).Inv := by
  unfold State.reserveX
  grind [takeCredit]

theorem unreserveX (h : s.Inv) (w : CtxId) (d : XReg) : (s.unreserveX w d).Inv := by
  unfold State.unreserveX
  grind [modCore]

theorem raiseParked (h : s.Inv) (w : CtxId) (d : XReg) (t : Trap) : (s.raiseParked w d t).Inv := (h.unreserveX ..).raise ..
theorem completeX (h : s.Inv) (w : CtxId) (d : XReg) (v : Word) (sw : Bool) (from_ : Nat) : (s.completeX w d v sw from_).Inv := (h.answerX ..).finishPark ..

theorem waitBody (h : s.Inv) (d : XReg) (sz : Size) (sext sw : Bool) (cond : Cond) (y va : Word) : (Machine.waitBody d sz sext sw cond y va s).Inv := by
  unfold Machine.waitBody
  grind [later, modCtx, readScalar, replyOf, reserveX, withLines, withPort, Body.Inv]

theorem scalarStore (h : s.Inv) (sz : Size) (v va : Word) : (Machine.scalarStore sz v va s).Inv := by
  unfold Machine.scalarStore
  grind [controlStore, modCtx, postEnd, resolveStore, storeBody, Body.Inv]

theorem execResultWrite (h : s.Inv) (w : CtxId) (r : Result) : NextInv (Machine.execResultWrite w r s) := by
  unfold Machine.execResultWrite
  grind [modCore, modCtx, resultsHome, sendPort, NextInv]

theorem ackElsewhere (h : s.Inv) (i : Issuer) : (s.ackElsewhere i).Inv := h.modCore ..

theorem acknowledge (h : s.Inv) (i : Issuer) : (s.acknowledge i).Inv := by
  unfold State.acknowledge
  grind [ackElsewhere, modCtx, sendArrivals]

theorem answeredFar (h : s.Inv) (core : Nat) (p : Park) : (s.answeredFar core p).Inv := iteInduction (fun _ => (h.modCore ..).drew ..) (fun _ => h)

theorem reread (h : s.Inv) (key ready : Nat) (w : CtxId) : (s.reread key ready w).Inv := by
  unfold State.reread
  grind [answeredFar, completeX, finishPark, raise, raiseParked, readScalar]

theorem readSwapped (h : s.Inv) (core : Nat) (x : Swapped) (va : Word) (sz : Size) (sext : Bool) : (s.readSwapped core x va sz sext).1.Inv := by
  unfold State.readSwapped
  grind [readScalar, setCtx]

theorem rereadSwapped (h : s.Inv) (key ready core : Nat) (x : Swapped) : (s.rereadSwapped key ready core x).1.Inv := by
  unfold State.rereadSwapped
  grind [answeredFar, readSwapped, sendPort]

theorem rereadCore (h : s.Inv) (key ready core : Nat) : (s.rereadCore key ready core).Inv := by
  unfold State.rereadCore
  grind [modCore, reread, rereadSwapped, foldl, foldlFst]

/-! ### Atomics -/

theorem hurry (h : s.Inv) (w : CtxId) : (s.hurry w).Inv := by
  unfold State.hurry
  grind [others]

theorem sendPosted (h : s.Inv) (r : AtomicReq) (ord : MemOrd) (a : Access) : (s.sendPosted r ord a).Inv := by
  unfold State.sendPosted
  grind [drew, modCore, postOrdered, others]

theorem amoBody (h : s.Inv) (op : AmoOp) (sz : Size) (ord : MemOrd) (d : XReg) (C va B : Word) : (Machine.amoBody op sz ord d C va B s).Inv := by
  unfold Machine.amoBody
  grind [awaitX, modCtx, post, resolve, sendPosted, withPort, Body.Inv]

theorem amoOp (h : s.Inv) (i : Instr) (sw : Bool) (op : AmoOp) (sz : Size) (ord : MemOrd) (d a b : XReg) : NextInv (Machine.amoOp i sw op sz ord d a b s) := h.issue _ fun _ _ h1 => h1.amoBody ..
theorem grant (h : s.Inv) (r : LockReq) : (s.grant r).Inv := h.modCtx ..
theorem writeLock (h : s.Inv) (r : LockReq) (y : Nat) : (s.writeLock r y).Inv := h.writePage ..

theorem evalLock (h : s.Inv) (r : LockReq) : (s.evalLock r).1.Inv := by
  unfold State.evalLock
  grind [writeLock]

theorem lockPoisoned (h : s.Inv) (r : LockReq) : (s.lockPoisoned r).Inv := by
  unfold State.lockPoisoned
  grind [raiseParked]

theorem lockArrives (h : s.Inv) (r : LockReq) : (s.lockArrives r).Inv := by
  unfold State.lockArrives
  grind [evalLock, grant, post, setDie]

theorem execLockReevaluate (h : s.Inv) (addr : Nat) : NextInv (Machine.execLockReevaluate addr s) := by
  unfold Machine.execLockReevaluate
  grind [evalLock, grant, lockPoisoned, modDie, foldl, foldlFst, NextInv]

theorem cancelLock (h : s.Inv) (w : CtxId) : (s.cancelLock w).Inv := by
  unfold State.cancelLock
  grind [modDie, writeLock, others]

theorem cancelPark (h : s.Inv) (w : CtxId) : (s.cancelPark w).Inv := by
  unfold State.cancelPark
  grind [cancelLock, modCore, modCtx, unpop, unreserveX, withdrawGang, others]

theorem rwlOp (h : s.Inv) (i : Instr) (sw : Bool) (op : LockOp) (noWait : Bool) (d a : XReg) : NextInv (Machine.rwlOp i sw op noWait d a s) := by
  unfold Machine.rwlOp
  grind [evalLock, issue, later, lockArrives, modCtx, replyOf, reserveX, resolve, withPort, Body.Inv]

theorem modAway (h : s.Inv) (p : Place) (f : Ctx → Ctx) : (s.modAway p f).Inv := by
  unfold State.modAway
  grind [modCore, modCtx]

theorem faultResult (h : s.Inv) (w : CtxId) (d : Dest) (t : Trap) : (s.faultResult w d t).Inv := ((h.cancelPark ..).modCtx ..).raise ..
theorem atomicReply (h : s.Inv) (r : AtomicReq) (w : CtxId) (d : XReg) (old : Nat) : (s.atomicReply r w d old).Inv := (iteInduction (fun _ => h.drew ..) (fun _ => h)).postEnd ..

theorem keepReply (h : s.Inv) (r : AtomicReq) (p : Place) (d : XReg) (old : Nat) : (s.keepReply r p d old).Inv := by
  unfold State.keepReply
  grind [drew, modAway, modCore]

theorem execSendOutcome (h : s.Inv) (i : Issuer) (d : XReg) (outcome : Nat) : NextInv (Machine.execSendOutcome i d outcome s) := by
  unfold Machine.execSendOutcome
  grind [answerX, modAway, modCtx, resultsHome, NextInv]

theorem ackMembers (h : s.Inv) (r : AtomicReq) : (s.ackMembers r).Inv := by
  unfold State.ackMembers
  grind [drew, postEnd, foldl, foldlFst]

theorem execAmoHomeApply (h : s.Inv) (r : AtomicReq) : NextInv (Machine.execAmoHomeApply r s) := by
  unfold Machine.execAmoHomeApply
  grind [ackMembers, atomicReply, faultResult, keepReply, modAway, postEnd, unreserveX, writeMemAfter, zeroMap, foldl, foldlFst, NextInv]

theorem deliverPoison (h : s.Inv) (w : CtxId) : (s.deliverPoison w).Inv := by
  unfold State.deliverPoison
  grind [modCtx, raise]

theorem execPostedPoisonTrap (h : s.Inv) (i : Issuer) (va : Word) : NextInv (Machine.execPostedPoisonTrap i va s) := by
  unfold Machine.execPostedPoisonTrap
  grind [deliverPoison, modAway, modCtx, NextInv]

/-! ### Sync -/

theorem fenceOp (h : s.Inv) (i : Instr) (sw : Bool) (k : FenceKind) (scope : Scope) : NextInv (Machine.fenceOp i sw k scope s) := h.issue _ fun _ _ h1 => iteInduction (fun _ => h1) (fun _ => h1)
theorem modPort (h : s.Inv) (core : Nat) (p : Fin 8) (f : Port → Port) : (s.modPort core p f).Inv := h.modCore ..
theorem freePort (h : s.Inv) (core : Nat) (p : Fin 8) : (s.freePort core p).Inv := h.modCore ..

theorem execMsgBind (h : s.Inv) (sw : Bool) (a b : XReg) : NextInv (Machine.execMsgBind sw a b s) := by
  unfold Machine.execMsgBind
  grind [freePort, issue, modPort, Body.Inv, others]

theorem readOwn (h : s.Inv) (w : CtxId) (va : Word) (n : Nat) (engine : optParam Bool false) : (s.readOwn w va n engine).1.Inv := by
  unfold State.readOwn
  grind [resolve]

theorem execMsgSend (h : s.Inv) (sw : Bool) (d a b : XReg) : NextInv (Machine.execMsgSend sw d a b s) := by
  unfold Machine.execMsgSend
  grind [awaitX, countBeyond, drew, issue, modCtx, readOwn, Body.Inv]

theorem dispatch (h : s.Inv) (m : Message) : (s.dispatch m).Inv := h.postLink ..
theorem unsend (h : s.Inv) (w : CtxId) (m : Message) : (s.unsend w m).Inv := iteInduction (fun _ => (h.unreserveX ..).modCtx ..) (fun _ => ((h.unreserveX ..).modCtx ..).modCore ..)

theorem pollSending (h : s.Inv) (w : CtxId) : (s.pollSending w).Inv := by
  unfold State.pollSending
  grind [dispatch, finishPark, modCtx, raise, readOwn, unsend]

theorem sendBack (h : s.Inv) (m : Message) (outcome : Nat) : (s.sendBack m outcome).Inv := ((h.postEnd ..).postEnd ..).drew ..

theorem execMessageArrival (h : s.Inv) (m : Message) : NextInv (Machine.execMessageArrival m s) := by
  unfold Machine.execMessageArrival
  grind [modCore, sendBack, setCore, touchControl, writeMem, NextInv]

theorem execBarWd (h : s.Inv) (sw : Bool) : NextInv (Machine.execBarWd sw s) := by
  unfold Machine.execBarWd
  grind [issue, withdrawCtx, Body.Inv]

theorem execBarArrive (h : s.Inv) (sw : Bool) (d : XReg) : NextInv (Machine.execBarArrive sw d s) := by
  unfold Machine.execBarArrive
  grind [arriveMesh, issue, laterX, Body.Inv]

theorem execBarSync (h : s.Inv) (sw : Bool) : NextInv (Machine.execBarSync sw s) := by
  unfold Machine.execBarSync
  grind [arriveMesh, issue, Body.Inv]

theorem execBarWsync (h : s.Inv) (sw : Bool) (a : XReg) : NextInv (Machine.execBarWsync sw a s) := by
  unfold Machine.execBarWsync
  grind [arriveTag, issue, Body.Inv]

theorem freeParked (h : s.Inv) (core : Nat) (freed : Park → Option Bool) : (s.freeParked core freed).Inv := by
  unfold State.freeParked
  grind [finishPark, foldl, foldlFst]

theorem releaseMesh (h : s.Inv) (core : Nat) : (s.releaseMesh core).Inv := by
  unfold State.releaseMesh
  grind [freeParked, modCore, sendMesh]

theorem releaseTag (h : s.Inv) (core : Nat) (t : Fin 8) : (s.releaseTag core t).Inv := by
  unfold State.releaseTag
  grind [freeParked, modCore]

theorem vfCheck (h : s.Inv) (i : Instr) (upper : Bool) (kind : AccessKind) (va : Word) : (Machine.vfCheck i upper kind va s).1.Inv := by
  unfold Machine.vfCheck
  grind [readOwn, resolve]

theorem vfAppend (h : s.Inv) (w : CtxId) (va : Word) : (s.vfAppend w va).Inv := by
  unfold State.vfAppend
  grind [modCore]

theorem execVfPush (h : s.Inv) (sw : Bool) (a : XReg) : NextInv (Machine.execVfPush sw a s) := by
  unfold Machine.execVfPush
  grind [issue, vfAppend, vfCheck, Body.Inv]

theorem vfTake (h : s.Inv) (core : Nat) : (s.vfTake core).Inv := h.modCore ..

theorem execVfPop (h : s.Inv) (sw : Bool) (a : XReg) : NextInv (Machine.execVfPop sw a s) := by
  unfold Machine.execVfPop
  grind [issue, vfCheck, vfTake, Body.Inv]

theorem pollSync (h : s.Inv) (w : CtxId) : (s.pollSync w).Inv := by
  unfold State.pollSync
  grind [completeX, drew, finishPark, modCore, modCtx, pollSending, raise, readOwn, vfAppend, vfTake, writeMem]

/-! ### Engines -/

theorem engineRead (h : s.Inv) (core va n : Nat) : (s.engineRead core va n).1.Inv := by
  unfold State.engineRead
  grind [resolve, foldl, foldlFst]

theorem engineTags (h : s.Inv) (a : Access) (n : Nat) : (s.engineTags a n).Inv := by
  unfold State.engineTags
  grind [setTagAt]

theorem moves (h : s.Inv) (core : Nat) : (s.moves core).Inv := h.modGroup ..

theorem engineWrite (h : s.Inv) (core va : Nat) (bs : List Byte) : (s.engineWrite core va bs).1.Inv := by
  unfold State.engineWrite
  grind [engineTags, moves, resolve, storeAt, foldl, foldlFst]

theorem waitPage (h : s.Inv) (cl : Nat) (e : EngineFault) (w : EngineWait) : (s.waitPage cl e w).Inv := h.modCluster ..

theorem attrAt (h : s.Inv) (core va : Nat) : (s.attrAt core va).1.Inv := by
  unfold State.attrAt
  grind [resolve]

theorem readDws (h : s.Inv) (w : CtxId) (va : Word) (n : Nat) : (s.readDws w va n).1.Inv := by
  unfold State.readDws
  grind [readScalar, foldl, foldlFst]

theorem readCard (h : s.Inv) (w : CtxId) (va : Word) (n from_ : Nat) (got : List Word) : (s.readCard w va n from_ got).1.Inv := by
  unfold State.readCard
  grind [askPort, readScalar, resolve]

theorem readServed (h : s.Inv) (w : CtxId) (va : Word) (got : List Word) : (s.readServed w va got).1.Inv := by
  unfold State.readServed
  grind [readScalar, servePort]

theorem wakeJob (h : s.Inv) (cl : Nat) (ident : BitVec 16) (from_ : Nat) : (s.wakeJob cl ident from_).Inv := by
  unfold State.wakeJob
  grind [completeX, foldl, foldlFst]

theorem endJob (h : s.Inv) (cl : Nat) (slot : Fin 32) (state : Nat) (fault : Option EngineFault) : (s.endJob cl slot state fault).Inv := (h.modCluster ..).wakeJob ..

/-! ### Jobs -/

theorem cardBody (h : s.Inv) (align n : Nat) (va : Word) {park : State → Nat → Body} (hg : ∀ (t : State) m, t.Inv → (park t m).Inv) :
    (Machine.cardBody align n va s park).Inv := by
  unfold Machine.cardBody
  grind [readOwn, Body.Inv]

theorem execJobSub (h : s.Inv) (sw : Bool) (d a : XReg) : NextInv (Machine.execJobSub sw d a s) := by
  unfold Machine.execJobSub
  grind [cardBody, issue, reserveX, Body.Inv]

theorem pollJobSub (h : s.Inv) (w : CtxId) : (s.pollJobSub w).Inv := by
  unfold State.pollJobSub
  grind [modCtx, raiseParked, readCard]

theorem answerGang (h : s.Inv) (cl : Nat) (ident : BitVec 16) : (s.answerGang cl ident).Inv := by
  unfold State.answerGang
  grind [completeX, restSlice, foldl, foldlFst]

theorem offerGang (h : s.Inv) (cl pos : Nat) : (s.offerGang cl pos).Inv := by
  unfold State.offerGang
  grind [answerGang, setCluster]

theorem offerCopy (h : s.Inv) (cl pos : Nat) (w : CtxId) : (s.offerCopy cl pos w).Inv := by
  unfold State.offerCopy
  grind [completeX, setCluster]

theorem acceptOne (h : s.Inv) (cl : Nat) : (s.acceptOne cl).Inv := by
  unfold State.acceptOne
  grind [offerCopy, offerGang]

theorem refuseAll (h : s.Inv) (cl : Nat) : (s.refuseAll cl).Inv := by
  unfold State.refuseAll
  grind [offerCopy, offerGang, foldl, foldlFst]

theorem acceptJobs (h : s.Inv) (cl : Nat) : (s.acceptJobs cl).Inv := iteInduction (fun _ => h.refuseAll ..) (fun _ => h.acceptOne ..)

theorem noteGang (h : s.Inv) (cl : Nat) : (s.noteGang cl).Inv := by
  unfold State.noteGang
  grind [setCluster]

theorem movePiece (h : s.Inv) (cl : Nat) (j : CopyJob) (off n : Nat) : (s.movePiece cl j off n).1.Inv := by
  unfold State.movePiece
  grind [engineRead, engineWrite, foldl, foldlFst]

theorem copyPieces (cl : Nat) (j : CopyJob) (upto fuel done : Nat) (h : s.Inv) : (s.copyPieces cl j upto fuel done).1.Inv := by
  induction fuel generalizing s done with
  | zero => exact h
  | succ fuel ih =>
    unfold State.copyPieces
    grind [movePiece]

theorem startCopy (h : s.Inv) (cl : Nat) (slot : Fin 32) (j : CopyJob) : (s.startCopy cl slot j).Inv := ((h.modCluster ..).post ..).drew ..

theorem execCopyJobComplete (h : s.Inv) (cl : Nat) : NextInv (Machine.execCopyJobComplete cl s) := by
  unfold Machine.execCopyJobComplete
  grind [copyPieces, endJob, modCluster, waitPage, NextInv]

/-! ### Work -/

theorem placed (h : s.Inv) (w : CtxId) (c : Ctx) : (s.placed w c).1.Inv := ((h.others ..).setCtx ..).checkTarget ..

theorem startIn (h : s.Inv) (w : CtxId) (c : Ctx) : (s.startIn w c).Inv := by
  unfold State.startIn
  grind [placed, raise]

theorem execWorkStart (h : s.Inv) (sw : Bool) (d a b : XReg) : NextInv (Machine.execWorkStart sw d a b s) := by
  unfold Machine.execWorkStart
  grind [issue, laterX, startIn, Body.Inv]

theorem execWorkJoin (h : s.Inv) (sw : Bool) (a : XReg) : NextInv (Machine.execWorkJoin sw a s) := by
  unfold Machine.execWorkJoin
  grind [issue, modCtx, readScalar, withLines, withPort, Body.Inv]

theorem execWorkExit (h : s.Inv) (sw : Bool) (a : XReg) : NextInv (Machine.execWorkExit sw a s) := by
  unfold Machine.execWorkExit
  grind [doExit, exitCheck, issue, modCluster, modCtx, notePort, servePort, Body.Inv]

theorem execWorkMigrate (h : s.Inv) (sw : Bool) (d a : XReg) : NextInv (Machine.execWorkMigrate sw d a s) := by
  unfold Machine.execWorkMigrate
  grind [issue, laterX, reserveX, Body.Inv]

theorem takeResults (h : s.Inv) (w : CtxId) : (s.takeResults w).1.Inv := h.others ..

theorem pollMigrate (h : s.Inv) (w : CtxId) : (s.pollMigrate w).Inv := by
  unfold State.pollMigrate
  grind [endCtx, modCore, modCtx, post, returnCredits, takeResults, unreserveX]

theorem takeTrap (h : s.Inv) (w : CtxId) : (s.takeTrap w).Inv := by
  unfold State.takeTrap
  grind [modCtx, raise]

theorem settle (h : s.Inv) (w : CtxId) (m : Migrant) : (s.settle w m).Inv := ((h.setCtx ..).foldl (fun _ _ h1 => h1.post ..) _).takeTrap ..

/-! ### Tasks -/

theorem enterTask (h : s.Inv) (die : Nat) (t : OTask) : (s.enterTask die t).1.Inv := by
  unfold State.enterTask
  grind [setDie]

theorem execOtaskSub (h : s.Inv) (sw : Bool) (d a : XReg) : NextInv (Machine.execOtaskSub sw d a s) := by
  unfold Machine.execOtaskSub
  grind [cardBody, issue, reserveX, Body.Inv]

theorem submitTask (h : s.Inv) (w : CtxId) (card : List Word) (foot : List FootRange) : (s.submitTask w card foot).1.Inv := by
  unfold State.submitTask
  grind [enterTask]

theorem cardRead (h : s.Inv) (w : CtxId) (va : Word) (t : Nat) (ds : List Word) (d : XReg) (sw : Bool) : (s.cardRead w va t ds d sw).Inv := by
  unfold State.cardRead
  grind [completeX, modCtx, raiseParked, submitTask]

theorem pollOtaskSub (h : s.Inv) (w : CtxId) : (s.pollOtaskSub w).Inv := by
  unfold State.pollOtaskSub
  grind [cardRead, completeX, modCtx, raiseParked, readCard, submitTask]

theorem startTask (h : s.Inv) (w : CtxId) (key : Nat) (t : OTask) : (s.startTask w key t).Inv := by
  unfold State.startTask
  grind [holdTrap, modDie, placed]

/-! ### Crossing -/

theorem modVar (h : s.Inv) (cl slot : Nat) (f : CxVar → CxVar) : (s.modVar cl slot f).Inv := h.modCluster ..

theorem execCxDef (h : s.Inv) (sw : Bool) (d a : XReg) : NextInv (Machine.execCxDef sw d a s) := by
  unfold Machine.execCxDef
  grind [cardBody, issue, reserveX, Body.Inv]

theorem defineVar (h : s.Inv) (w : CtxId) (va : Word) (ds : List Word) : (s.defineVar w va ds).1.Inv := by
  unfold State.defineVar
  grind [setCluster]

theorem pollCxDef (h : s.Inv) (w : CtxId) : (s.pollCxDef w).Inv := by
  unfold State.pollCxDef
  grind [completeX, defineVar, modCtx, raiseParked, readCard]

theorem appendDep (h : s.Inv) (cl slot : Nat) (v : CxVar) (dep : Nat) : (s.appendDep cl slot v dep).1.Inv := by
  unfold State.appendDep
  dsimp only
  split_ifs
  · exact h
  · exact (h.writeMem ..).modVar ..

theorem execCxDep (h : s.Inv) (sw : Bool) (d a b : XReg) : NextInv (Machine.execCxDep sw d a b s) := by
  unfold Machine.execCxDep
  grind [appendDep, issue, laterX, Body.Inv]

theorem schedule (h : s.Inv) (cl slot : Nat) : (s.schedule cl slot).Inv := h.modVar ..
theorem startUnit (h : s.Inv) (cl : Nat) : (s.startUnit cl).Inv := iteInduction (fun _ => h) (fun _ => (h.setCluster ..).foldl (fun _ _ h1 => h1.schedule ..) _)

theorem execCxRd (h : s.Inv) (sw : Bool) (d a b : XReg) : NextInv (Machine.execCxRd sw d a b s) := by
  unfold Machine.execCxRd
  grind [drew, issue, laterX, Body.Inv]

theorem execCxSlope (h : s.Inv) (sw : Bool) (a b : XReg) : NextInv (Machine.execCxSlope sw a b s) := by
  unfold Machine.execCxSlope
  grind [issue, modDie, modVar, Body.Inv]

theorem capture (h : s.Inv) (w : CtxId) : (s.capture w).Inv := by
  unfold State.capture
  grind [modCtx, modDie]

theorem execCxSample (h : s.Inv) (sw : Bool) (d a b : XReg) : NextInv (Machine.execCxSample sw d a b s) := by
  unfold Machine.execCxSample
  grind [capture, issue, laterX, modCtx, reserveX, resolve, foldl, foldlFst, Body.Inv]

theorem pollSample (h : s.Inv) (w : CtxId) : (s.pollSample w).Inv := by
  unfold State.pollSample
  grind [capture, completeX, writeMemAfter]

theorem submitCrossing (h : s.Inv) (cl slot : Nat) : (s.submitCrossing cl slot).Inv := by
  unfold State.submitCrossing
  grind [enterTask, modVar, schedule]

theorem submitAll (h : s.Inv) : (s.submitAll).Inv := h.foldl (fun _ _ h1 => h1.submitCrossing ..) _
theorem deliverHeld (h : s.Inv) (w : CtxId) (key : Nat) (t : Trap) : (s.deliverHeld w key t).Inv := iteInduction (fun _ => ((h.modDie ..).raise ..).modDie ..) (fun _ => (h.modDie ..).raise ..)

theorem startCrossing (h : s.Inv) (w : CtxId) (key : Nat) (t : OTask) : (s.startCrossing w key t).Inv := by
  unfold State.startCrossing
  grind [holdTrap, modDie, startTask]

/-! ### Commit -/

theorem dropRun (h : s.Inv) (key : Nat) (t : OTask) : (s.dropRun key t).Inv := iteInduction (fun _ => (h.foldl (fun _ _ h1 => iteInduction (fun _ => (((h1.cancelPark ..).takeResults ..).modCtx ..).endCtx ..) (fun _ => h1)) _).modCore ..) (fun _ => h)

theorem abortTask (h : s.Inv) (die key : Nat) (discard : Bool) : (s.abortTask die key discard).Inv := by
  unfold State.abortTask
  grind [dropRun, modDie]

theorem abortAll (h : s.Inv) (die lid committing : Nat) (first gone : List Nat) : (s.abortAll die lid committing first gone).Inv := h.foldl (fun _ _ h1 => h1.abortTask ..) _

theorem commitRecords (h : s.Inv) (core : Nat) (t : OTask) : (s.commitRecords core t).1.Inv := by
  unfold State.commitRecords
  grind [modVar, foldl, foldlFst]

theorem reschedule (h : s.Inv) (core : Nat) (changed : List Nat) : (s.reschedule core changed).Inv := by
  unfold State.reschedule
  grind [modVar, schedule, foldl, foldlFst]

theorem beginCommit (h : s.Inv) (die key : Nat) (t : OTask) : (s.beginCommit die key t).Inv := by
  unfold State.beginCommit
  grind [abortAll, commitRecords, modCore, modDie, reschedule]

theorem performCommit (h : s.Inv) (die key : Nat) (t : OTask) : (s.performCommit die key t).Inv := by
  unfold State.performCommit
  grind [modCore, modDie, post, resolve, spillAccess, writePage, foldl, foldlFst]

theorem freeCommitPoint (h : s.Inv) (key : Nat) (t : OTask) : (s.freeCommitPoint key t).Inv := by
  unfold State.freeCommitPoint
  grind [deliverHeld, modCtx, modDie, unpop]

theorem tryCommit (h : s.Inv) (die lid : Nat) : (s.tryCommit die lid).Inv := by
  unfold State.tryCommit
  grind [beginCommit]

theorem commitStep (h : s.Inv) (die lid : Nat) : (s.commitStep die lid).Inv := by
  unfold State.commitStep
  grind [freeCommitPoint, performCommit, tryCommit]

theorem commitsAtEnd (h : s.Inv) (die : Nat) : (s.commitsAtEnd die).Inv := h.foldl (fun _ _ h1 => h1.tryCommit ..) _

/-! ### Scalar -/

theorem alu2 (h : s.Inv) (i : Instr) (sw : Bool) (d a b : XReg) (f : Word → Word → Word) : NextInv (Machine.alu2 i sw d a b f s) := h.issue _ fun _ _ h1 => h1.writeX ..
theorem alu1 (h : s.Inv) (i : Instr) (sw : Bool) (d a : XReg) (f : Word → Word) : NextInv (Machine.alu1 i sw d a f s) := h.issue _ fun _ _ h1 => h1.writeX ..
theorem aluMulOp (h : s.Inv) (i : Instr) (sw : Bool) (d a b : XReg) (f : Word → Word → Word) : NextInv (Machine.aluMulOp i sw d a b f s) := h.issue _ fun _ _ h1 => h1.laterX ..
theorem aluDivOp (h : s.Inv) (i : Instr) (sw : Bool) (d a b : XReg) (f : Word → Word → Word) : NextInv (Machine.aluDivOp i sw d a b f s) := h.issue _ fun _ _ h1 => (h1.modCore ..).laterX ..
theorem immOp (h : s.Inv) (i : Instr) (sw : Bool) (d a : XReg) (f : Hints → Word → Word) : NextInv (Machine.immOp i sw d a f s) := h.issue _ fun _ _ h1 => h1.writeX ..

theorem hintOp (h : s.Inv) (i : Instr) (sw : Bool) (kind : HintKind) (data : BitVec 23) : NextInv (Machine.hintOp i sw kind data s) := by
  unfold Machine.hintOp
  dsimp only
  split_ifs
  · exact h.others ..
  · exact h.raise ..
  · exact h.formFinish _ _ _ _ (b := .hint _) (h.modCtx ..)

/-! ### Control -/

theorem transfer (h : s.Inv) (link : Option XReg) (target : Word) : (Machine.transfer s link target).Inv := by
  unfold Machine.transfer
  grind [checkTarget, writeX, Body.Inv]

/-! ### Fetch -/

theorem fetchLine (h : s.Inv) (core line : Nat) : (s.fetchLine core line).Inv := by
  unfold State.fetchLine
  grind [countAccess, fetchEntry, modCore]

theorem caughtUp (h : s.Inv) (w : CtxId) : (s.caughtUp w).Inv := iteInduction (fun _ => h.modCore ..) (fun _ => h)

theorem followed (h : s.Inv) (w : CtxId) : (s.followed w).Inv := by
  unfold State.followed
  grind [detach, modCore]

theorem decodeFails (h : s.Inv) (w : CtxId) (f : DecodeFault) (word : BitVec 32) : (s.decodeFails w f word).Inv := h.raise ..

/-! ### Gangs -/

theorem joinGang (h : s.Inv) (leader w : CtxId) (mask : BitVec 8) (d : XReg) (sw : Bool) : (s.joinGang leader w mask d sw).Inv := by
  unfold State.joinGang
  grind [completeX, modCore, modCtx]

theorem pollLead (h : s.Inv) (w : CtxId) : (s.pollLead w).Inv := by
  unfold State.pollLead
  grind [joinGang, foldl, foldlFst]

theorem pollFollow (h : s.Inv) (w : CtxId) : (s.pollFollow w).Inv := by
  unfold State.pollFollow
  grind [completeX]

theorem execGangJoin (h : s.Inv) (sw : Bool) (a : XReg) : NextInv (Machine.execGangJoin sw a s) := by
  unfold Machine.execGangJoin
  grind [issue, modCore, Body.Inv]

theorem pollJoinGang (h : s.Inv) (w : CtxId) : (s.pollJoinGang w).Inv := by
  unfold State.pollJoinGang
  grind [finishPark, modCore, modCtx, foldl, foldlFst]

theorem stopGang (h : s.Inv) (core : Nat) : (s.stopGang core).Inv := by
  unfold State.stopGang
  grind [modCore, modCtx]

/-! ### Ferry -/

theorem ferryRead (tenant va fuel n : Nat) (h : s.Inv) : (s.ferryRead tenant va fuel n).1.Inv := by
  induction fuel generalizing s va n with
  | zero => exact h
  | succ fuel ih =>
    unfold State.ferryRead
    dsimp only
    split_ifs
    · exact h
    · split
      · next e => exact ofEq e (h.translate ..)
      · next e =>
        have ht := ofEq e (h.translate ..)
        split_ifs
        · exact ht
        · split
          · next e => exact ofEq e (ih _ _ ht)
          · exact ih _ _ ht

theorem logFerry (h : s.Inv) (pier : Nat) (c : DeckChunk) (cause seg : Nat) : (s.logFerry pier c cause seg).Inv := h.logFault ..

theorem convertChunk (h : s.Inv) (l : Layer) (n : Nat) : (s.convertChunk l n).1.Inv := by
  unfold State.convertChunk
  grind [ferryRead, logFerry]

theorem enterBoarding (h : s.Inv) (r : BoardReq) : (s.enterBoarding r).1.Inv := by
  unfold State.enterBoarding
  dsimp only
  split
  · exact h
  · split
    · exact h
    · exact h.setDie ..

theorem execBoardingRequest (h : s.Inv) (r : BoardReq) : NextInv (Machine.execBoardingRequest r s) := by
  unfold Machine.execBoardingRequest
  grind [completeX, enterBoarding, NextInv]

theorem cancelBoarding (h : s.Inv) (q lid ident : Nat) : (s.cancelBoarding q lid ident).1.Inv := by
  unfold State.cancelBoarding
  grind [modDie]

theorem execCancelRequest (h : s.Inv) (w : CtxId) (d : XReg) (ident : Nat) : NextInv (Machine.execCancelRequest w d ident s) := by
  unfold Machine.execCancelRequest
  grind [cancelBoarding, completeX, NextInv]

theorem settleBoarding (h : s.Inv) (q n : Nat) : (s.settleBoarding q n).Inv := by
  unfold State.settleBoarding
  grind [setDie]

theorem writeTile (h : s.Inv) (core tile : Nat) (bytes : List Byte) (bad : Bool) : (s.writeTile core tile bytes bad).Inv := (h.writeMem ..).setTagAt ..

theorem finishTile (h : s.Inv) (q : Nat) (e : DockEntry) (d : DockDest) (rest : List DockDest) : (s.finishTile q e d rest).1.Inv := by
  unfold State.finishTile
  grind [modDie, writeTile]

theorem moveEntry (h : s.Inv) (q : Nat) (e : DockEntry) : (s.moveEntry q e).1.Inv := by
  unfold State.moveEntry
  grind [finishTile]

theorem moveDock (h : s.Inv) (q : Nat) : (s.moveDock q).Inv := by
  unfold State.moveDock
  grind [modDie, moveEntry, settleBoarding, foldl, foldlFst]

theorem dockChunk (h : s.Inv) (q : Nat) (c : DeckChunk) : (s.dockChunk q c).Inv := by
  unfold State.dockChunk
  grind [setDie]

theorem checkChunk (h : s.Inv) (q : Nat) (c : DeckChunk) : (s.checkChunk q c).1.Inv := by
  unfold State.checkChunk
  grind [logFerry]

theorem passPier (h : s.Inv) (q : Nat) (pair : List DeckChunk) : (s.passPier q pair).1.Inv := by
  unfold State.passPier
  grind [checkChunk, dockChunk, foldl, foldlFst]

theorem settlePier (h : s.Inv) (q : Nat) : (s.settlePier q).Inv := h.foldl (fun _ _ h1 => h1.settleBoarding ..) _

theorem injectPair (h : s.Inv) (l : Layer) (j : Nat) : (s.injectPair l j).Inv := by
  unfold State.injectPair
  grind [convertChunk, foldl, foldlFst, others]

theorem installTimetable (h : s.Inv) (t : Timetable) : (s.installTimetable t).Inv := (h.others ..).post ..

theorem beginStep (h : s.Inv) : (s.beginStep).Inv := by
  unfold State.beginStep
  grind [installTimetable, others]

theorem ferryStep (h : s.Inv) : (s.ferryStep).Inv := by
  unfold State.ferryStep
  grind [beginStep, injectPair, passPier, settlePier, foldl, foldlFst, others]

theorem ringPause (h : s.Inv) : (s.ringPause).Inv := h.others ..
theorem holdback (h : s.Inv) : (s.holdback).Inv := iteInduction (fun _ => h.others ..) (fun _ => h)
theorem writeFrspeed (h : s.Inv) (v : Word) : (s.writeFrspeed v).Inv := h.others ..

theorem ringCycle (h : s.Inv) (r : Nat) : (s.ringCycle r).Inv := by
  unfold State.ringCycle
  grind [drew, ferryStep, holdback, ringPause, others]

theorem execFrBoard (h : s.Inv) (sw : Bool) (d a : XReg) : NextInv (Machine.execFrBoard sw d a s) := by
  unfold Machine.execFrBoard
  grind [cardBody, issue, reserveX, Body.Inv]

theorem postPier (h : s.Inv) (due core : Nat) (i : Instr) : (s.postPier due core i).Inv := h.others ..

theorem pollFrBoard (h : s.Inv) (w : CtxId) : (s.pollFrBoard w).Inv := by
  unfold State.pollFrBoard
  grind [modCtx, postPier, raiseParked, readCard]

/-! ### Reduce -/

theorem modTree (h : s.Inv) (die slot : Nat) (f : Tree → Tree) : (s.modTree die slot f).Inv := h.modDie ..

theorem execRedTree (h : s.Inv) (sw : Bool) (d a : XReg) : NextInv (Machine.execRedTree sw d a s) := by
  unfold Machine.execRedTree
  grind [cardBody, issue, reserveX, Body.Inv]

theorem enterTree (h : s.Inv) (lid : Nat) (ds : List Word) : (s.enterTree lid ds).1.Inv := by
  unfold State.enterTree
  grind [setDie]

theorem pollRedTree (h : s.Inv) (w : CtxId) : (s.pollRedTree w).Inv := by
  unfold State.pollRedTree
  grind [enterTree, modCtx, raiseParked, readCard]

theorem sendContribution (h : s.Inv) (w : CtxId) (ident va : Word) (d : XReg) : (s.sendContribution w ident va d).Inv := (((h.moves ..).post ..).drew ..).laterX ..

theorem execRedPut (h : s.Inv) (sw : Bool) (d a b : XReg) : NextInv (Machine.execRedPut sw d a b s) := by
  unfold Machine.execRedPut
  grind [issue, laterX, readOwn, reserveX, resolve, sendContribution, Body.Inv]

theorem pollRedPut (h : s.Inv) (w : CtxId) : (s.pollRedPut w).Inv := by
  unfold State.pollRedPut
  grind [finishPark, raiseParked, readOwn, sendContribution, unreserveX]

theorem answerWaits (h : s.Inv) (ident root lid failed : Nat) : (s.answerWaits ident root lid failed).Inv := by
  unfold State.answerWaits
  grind [drew, modCtx, foldl, foldlFst]

theorem endTreeStep (h : s.Inv) (die slot : Nat) : (s.endTreeStep die slot).Inv := by
  unfold State.endTreeStep
  grind [answerWaits, modTree]

theorem modChunk (h : s.Inv) (die slot chunk : Nat) (f : TreeChunk → TreeChunk) : (s.modChunk die slot chunk f).Inv := h.modTree ..
theorem failChunk (h : s.Inv) (die slot chunk : Nat) (hop : BitVec 32) : (s.failChunk die slot chunk hop).Inv := (h.modChunk ..).endTreeStep ..

theorem execFailureNotice (h : s.Inv) (die slot chunk step : Nat) (hop : BitVec 32) : NextInv (Machine.execFailureNotice die slot chunk step hop s) := by
  unfold Machine.execFailureNotice
  grind [failChunk, modChunk, modTree, NextInv]

theorem logContribution (h : s.Inv) (router type : Nat) (c : Contribution) (seg : BitVec 32) : (s.logContribution router type c seg).Inv := by
  unfold State.logContribution
  grind [logFault]

theorem blame (h : s.Inv) (router port root : Nat) (c : Contribution) : (s.blame router port root c).Inv := ((h.logContribution ..).post ..).drew ..

theorem forwardContribution (h : s.Inv) (router root : Nat) (c : Contribution) : (s.forwardContribution router root c).Inv := by
  unfold State.forwardContribution
  grind [blame, drew, post, others]

theorem rootMerge (h : s.Inv) (c : Contribution) (t : Tree) : (s.rootMerge c t).Inv := by
  unfold State.rootMerge
  grind [failChunk, logContribution, modChunk, post]

theorem execContributionArrival (h : s.Inv) (router port : Nat) (c : Contribution) : NextInv (Machine.execContributionArrival router port c s) := by
  unfold Machine.execContributionArrival
  grind [blame, forwardContribution, modTree, rootMerge, NextInv]

theorem execChunkComplete (h : s.Inv) (die slot chunk : Nat) : NextInv (Machine.execChunkComplete die slot chunk s) := by
  unfold Machine.execChunkComplete
  grind [endTreeStep, engineWrite, failChunk, logContribution, logProgramFault, modChunk, post, NextInv]

theorem execRedWait (h : s.Inv) (sw : Bool) (d a : XReg) : NextInv (Machine.execRedWait sw d a s) := by
  unfold Machine.execRedWait
  grind [issue, reserveX, Body.Inv]

theorem pollRedWait (h : s.Inv) (w : CtxId) : (s.pollRedWait w).Inv := by
  unfold State.pollRedWait
  grind [completeX]

theorem execRedStat (h : s.Inv) (sw : Bool) (d a b : XReg) : NextInv (Machine.execRedStat sw d a b s) := by
  unfold Machine.execRedStat
  grind [drew, issue, laterX, Body.Inv]

theorem readElements (h : s.Inv) (w : CtxId) (va : Word) (sz : Size) (n : Nat) : (s.readElements w va sz n).1.Inv := by
  unfold State.readElements
  grind [readScalar, foldl, foldlFst]

theorem execRedMan (h : s.Inv) (sw : Bool) (d a b : XReg) : NextInv (Machine.execRedMan sw d a b s) := by
  unfold Machine.execRedMan
  grind [issue, laterX, readElements, resolve, withPort, Body.Inv]

/-! ### Matrix -/

theorem gangArrive (h : s.Inv) (core : Nat) (op : Option MatrixOp) (due : Nat) : (s.gangArrive core op due).Inv := iteInduction (fun _ => ((h.setCluster ..).modCore ..).post ..) (fun _ => (h.setCluster ..).modCore ..)

theorem execMxGang (h : s.Inv) (sw : Bool) (d a : XReg) : NextInv (Machine.execMxGang sw d a s) := by
  unfold Machine.execMxGang
  grind [gangArrive, issue, readOwn, reserveX, Body.Inv]

theorem pollMatrix (h : s.Inv) (w : CtxId) : (s.pollMatrix w).Inv := by
  unfold State.pollMatrix
  grind [gangArrive, modCtx, raiseParked, readCard]

theorem execGangBarrierConsume (h : s.Inv) (cl : Nat) : NextInv (Machine.execGangBarrierConsume cl s) := by
  unfold Machine.execGangBarrierConsume
  grind [modCore, post, setCluster, foldl, foldlFst, NextInv]

theorem enginePieces (core va n : Nat) (ps : List (Nat × Nat)) (h : s.Inv) : (s.enginePieces core va n ps).1.Inv := by
  induction ps generalizing s with
  | nil => exact h
  | cons p ps ih =>
    unfold State.enginePieces
    grind [engineRead]

theorem operandRun (core : Nat) (bars : Attr → Bool) (fuel va k : Nat) (fmt : Attr) (h : s.Inv) : (s.operandRun core bars fuel va k fmt).1.Inv := by
  induction fuel generalizing s va k fmt with
  | zero => exact h
  | succ fuel ih =>
    unfold State.operandRun
    grind [attrAt, engineRead]

theorem operandRow (h : s.Inv) (core va k planes : Nat) (scaleOf : Nat → Nat) (bars : Attr → Bool) : (s.operandRow core va k planes scaleOf bars).1.Inv := by
  unfold State.operandRow
  grind [attrAt, enginePieces, engineRead, operandRun]

theorem operandColumn (h : s.Inv) (core : Nat) (op : MatrixOp) (j : Nat) : (s.operandColumn core op j).1.Inv := by
  unfold State.operandColumn
  grind [engineRead, operandRow]

theorem operandB (h : s.Inv) (core : Nat) (op : MatrixOp) : (s.operandB core op).1.Inv := by
  unfold State.operandB
  grind [operandColumn, operandRow, foldl, foldlFst]

theorem computeRow (h : s.Inv) (core : Nat) (op : MatrixOp) (i : Nat) : (s.computeRow core op i).1.Inv := by
  unfold State.computeRow
  grind [engineRead, operandB, operandRow]

theorem modSlice (h : s.Inv) (core : Nat) (f : Slice → Slice) : (s.modSlice core f).Inv := h.modCore ..

theorem failMatrix (h : s.Inv) (cl : Nat) (e : EngineFault) : (s.failMatrix cl e).Inv := by
  unfold State.failMatrix
  grind [endJob, modCluster, modSlice, foldl, foldlFst]

theorem raiseStarts (h : s.Inv) (cl : Nat) (op : MatrixOp) (at_ : Nat) : (s.raiseStarts cl op at_).Inv := by
  unfold State.raiseStarts
  grind [attrAt, failMatrix, modCluster, modSlice, waitPage, foldl, foldlFst]

theorem startMatrix (h : s.Inv) (cl : Nat) (slot : Fin 32) (op : MatrixOp) (at_ : Nat) : (s.startMatrix cl slot op at_).Inv := ((h.modCluster ..).foldl (fun _ _ h1 => h1.modSlice ..) _).raiseStarts ..

theorem startJob (h : s.Inv) (cl : Nat) (e : Engine) : (s.startJob cl e).Inv := by
  unfold State.startJob
  grind [startCopy, startMatrix]

theorem startJobs (h : s.Inv) (cl : Nat) : (s.startJobs cl).Inv := by
  unfold State.startJobs
  grind [startJob]

theorem execOperationFailure (h : s.Inv) (cl : Nat) (e : Engine) (cause : Cause) (va : Word) : NextInv (Machine.execOperationFailure cl e cause va s) := by
  unfold Machine.execOperationFailure
  grind [endJob, failMatrix, modCluster, NextInv]

theorem execMatrixOperationComplete (h : s.Inv) (cl : Nat) : NextInv (Machine.execMatrixOperationComplete cl s) := by
  unfold Machine.execMatrixOperationComplete
  grind [endJob, modCluster, restSlice, foldl, foldlFst, NextInv]

theorem beginRow (h : s.Inv) (core : Nat) : (s.beginRow core).Inv := (h.modSlice ..).post ..

theorem enterRow (h : s.Inv) (core : Nat) (op : MatrixOp) (vals : List (BitVec 32)) : (s.enterRow core op vals).Inv := by
  unfold State.enterRow
  grind [beginRow, modSlice, post, restSlice]

theorem restartRow (h : s.Inv) (core : Nat) : (s.restartRow core).Inv := (h.modSlice ..).beginRow ..

theorem endRow (h : s.Inv) (core : Nat) : (s.endRow core).Inv := by
  unfold State.endRow
  grind [computeRow, enterRow, failMatrix, modSlice, waitPage]

theorem execRowEnd (h : s.Inv) (cl : Nat) (slice : Fin 8) : NextInv (Machine.execRowEnd cl slice s) := by
  unfold Machine.execRowEnd
  grind [endRow, NextInv]

theorem execDrainPathWrite (h : s.Inv) (cl : Nat) (slice : Fin 8) : NextInv (Machine.execDrainPathWrite cl slice s) := by
  unfold Machine.execDrainPathWrite
  grind [drained, engineWrite, failMatrix, modSlice, waitPage, NextInv]

theorem execMxRowout (h : s.Inv) (sw : Bool) : NextInv (Machine.execMxRowout sw s) := by
  unfold Machine.execMxRowout
  grind [issue, modCtx, modSlice, post, Body.Inv]

theorem unstall (h : s.Inv) (core : Nat) : (s.unstall core).Inv := by
  unfold State.unstall
  grind [enterRow]

theorem sliceStart (h : s.Inv) (core : Nat) : (s.sliceStart core).Inv := (h.modSlice ..).beginRow ..
theorem sliceStop (h : s.Inv) (core : Nat) : (s.sliceStop core).Inv := h.modSlice ..

theorem limiter (h : s.Inv) (g : Nat) : (s.limiter g).Inv := by
  unfold State.limiter
  grind [modGroup, modSlice, sliceStart, sliceStop, foldl, foldlFst]

/-! ### Stages -/

theorem execSrDef (h : s.Inv) (sw : Bool) (a : XReg) : NextInv (Machine.execSrDef sw a s) := by
  unfold Machine.execSrDef
  grind [cardBody, issue, Body.Inv]

theorem defineStages (h : s.Inv) (w : CtxId) (va : Word) (ds : List Word) : (s.defineStages w va ds).1.Inv := by
  unfold State.defineStages
  grind [setCluster]

theorem pollSrDef (h : s.Inv) (w : CtxId) : (s.pollSrDef w).Inv := by
  unfold State.pollSrDef
  grind [defineStages, finishPark, modCtx, raise, readCard]

theorem execSrPut (h : s.Inv) (sw : Bool) (d a b : XReg) : NextInv (Machine.execSrPut sw d a b s) := by
  unfold Machine.execSrPut
  grind [issue, laterX, modCluster, Body.Inv]

theorem stageEnd (h : s.Inv) (i : Instr) (sw : Bool) (a : XReg) (rej : Bool) : NextInv (Machine.stageEnd i sw a rej s) := by
  unfold Machine.stageEnd
  grind [issue, modCtx, setCluster, Body.Inv]

theorem execSrStat (h : s.Inv) (sw : Bool) (d a : XReg) : NextInv (Machine.execSrStat sw d a s) := by
  unfold Machine.execSrStat
  grind [issue, laterX, Body.Inv]

theorem pollDrain (h : s.Inv) (w : CtxId) : (s.pollDrain w).Inv := by
  unfold State.pollDrain
  grind [completeX]

theorem startDelivery (h : s.Inv) (w : CtxId) (n : Nat) : (s.startDelivery w n).Inv := by
  unfold State.startDelivery
  grind [setCluster, startIn]

/-! ### Selector -/

theorem startDrain (h : s.Inv) (w : CtxId) (row : Nat) (job : BitVec 16) : (s.startDrain w row job).Inv := by
  unfold State.startDrain
  grind [modCore, startIn]

theorem restoreSwapped (h : s.Inv) (w : CtxId) (i : Nat) : (s.restoreSwapped w i).Inv := by
  unfold State.restoreSwapped
  grind [endCtx, modCore, modDie, returnCredits, setCtx, spillAccess]

theorem takeStart (h : s.Inv) (w : CtxId) (p : Pending) : (s.takeStart w p).Inv := by
  unfold State.takeStart
  grind [restoreSwapped, setCore, settle, startCrossing, startDelivery, startDrain, startIn, startTask]

theorem select (h : s.Inv) (core : Nat) : (s.select core).Inv := by
  unfold State.select
  grind [takeStart]

theorem execTaskDispatch (h : s.Inv) (die : Nat) : NextInv (Machine.execTaskDispatch die s) := by
  unfold Machine.execTaskDispatch
  grind [select, foldl, foldlFst, NextInv]

theorem execResumeRestore (h : s.Inv) (core : Nat) : NextInv (Machine.execResumeRestore core s) := by
  unfold Machine.execResumeRestore
  grind [select, NextInv]

theorem swapOut (h : s.Inv) (w : CtxId) : (s.swapOut w).Inv := by
  unfold State.swapOut
  grind [endCtx, fillSpill, hurry, modCore, takeResults, takeSpill, foldl, foldlFst]

theorem swapStep (h : s.Inv) (core : Nat) : (s.swapStep core).Inv := by
  unfold State.swapStep
  grind [swapOut]

theorem moverEnd (h : s.Inv) (core : Nat) : (s.moverEnd core).Inv := by
  unfold State.moverEnd
  grind [modCore, resultsHome, takeTrap]

theorem pollYield (h : s.Inv) (w : CtxId) : (s.pollYield w).Inv := by
  unfold State.pollYield
  grind [finishPark]

theorem stealTry (h : s.Inv) (core : Nat) (b : Berth) (reach : Nat) : (s.stealTry core b reach).Inv := by
  unfold State.stealTry
  grind [drew, modCore]

theorem stealStep (h : s.Inv) (core : Nat) : (s.stealStep core).Inv := by
  unfold State.stealStep
  grind [stealTry]

theorem backoffEnd (h : s.Inv) (core : Nat) : (s.backoffEnd core).Inv := by
  unfold State.backoffEnd
  grind [modCore]

theorem stealMove (h : s.Inv) (core : Nat) : (s.stealMove core).Inv := by
  unfold State.stealMove
  grind [modCore]

/-! ### Launches -/

theorem complete (h : s.Inv) (die lid kind cause value : Nat) : (s.complete die lid kind cause value).Inv := iteInduction (fun _ => (h.setDie ..).modDie ..) (fun _ => ((h.setDie ..).modDie ..).writeMem ..)

theorem enterLaunch (h : s.Inv) (die tenant : Nat) (desc : Word) (own : Bool) (arg0 arg1 : Word) (prio : Nat) : (s.enterLaunch die tenant desc own arg0 arg1 prio).1.Inv := by
  unfold State.enterLaunch
  grind [post, setDie, setLaunch]

theorem refill (h : s.Inv) (die : Nat) : (s.refill die).Inv := by
  unfold State.refill
  grind [setDie, setLaunch]

theorem leaveStore (h : s.Inv) (die lid : Nat) : (s.leaveStore die lid).Inv := (h.modDie ..).refill ..
theorem reenterStore (h : s.Inv) (l : Launch) (age : Nat) : (s.reenterStore l age).Inv := iteInduction (fun _ => (h.setDie ..).setLaunch ..) (fun _ => (h.setDie ..).setLaunch ..)
theorem controllerRead (h : s.Inv) (tenant va n : Nat) : (s.controllerRead tenant va n).1.Inv := h.ferryRead ..

theorem readDirectory (tenant va fuel : Nat) (h : s.Inv) : (s.readDirectory tenant va fuel).1.Inv := by
  induction fuel generalizing s va with
  | zero => exact h
  | succ fuel ih =>
    unfold State.readDirectory
    split
    · next e => exact ofEq e (h.controllerRead ..)
    · next e =>
      have hr := ofEq e (h.controllerRead ..)
      split
      · exact hr
      · split
        · next e => exact ofEq e (ih _ hr)
        · exact ih _ hr

theorem readTables (h : s.Inv) (tenant va : Nat) : (s.readTables tenant va).1.Inv := by
  unfold State.readTables
  grind [controllerRead, readDirectory, foldl, foldlFst]

theorem failLaunch (h : s.Inv) (l : Launch) (cause : Nat) : (s.failLaunch l cause).Inv := ((h.leaveStore ..).others ..).complete ..

theorem acceptCheck (h : s.Inv) (lid : Nat) : (s.acceptCheck lid).Inv := by
  unfold State.acceptCheck
  dsimp only
  split
  · exact h
  · refine iteInduction (fun _ => h) (fun _ => ?_)
    split
    · next e => exact (ofEq e (h.controllerRead ..)).failLaunch ..
    · next e =>
      have h1 := ofEq e (h.controllerRead ..)
      split
      · next e => exact (ofEq e (h1.controllerRead ..)).failLaunch ..
      · next e =>
        have h2 := ofEq e (h1.controllerRead ..)
        split
        · next e => exact (ofEq e (h2.readTables ..)).failLaunch ..
        · next e =>
          have h3 := ofEq e (h2.readTables ..)
          exact iteInduction (fun _ => h3.failLaunch ..) (fun _ => iteInduction (fun _ => h3.failLaunch ..) (fun _ => h3.setLaunch ..))

theorem execWorkLaunch (h : s.Inv) (sw : Bool) (d a : XReg) : NextInv (Machine.execWorkLaunch sw d a s) := by
  unfold Machine.execWorkLaunch
  grind [cardBody, issue, reserveX, Body.Inv]

theorem pollLaunch (h : s.Inv) (w : CtxId) : (s.pollLaunch w).Inv := by
  unfold State.pollLaunch
  grind [completeX, enterLaunch, modCtx, raiseParked, readCard]

theorem writeActfc (h : s.Inv) (die : Nat) : (s.writeActfc die).Inv := by
  unfold State.writeActfc
  grind [modDie]

/-! ### System -/

theorem execSysGets (h : s.Inv) (sw : Bool) (d : XReg) (sn : SReg) : NextInv (Machine.execSysGets sw d sn s) := by
  unfold Machine.execSysGets
  grind [drew, issue, writeX, Body.Inv]

theorem writeSrseed (h : s.Inv) (cl : Nat) (v : Word) : (s.writeSrseed cl v).Inv := h.modCluster ..
theorem writeBarrect (h : s.Inv) (core : Nat) (v : Word) : (s.writeBarrect core v).Inv := h.modBar ..
theorem writeWbartag (h : s.Inv) (core : Nat) (v : Word) : (s.writeWbartag core v).Inv := iteInduction (fun _ => h.modBar ..) (fun _ => (h.modCore ..).foldl (fun _ _ h1 => h1.tagComplete ..) _)

theorem writeReg (h : s.Inv) (w : CtxId) (r : SReg) (v : Word) : (s.writeReg w r v).Inv := by
  unfold State.writeReg
  grind [addLate, modBar, modCore, modCtx]

theorem writeLate (h : s.Inv) (core : Nat) (sn : SReg) (v : Word) : (s.writeLate core sn v).Inv := by
  unfold State.writeLate
  grind [modCluster, modDie, writeBarrect, writeFrspeed, writeSrseed, writeWbartag]

theorem pollGate (h : s.Inv) (w : CtxId) : (s.pollGate w).Inv := by
  unfold State.pollGate
  grind [completeX]

theorem dropEntries (h : s.Inv) (tenant : Nat) (page : Option Nat) : (s.dropEntries tenant page).Inv := h.others ..

theorem execSysInvp (h : s.Inv) (sw : Bool) (a b : XReg) : NextInv (Machine.execSysInvp sw a b s) := by
  unfold Machine.execSysInvp
  grind [drew, issue, Body.Inv]

theorem pollInvalidate (h : s.Inv) (w : CtxId) : (s.pollInvalidate w).Inv := by
  unfold State.pollInvalidate
  grind [dropEntries, finishPark]

theorem trip (h : s.Inv) (group : Nat) : (s.trip group).Inv := by
  unfold State.trip
  grind [modCore, takeSpill, foldl, foldlFst]

theorem watchdog (h : s.Inv) (group : Nat) : (s.watchdog group).Inv := by
  unfold State.watchdog
  grind [modGroup, setGroup, trip]

/-! ### Load -/

theorem clearBerth (h : s.Inv) (l : Launch) : (s.clearBerth l).Inv := by
  unfold State.clearBerth
  grind [modCore, foldl, foldlFst, others]

theorem dropSweeps (h : s.Inv) (b : Berth) : (s.dropSweeps b).Inv := h.others ..
theorem freshBerth (h : s.Inv) (l : Launch) (d : LaunchDesc) (b : Berth) : (s.freshBerth l d b).Inv := (h.foldl (fun _ _ h1 => h1.modCore ..) _).foldl (fun _ _ h1 => h1.setCluster ..) _

theorem controllerWrite (tenant va fuel : Nat) (bs : List Byte) (h : s.Inv) : (s.controllerWrite tenant va fuel bs).1.Inv := by
  induction fuel generalizing s va bs with
  | zero => exact h
  | succ fuel ih =>
    unfold State.controllerWrite
    grind [lookup, writePage]

theorem pagesAs (tenant va : Nat) (good : LookEntry → Nat → Bool) (fuel n : Nat) (h : s.Inv) : (s.pagesAs tenant va good fuel n).1.Inv := by
  induction fuel generalizing s va n with
  | zero => exact h
  | succ fuel ih =>
    unfold State.pagesAs
    grind [lookup]

theorem placeSection (h : s.Inv) (l : Launch) (d : LaunchDesc) (b : Berth) (x : Section) : (s.placeSection l d b x).1.Inv := by
  unfold State.placeSection
  grind [controllerWrite, pagesAs, writeMem, foldl, foldlFst]

theorem placeStore (h : s.Inv) (tenant die off : Nat) (x : Section) : (s.placeStore tenant die off x).1.Inv := by
  unfold State.placeStore
  grind [pagesAs, writeMem]

theorem placeStores (h : s.Inv) (tenant : Nat) (d : LaunchDesc) (b : Berth) (ms : List Module) : (s.placeStores tenant d b ms).1.Inv := by
  unfold State.placeStores
  grind [placeStore, foldl, foldlFst]

theorem placeSections (h : s.Inv) (l : Launch) (d : LaunchDesc) (b : Berth) : (s.placeSections l d b).1.Inv := by
  unfold State.placeSections
  grind [placeSection, placeStores, foldl, foldlFst]

theorem loaderWrites (h : s.Inv) (tenant : Nat) (files : List ModuleFile) : (s.loaderWrites tenant files).Inv := by
  unfold State.loaderWrites
  grind [controllerWrite, foldl, foldlFst]

theorem installHandlers (h : s.Inv) (l : Launch) (d : LaunchDesc) : (s.installHandlers l d).1.Inv := by
  unfold State.installHandlers
  grind [controllerWrite]

theorem encodePage (h : s.Inv) (tenant va : Nat) (a : Attr) : (s.encodePage tenant va a).Inv := by
  unfold State.encodePage
  grind [lookup, zeroMap]

theorem setPageAttr (h : s.Inv) (tenant page : Nat) (a : Attr) : (s.setPageAttr tenant page a).1.Inv := by
  unfold State.setPageAttr
  grind [dropEntries, encodePage, writeMem]

theorem submitCard (h : s.Inv) (w : CtxId) (va : Word) : (s.submitCard w va).1.Inv := by
  unfold State.submitCard
  grind [readDws, submitTask]

theorem stageRow (h : s.Inv) (w : CtxId) (va : Word) : (s.stageRow w va).1.Inv := by
  unfold State.stageRow
  grind [defineStages, readDws]

theorem variableRow (h : s.Inv) (w : CtxId) (va : Word) : (s.variableRow w va).1.Inv := by
  unfold State.variableRow
  grind [defineVar, readDws]

theorem rowAt (h : s.Inv) (l : Launch) (d : LaunchDesc) (r : LoadRow) (core : Nat) : (s.rowAt l d r core).1.Inv := by
  unfold State.rowAt
  grind [modCore, setPageAttr, setTagAt, stageRow, submitCard, variableRow, foldl, foldlFst]

theorem depRow (h : s.Inv) (b : Berth) (r : LoadRow) : (s.depRow b r).1.Inv := by
  unfold State.depRow
  grind [appendDep]

theorem rowsStep (h : s.Inv) (l : Launch) (d : LaunchDesc) (b : Berth) (rows : List LoadRow) (kind : Nat) : (s.rowsStep l d b rows kind).1.Inv := by
  unfold State.rowsStep
  grind [depRow, rowAt, foldl, foldlFst]

theorem allRows (h : s.Inv) (l : Launch) (d : LaunchDesc) (b : Berth) (rows : List LoadRow) : (s.allRows l d b rows).1.Inv := by
  unfold State.allRows
  grind [installHandlers, rowsStep, foldl, foldlFst]

theorem startControl (h : s.Inv) (d : LaunchDesc) (core : Nat) : (s.startControl d core).Inv := h.startIn ..
theorem failLoad (h : s.Inv) (l : Launch) (cause : optParam Nat 4) : (s.failLoad l cause).Inv := (h.clearBerth ..).failLaunch ..
theorem readyToIssue (h : s.Inv) (l : Launch) (d : LaunchDesc) (b : Berth) : (s.readyToIssue l d b).Inv := (h.foldl (fun _ _ h1 => h1.foldl (fun _ _ h2 => h2.fetchLine ..) _) _).setLaunch ..

theorem finishLoad (h : s.Inv) (l : Launch) (d : LaunchDesc) (b : Berth) : (s.finishLoad l d b).Inv := by
  unfold State.finishLoad
  grind [failLoad, readTables, readyToIssue, rowsStep, startControl, foldl, foldlFst]

theorem endLoad (h : s.Inv) (l : Launch) (d : LaunchDesc) (b : Berth) (t : Option Timetable) : (s.endLoad l d b t).Inv := by
  unfold State.endLoad
  grind [finishLoad, setLaunch]

theorem loadFresh (h : s.Inv) (l : Launch) (d : LaunchDesc) (b : Berth) : (s.loadFresh l d b).Inv := by
  unfold State.loadFresh
  grind [allRows, endLoad, failLoad, freshBerth, placeSections, readTables]

theorem timetableIn (h : s.Inv) (l : Launch) (d : LaunchDesc) (b : Berth) : (s.timetableIn l d b).Inv := iteInduction (fun _ => h.finishLoad ..) (fun _ => h)

theorem offerTimetable (h : s.Inv) : (s.offerTimetable).Inv := by
  unfold State.offerTimetable
  grind [foldl, foldlFst, others]

theorem stopLoad (h : s.Inv) (l : Launch) (cancel : Bool) : (s.stopLoad l cancel).Inv := iteInduction (fun _ => (h.clearBerth ..).failLaunch ..) (fun _ => (h.clearBerth ..).reenterStore ..)

/-! ### Image -/

theorem writeOverflow (h : s.Inv) (tenant : Nat) (b : Berth) (dies : KMap DieImage) (core : Nat) (k : Core) : (s.writeOverflow tenant b dies core k).Inv := iteInduction (fun _ => h) (fun _ => h.controllerWrite ..)

/-! ### Halt -/

theorem requestPreempt (h : s.Inv) (lid : Nat) (cancel : Bool) : (s.requestPreempt lid cancel).Inv := by
  unfold State.requestPreempt
  grind [post, setLaunch, stopLoad]

theorem haltCtx (h : s.Inv) (w : CtxId) : (s.haltCtx w).Inv := iteInduction (fun _ => h.cancelPark ..) (fun _ => h)
theorem haltCore (h : s.Inv) (core : Nat) : (s.haltCore core).Inv := ((h.foldl (fun _ _ h1 => h1.haltCtx ..) _).modCore ..).others ..

theorem haltCopy (h : s.Inv) (cl : Nat) : (s.haltCopy cl).Inv := by
  unfold State.haltCopy
  grind [copyPieces, endJob, modCluster, others]

theorem haltCluster (h : s.Inv) (cl : Nat) : (s.haltCluster cl).Inv := (iteInduction (fun _ => (h.foldl (fun _ _ h1 => h1.modCore ..) _).modCluster ..) (fun _ => h)).haltCopy ..

theorem haltTasks (h : s.Inv) (die lid : Nat) : (s.haltTasks die lid).Inv := by
  unfold State.haltTasks
  grind [abortTask, modVar, foldl, foldlFst]

theorem takeBoardings (h : s.Inv) (l : Launch) : (s.takeBoardings l).1.Inv := h.others ..
theorem setImage (h : s.Inv) (i : SaveImage) : (s.setImage i).Inv := h.others ..

theorem stopIssue (h : s.Inv) (l : Launch) (b : Berth) : (s.stopIssue l b).Inv := by
  unfold State.stopIssue
  grind [haltCluster, haltCore, haltTasks, setImage, takeBoardings, foldl, foldlFst, others]

theorem execPreemptionRequest (h : s.Inv) (lid : Nat) : NextInv (Machine.execPreemptionRequest lid s) := by
  unfold Machine.execPreemptionRequest
  grind [setLaunch, stopIssue, NextInv]

theorem expedite (h : s.Inv) (l : Launch) : (s.expedite l).Inv := iteInduction (fun _ => h.others ..) (fun _ => h)

theorem writeImage (h : s.Inv) (l : Launch) (i : SaveImage) : (s.writeImage l i).Inv := by
  unfold State.writeImage
  grind [setImage, writeMem, writeOverflow, foldl, foldlFst]

theorem saveLaunch (h : s.Inv) (l : Launch) (b : Berth) : (s.saveLaunch l b).Inv := by
  unfold State.saveLaunch
  grind [clearBerth, complete, failLaunch, modCore, reenterStore, writeImage, foldl, foldlFst]

theorem execPreemptionHalt (h : s.Inv) (lid : Nat) : NextInv (Machine.execPreemptionHalt lid s) := by
  unfold Machine.execPreemptionHalt
  grind [saveLaunch, NextInv]

theorem restoreTree (h : s.Inv) (root slot : Nat) (t : Tree) : (s.restoreTree root slot t).Inv := by
  unfold State.restoreTree
  grind [setDie]

theorem lagging (h : s.Inv) (core : Nat) : (s.lagging core).Inv := iteInduction (fun _ => h.modCore ..) (fun _ => h)

theorem restoreBerth (h : s.Inv) (l : Launch) (b : Berth) (i : SaveImage) : (s.restoreBerth l b i).Inv := by
  have hm : Memory.wf (State.restoreBerth.Memory.restore (s.mem.filter (fun e => !inSpad b e.1)) (i.scratch.map (fun e => (movedKey i.berth b e.1, e.2)))) = true :=
    Memory.wf_restore _ (Memory.wf_filter _ h.memory)
  exact (((((h.setMem hm).others ..).foldl (fun _ _ h1 => h1.setCore ..) _).foldl (fun _ _ h1 => h1.lagging ..) _).foldl (fun _ _ h1 => h1.setCluster ..) _).foldl
    (fun _ _ h1 => (h1.modDie ..).foldl (fun _ _ h2 => h2.restoreTree ..) _) _

theorem loadSaved (h : s.Inv) (l : Launch) (d : LaunchDesc) (b : Berth) (i : SaveImage) : (s.loadSaved l d b i).Inv := (h.restoreBerth ..).endLoad ..

theorem execBerthLoad (h : s.Inv) (lid : Nat) (files : List ModuleFile) : NextInv (Machine.execBerthLoad lid files s) := by
  unfold Machine.execBerthLoad
  grind [failLoad, loaderWrites, loadFresh, loadSaved, timetableIn, NextInv, others]

theorem reenterBoarding (h : s.Inv) (q n : Nat) (b : Boarding) : (s.reenterBoarding q n b).Inv := by
  unfold State.reenterBoarding
  grind [modDie]

theorem resumeWrites (h : s.Inv) (core : Nat) : (s.resumeWrites core).Inv := iteInduction (fun _ => (h.modSlice ..).post ..) (fun _ => h)

theorem resumeCluster (h : s.Inv) (cl : Nat) : (s.resumeCluster cl).Inv := by
  unfold State.resumeCluster
  grind [drew, modCluster, modCore, post, raiseStarts, resumeWrites, foldl, foldlFst]

theorem resubmit (h : s.Inv) (cl : Nat) : (s.resubmit cl).Inv := iteInduction (fun _ => h) (fun _ => h.foldl (fun _ _ h1 => ((h1.modCluster ..).submitCrossing ..).modCluster ..) _)
theorem resumeBarriers (h : s.Inv) (b : Berth) : (s.resumeBarriers b).Inv := (h.foldl (fun _ _ h1 => h1.sendMesh ..) _).foldl (fun _ _ h1 => h1.foldl (fun _ _ h2 => iteInduction (fun _ => h2.tagComplete ..) (fun _ => h2)) _) _

theorem resumeLaunch (h : s.Inv) (l : Launch) (b : Berth) : (s.resumeLaunch l b).Inv := by
  unfold State.resumeLaunch
  grind [post, reenterBoarding, resubmit, resumeBarriers, resumeCluster, foldl, foldlFst, others]

theorem go (h : s.Inv) (l : Launch) (d : LaunchDesc) (b : Berth) : (s.go l d b).Inv := iteInduction (fun _ => ((h.setLaunch ..).foldl (fun _ _ h1 => h1.modCore ..) _).resumeLaunch ..) (fun _ => (h.setLaunch ..).foldl (fun _ _ h1 => h1.modCore ..) _)
theorem place (h : s.Inv) (l : Launch) (b : Berth) : (s.place l b).Inv := (((((h.leaveStore ..).dropSweeps ..).others ..).setLaunch ..).post ..).drew ..

theorem placeHead (h : s.Inv) (die : Nat) : (s.placeHead die).Inv := by
  unfold State.placeHead
  grind [failLaunch, modDie, place, requestPreempt, setLaunch]

theorem execQuantumExhausted (h : s.Inv) (lid : Nat) : NextInv (Machine.execQuantumExhausted lid s) := by
  unfold Machine.execQuantumExhausted
  grind [setLaunch, NextInv]

theorem endLaunch (h : s.Inv) (l : Launch) : (s.endLaunch l).Inv := ((h.clearBerth ..).others ..).complete ..

theorem checkEnd (h : s.Inv) (lid : Nat) : (s.checkEnd lid).Inv := by
  unfold State.checkEnd
  grind [endLaunch]

theorem launchCycle (h : s.Inv) (lid : Nat) : (s.launchCycle lid).Inv := by
  unfold State.launchCycle
  grind [expedite, go, saveLaunch, setLaunch]

theorem launchesCycle (h : s.Inv) : (s.launchesCycle).Inv := by
  unfold State.launchesCycle
  grind [checkEnd, launchCycle, offerTimetable, placeHead, writeActfc, foldl, foldlFst]

/-! ### Power -/

theorem wakeCore (h : s.Inv) (core : Nat) : (s.wakeCore core).Inv := h.modCore ..

theorem powerDown (h : s.Inv) (core : Nat) : (s.powerDown core).Inv := by
  unfold State.powerDown
  grind [modCore]

theorem powerStep (h : s.Inv) (core : Nat) : (s.powerStep core).Inv := by
  unfold State.powerStep
  grind [modCore, powerDown, wakeCore]

theorem countQuiet (h : s.Inv) (core : Nat) : (s.countQuiet core).Inv := iteInduction (fun _ => h) (fun _ => iteInduction (fun _ => h) (fun _ => h.modCore ..))
theorem gateRouter (h : s.Inv) (core : Nat) : (s.gateRouter core).Inv := iteInduction (fun _ => h.modCore ..) (fun _ => h)
theorem countFlits (h : s.Inv) (core : Nat) : (s.countFlits core).Inv := (iteInduction (fun _ => h) (fun _ => h.modCore ..)).gateRouter ..
theorem ungate (h : s.Inv) (core : Nat) : (s.ungate core).Inv := iteInduction (fun _ => h.modCore ..) (fun _ => h)

/-! ### Faults -/

theorem noteError (h : s.Inv) (core : Nat) (check : Bool) : (s.noteError core check).Inv := h.modDie ..
theorem retirePair (h : s.Inv) (die pair : Nat) : (s.retirePair die pair).Inv := iteInduction (fun _ => h) (fun _ => (h.setDie ..).logFault ..)
theorem retirePairs (h : s.Inv) : (s.retirePairs).Inv := h.foldl (fun _ _ h1 => h1.foldl (fun _ _ h2 => h2.retirePair ..) _) _

theorem checkLaunch (h : s.Inv) (lid : Nat) (intact : Bool) : (s.checkLaunch lid intact).Inv := by
  unfold State.checkLaunch
  grind [clearBerth, complete, haltCluster, modCore, requestPreempt, foldl, foldlFst, others]

theorem logCheck (h : s.Inv) (core : Nat) : (s.logCheck core).Inv := h.logFault ..
theorem machineCheck (h : s.Inv) (core : Nat) (intact : Bool) : (s.machineCheck core intact).Inv := (((h.logCheck ..).noteError ..).wakeCore ..).checkLaunch ..
theorem wakeDie (h : s.Inv) (die : Nat) : (s.wakeDie die).Inv := h.foldl (fun _ _ h1 => h1.wakeCore ..) _
theorem dieCheck (h : s.Inv) (die : Nat) : (s.dieCheck die).Inv := (((h.logFault ..).modDie ..).wakeDie ..).foldl (fun _ _ h1 => (h1.checkLaunch ..).drew ..) _

theorem execLinkFlitRefused (h : s.Inv) (link a b : Nat) (again : Bool) : NextInv (Machine.execLinkFlitRefused link a b again s) := by
  unfold Machine.execLinkFlitRefused
  grind [dieCheck, logFault, NextInv, others]

theorem logError (h : s.Inv) (key type : Nat) : (s.logError key type).Inv := by
  unfold State.logError
  grind [logFault]

theorem scrubCell (h : s.Inv) (key : Nat) (finding : EccFinding) : (s.scrubCell key finding).Inv := by
  unfold State.scrubCell
  grind [logError, noteError, others]

theorem scrubWord (h : s.Inv) (core : Nat) (finding : EccFinding) : (s.scrubWord core finding).Inv := by
  unfold State.scrubWord
  grind [drew, logFault, machineCheck, noteError]

theorem scrubHeader (h : s.Inv) (pair chunk : Nat) (finding : EccFinding) : (s.scrubHeader pair chunk finding).Inv := by
  unfold State.scrubHeader
  grind [logFault, others]

theorem scrubController (h : s.Inv) (die : Nat) (finding : EccFinding) : (s.scrubController die finding).Inv := by
  unfold State.scrubController
  grind [dieCheck, logFault]

theorem execScrub (h : s.Inv) (at_ : EccPlace) (finding : EccFinding) : NextInv (Machine.execScrub at_ finding s) := by
  unfold Machine.execScrub
  grind [scrubCell, scrubController, scrubHeader, scrubWord, NextInv]

theorem answered (h : s.Inv) (core : Nat) (beyond : Bool) : (s.answered core beyond).Inv := iteInduction (fun _ => h.modCore ..) (fun _ => h)

theorem dropEntry (h : s.Inv) (w : CtxId) (d : Dest) : (s.dropEntry w d).Inv := by
  unfold State.dropEntry
  grind [unreserveX, others]

theorem resultLost (h : s.Inv) (w : CtxId) (d : Dest) (va : Word) (tell : Bool) : (s.resultLost w d va tell).Inv := iteInduction (fun _ => (h.dropEntry ..).faultResult ..) (fun _ => ((h.dropEntry ..).cancelPark ..).modCtx ..)

theorem loseReply (h : s.Inv) (w : CtxId) (d : Dest) (va : Word) (tell : Bool) : (s.loseReply w d va tell).Inv := by
  unfold State.loseReply
  grind [answered, resultLost, others]

theorem unstore (h : s.Inv) (w : CtxId) (va : Word) : (s.unstore w va).Inv := by
  unfold State.unstore
  grind [writePhys, others]

theorem tellPosted (h : s.Inv) (l : List Issuer) (va : Word) (tell : Bool) : (s.tellPosted l va tell).Inv := iteInduction (fun _ => h.foldl (fun _ _ h1 => h1.post ..) _) (fun _ => h)

theorem losePosted (h : s.Inv) (w : CtxId) (va : Word) (tell : Bool) : (s.losePosted w va tell).Inv := by
  unfold State.losePosted
  grind [ackMembers, acknowledge, modCtx, resultsHome, tellPosted, unreserveX, unstore, others]

theorem loseContribution (h : s.Inv) (router die slot chunk step : Nat) : (s.loseContribution router die slot chunk step).Inv := by
  unfold State.loseContribution
  grind [drew, post, others]

theorem loseParked (h : s.Inv) (w : CtxId) (va : Word) (tell : Bool) : (s.loseParked w va tell).Inv := by
  unfold State.loseParked
  grind [cancelPark, raiseParked, others]

theorem execTenantFieldError (h : s.Inv) (w : CtxId) (va : Word) (p : Packet) (copyGood : Bool) : NextInv (Machine.execTenantFieldError w va p copyGood s) := by
  unfold Machine.execTenantFieldError
  grind [drew, endJob, failMatrix, logFault, loseContribution, loseParked, losePosted, loseReply, machineCheck, modCluster, NextInv]

/-! ### Host -/

theorem submitLreq (h : s.Inv) (die : Nat) (v : Word) : (s.submitLreq die v).Inv := by
  unfold State.submitLreq
  grind [enterLaunch, modDie]

theorem preemptNamed (h : s.Inv) (die : Nat) (v : Word) : (s.preemptNamed die v).Inv := iteInduction (fun _ => h.requestPreempt ..) (fun _ => h)
theorem enterImage (h : s.Inv) (die : Nat) (hop : ImageHead) (i : SaveImage) (t : Option Timetable) : (s.enterImage die hop i t).Inv := ((h.others ..).setImage ..).reenterStore ..

theorem restoreImage (h : s.Inv) (die : Nat) (v : Word) : (s.restoreImage die v).Inv := by
  unfold State.restoreImage
  grind [complete, enterImage, readTables]

theorem beginInval (h : s.Inv) (die : Nat) (v : Word) : (s.beginInval die v).Inv := (h.modDie ..).drew ..
theorem endInvals (h : s.Inv) (die : Nat) : (s.endInvals die).Inv := iteInduction (fun _ => h.foldl (fun _ _ h1 => h1.dropEntries ..) _) (fun _ => (h.foldl (fun _ _ h1 => h1.dropEntries ..) _).modDie ..)

theorem releaseRequests (h : s.Inv) (die : Nat) : (s.releaseRequests die).Inv := by
  unfold State.releaseRequests
  grind [modDie, sendRequest, foldl, foldlFst]

theorem writePrqhead (h : s.Inv) (die : Nat) (v : Word) : (s.writePrqhead die v).Inv := (h.modDie ..).releaseRequests ..

theorem retryAccess (h : s.Inv) (cl : Nat) (w : EngineWait) : (s.retryAccess cl w).Inv := by
  unfold State.retryAccess
  grind [modSlice, post, raiseStarts, restartRow]

theorem presolve (h : s.Inv) (die : Nat) (v : Word) : (s.presolve die v).Inv := iteInduction (fun _ => h.modDie ..) (fun _ => ((h.modDie ..).foldl (fun _ _ h1 => h1.modCluster ..) _).foldl (fun _ _ h1 => h1.retryAccess ..) _)
theorem writeFqbase (h : s.Inv) (die : Nat) (v : Word) : (s.writeFqbase die v).Inv := iteInduction (fun _ => h.modDie ..) (fun _ => ((h.modDie ..).foldl (fun _ _ h1 => h1.ringFault ..) _).modDie ..)

theorem writeHostReg (h : s.Inv) (die off : Nat) (v : Word) : (s.writeHostReg die off v).Inv := by
  unfold State.writeHostReg
  grind [beginInval, preemptNamed, presolve, restoreImage, setDie, submitLreq, writeFqbase, writePrqhead]

theorem pageFollowed (h : s.Inv) (f : Nat → Nat) (owner : Nat) : (s.pageFollowed f owner).Inv := by
  have hc := (h.mapCores (fun k => k.followed f)).others
  unfold State.pageFollowed
  dsimp only
  split_ifs
  · exact hc ..
  · exact (hc ..).modDie ..

theorem carry (h : s.Inv) (old new n owner : Nat) : (s.carry old new n owner).Inv :=
  ((h.setMem (Memory.wf_writeBytes _ _ h.memory)).pageFollowed ..).others ..

theorem pageMoved (h : s.Inv) (home tenant va owner frame : Nat) (l : Leaf) : (s.pageMoved home tenant va owner frame l).Inv := by
  have hm := h.setMem (Memory.wf_writeBytes l.addr (leBytes 8 (movedLeaf home owner frame l.raw)) h.memory)
  unfold State.pageMoved
  exact (hm.dropEntries ..).modDie ..

theorem migratePage (h : s.Inv) (home tenant va owner frame : Nat) : (s.migratePage home tenant va owner frame).Inv := by
  unfold State.migratePage
  grind [carry, pageMoved]

theorem migrateLine (h : s.Inv) (die : Nat) : (s.migrateLine die).Inv := by
  unfold State.migrateLine
  grind [carry, drew, modDie, pageMoved]

theorem interfacesCycle (h : s.Inv) : (s.interfacesCycle).Inv := h.foldl (fun _ _ h1 => (h1.endInvals ..).migrateLine ..) _

theorem hostWrite (tenant va fuel : Nat) (bs : List Byte) (h : s.Inv) : (s.hostWrite tenant va fuel bs).Inv := by
  induction fuel generalizing s va bs with
  | zero => exact h
  | succ fuel ih =>
    unfold State.hostWrite
    grind [translate, writePage]

theorem execRdmaRead (h : s.Inv) (tenant : Nat) (va : Word) (len : Nat) : NextInv (Machine.execRdmaRead tenant va len s) := by
  unfold Machine.execRdmaRead
  grind [ferryRead, NextInv, others]

theorem writeMoving (h : s.Inv) (pa : Nat) (bs : List Byte) : (s.writeMoving pa bs).Inv := iteInduction (fun _ => h.foldl (fun _ _ h1 => h1.writePhys ..) _) (fun _ => h.writePhys ..)

theorem execCxlMemAccess (h : s.Inv) (pa : Nat) (write : Option (List Byte)) (len : Nat) : NextInv (Machine.execCxlMemAccess pa write len s) := by
  unfold Machine.execCxlMemAccess
  grind [writeMoving, NextInv, others]

theorem moduleReset (h : s.Inv) : s.moduleReset.Inv := ⟨Memory.wf_filter _ h.memory, List.Pairwise.nil⟩
theorem respond (h : s.Inv) (bs : List Byte) : (s.respond bs).Inv := h.others ..

/-! ### Vector -/

theorem vecOp (h : s.Inv) (i : Instr) (sw : Bool) (lat : Nat) (srcs : List Dest) (d : Dest) (f : Ctx → List Word → LaneOut) : NextInv (Machine.vecOp i sw lat srcs d f s) := h.issue _ fun _ _ h1 => h1.later ..
theorem rootOp (h : s.Inv) (i : Instr) (sw : Bool) (srcs : List Dest) (d : Dest) (f : Ctx → List Word → LaneOut) : NextInv (Machine.rootOp i sw srcs d f s) := h.issue _ fun _ _ h1 => (h1.modCore ..).later ..
theorem vredOp (h : s.Inv) (i : Instr) (sw : Bool) (ty : LaneTy) (vd va : VReg) (m : MReg) (f : List Nat → FRes) : NextInv (Machine.vredOp i sw ty vd va m f s) := h.vecOp ..

/-! ### Patch -/

theorem execPatCfg (h : s.Inv) (sw : Bool) (a : XReg) : NextInv (Machine.execPatCfg sw a s) := by
  unfold Machine.execPatCfg
  grind [issue, modCore, resolve, Body.Inv]

theorem configurePatch (h : s.Inv) (w : CtxId) (va : Word) (dws : List Word) (sw : Bool) : (s.configurePatch w va dws sw).Inv := by
  unfold State.configurePatch
  grind [finishPark, modCore, raise]

theorem patchFails (h : s.Inv) (w : CtxId) (e : Trap) : (s.patchFails w e).Inv := (h.modCore ..).raise ..

theorem pollPatch (h : s.Inv) (w : CtxId) : (s.pollPatch w).Inv := by
  unfold State.pollPatch
  grind [configurePatch, modCtx, patchFails, readCard]

/-! ### VectorMemory -/

theorem execVmemLd (h : s.Inv) (sw : Bool) (ord : MemOrd) (v : VReg) (m : MReg) (a : XReg) (off : BitVec 10) : NextInv (Machine.execVmemLd sw ord v m a off s) := by
  unfold Machine.execVmemLd
  grind [issue, later, replyOf, resolve, withLines, withPort, Body.Inv]

theorem execVmemSt (h : s.Inv) (sw : Bool) (ord : MemOrd) (v : VReg) (m : MReg) (a : XReg) (off : BitVec 10) : NextInv (Machine.execVmemSt sw ord v m a off s) := by
  unfold Machine.execVmemSt
  grind [issue, resolveStore, storeBody, Body.Inv]

theorem resolvePieces (core : Nat) (va : Word) (n : Nat) (us : List Nat) (h : s.Inv) : (s.resolvePieces core va n us).1.Inv := by
  induction us generalizing s with
  | nil => exact h
  | cons u us ih =>
    unfold State.resolvePieces
    grind [resolve]

theorem resolveScale (h : s.Inv) (core : Nat) (scaleVa : Option Word) : (s.resolveScale core scaleVa).1.Inv := by
  unfold State.resolveScale
  grind [resolve]

theorem planeBody (h : s.Inv) (dst : LaneTy) (f : Fmt) (v : VReg) (m : BitVec 32) (attr : Attr) (q : PlaneHints) (scaleVa : Option Word) (va : Word) :
    (Machine.planeBody dst f v m attr q scaleVa va s).Inv := by
  unfold Machine.planeBody
  dsimp only
  refine iteInduction (fun _ => h) (fun _ => ?_)
  split
  · next e => exact ofEq e (h.resolvePieces ..)
  · next e =>
    have h1 := ofEq e (h.resolvePieces ..)
    split
    · next e => exact ofEq e (h1.resolveScale ..)
    · next e =>
      have h2 := ofEq e (h1.resolveScale ..)
      refine iteInduction (fun _ => h2) (fun _ => iteInduction (fun _ => h2) (fun _ => ?_))
      split
      · exact State.Inv.later h2 ..
      · exact h2.withLines _ _ _ fun _ h3 => h3.withPort _ _ fun _ h4 => (h4.replyOf ..).later ..

theorem formatBody (h : s.Inv) (dst : LaneTy) (f : Fmt) (v : VReg) (m : BitVec 32) (scaleVa : Option Word) (va : Word) : (Machine.formatBody dst f v m scaleVa va s).Inv := by
  unfold Machine.formatBody
  grind [later, planeBody, replyOf, resolve, resolvePieces, withLines, withPort, Body.Inv]

/-! ### Dispatch -/

/-- Every instruction and every event keeps the invariant: each one by the operation that gives it its meaning. -/
theorem exec (h : s.Inv) (i : Instr) : NextInv (Machine.exec i s) := by
  unfold Machine.exec
  cases i with
  | tileReadyFire => exact h.fireEntry ..
  | tileTagStore => exact iteInduction (fun _ => h) (fun _ => h.tagStore ..)
  | tileReadyEntryStore => exact iteInduction (fun _ => h) (fun _ => h.entryStore ..)
  | consume => exact h.consume ..
  | ld => exact h.issue _ fun _ _ h1 => iteInduction (fun _ => h1.waitBody ..) (fun _ => h1.loadBody ..)
  | idxLd => exact h.issue _ fun _ _ h1 => h1.loadBody ..
  | st | idxSt => exact h.issue _ fun _ _ h1 => h1.scalarStore ..
  | resultWrite => exact h.execResultWrite ..
  | storeAcknowledge => exact (iteInduction (fun _ => h.modCore ..) (fun _ => h)).acknowledge ..
  | watchReevaluate => exact h.foldl (fun _ _ h1 => h1.rereadCore ..) _
  | trapEntry => exact iteInduction (fun _ => h.enterTrap ..) (fun _ => h)
  | amoAdd | amoAnd | amoOr | amoXor | amoMin | amoMax | amoMinu | amoMaxu | amoFadd | amoSwap => exact h.amoOp ..
  | amoCas => exact h.issue _ fun _ _ h1 => h1.amoBody ..
  | lockResend => exact iteInduction (fun _ => h.lockPoisoned ..) (fun _ => h.lockArrives ..)
  | lockReevaluate => exact h.execLockReevaluate ..
  | rwlRacq | rwlRrel | rwlWacq | rwlWrel => exact h.rwlOp ..
  | sendOutcome => exact h.execSendOutcome ..
  | amoHomeApply => exact h.execAmoHomeApply ..
  | postedPoisonTrap => exact h.execPostedPoisonTrap ..
  | fenceAcq | fenceRel | fenceAr => exact h.fenceOp ..
  | msgBind => exact h.execMsgBind ..
  | msgUnbind => exact h.issue _ fun _ _ h1 => iteInduction (fun _ => h1) (fun _ => (((iteInduction (fun _ => (h1.others ..).modPort ..) (fun _ => h1.others ..)).freePort ..).modPort ..).laterX ..)
  | msgQlen => exact h.issue _ fun _ _ h1 => iteInduction (fun _ => h1) (fun _ => (iteInduction (fun _ => h1) (fun _ => (h1.drew ..).drew ..)).laterX ..)
  | queueEntryArrival => exact (iteInduction (fun _ => h.spillAccess ..) (fun _ => h)).modPort ..
  | creditReturn => exact h.modPort ..
  | msgSend => exact h.execMsgSend ..
  | messageArrival => exact h.execMessageArrival ..
  | msgOvf | vfCount | jobPoll | xbarRdc | gangStat | frStat => exact h.issue _ fun _ _ h1 => h1.laterX ..
  | barReg => exact h.issue _ fun _ _ h1 => iteInduction (fun _ => h1) (fun _ => (h1.modCtx ..).modBar ..)
  | barWd => exact h.execBarWd ..
  | barArrive => exact h.execBarArrive ..
  | barWait | workYield => exact h.issue _ fun _ _ h1 => iteInduction (fun _ => h1) (fun _ => h1)
  | barSync => exact h.execBarSync ..
  | barWsync => exact h.execBarWsync ..
  | meshPhaseRelease => exact h.foldl (fun _ _ h1 => h1.releaseMesh ..) _
  | wiredTagRelease => exact (h.foldl (fun _ _ h1 => h1.releaseTag ..) _).tagComplete ..
  | vfPush => exact h.execVfPush ..
  | vfPop => exact h.execVfPop ..
  | jobSub => exact h.execJobSub ..
  | jobWait => exact h.issue _ fun _ _ h1 => iteInduction (fun _ => h1.laterX ..) (fun _ => h1.reserveX ..)
  | copyJobComplete => exact h.execCopyJobComplete ..
  | crossbarCycle | stageDraw => exact h.modCluster ..
  | xbarCnt | xbarTerm => exact h.issue _ fun _ _ h1 => iteInduction (fun _ => h1) (fun _ => h1.modCluster ..)
  | xbarPulse | xbarClr | cxStop => exact h.issue _ fun _ _ h1 => h1.modCluster ..
  | workStart => exact h.execWorkStart ..
  | workFork => exact h.issue _ fun _ _ h1 => iteInduction (fun _ => h1.laterX ..) (fun _ => (h1.modCore ..).laterX ..)
  | workJoin => exact h.execWorkJoin ..
  | workExit => exact h.execWorkExit ..
  | workHold | workRelease => exact h.issue _ fun _ _ h1 => (h1.modCore ..).laterX ..
  | workMigrate => exact h.execWorkMigrate ..
  | migrationArrival | forwardedWordArrival => exact h.modCore ..
  | otaskSub => exact h.execOtaskSub ..
  | otaskStat => exact h.issue _ fun _ _ h1 => (h1.laterX ..).drew ..
  | cxDef => exact h.execCxDef ..
  | cxDep => exact h.execCxDep ..
  | cxRun => exact h.issue _ fun _ _ h1 => iteInduction (fun _ => h1) (fun _ => h1.addLate ..)
  | cxRd => exact h.execCxRd ..
  | cxSlope => exact h.execCxSlope ..
  | sampleCapture => exact h.capture ..
  | cxSample => exact h.execCxSample ..
  | crossingSubmit => exact h.submitCrossing ..
  | taskCommit => exact h.foldl (fun _ _ h1 => h1.commitStep ..) _
  | aluAdd | aluSub | aluAnd | aluOr | aluXor | aluAnot | aluSll | aluSrl | aluSra | aluRol | aluMin | aluMax | aluUmin | aluUmax | aluStep2 | aluStep4 | aluStep8 | aluStep64 | aluCmp => exact h.alu2 ..
  | aluLzc | aluTzc | aluOnes | aluSx8 | aluSx16 | aluSx32 | aluZx32 => exact h.alu1 ..
  | aluMul | aluHiss | aluHiuu | aluHisu => exact h.aluMulOp ..
  | aluQuo | aluQuou | aluRmd | aluRmdu => exact h.aluDivOp ..
  | addi | andi | ori | xori | cmpi => exact h.immOp ..
  | lim => exact h.issue _ fun _ _ h1 => h1.writeX ..
  | hintImm | hintImx | hintMod | hintReg => exact h.hintOp ..
  | br => exact h.issue _ fun _ _ h1 => iteInduction (fun _ => h1.transfer ..) (fun _ => h1)
  | jmp | jr => exact h.issue _ fun _ _ h1 => h1.transfer ..
  | lineFetched => exact h.fetchLine ..
  | gangLead | gangFollow | srDrain | sysGate => exact h.issue _ fun _ _ h1 => iteInduction (fun _ => h1) (fun _ => h1.reserveX ..)
  | gangJoin => exact h.execGangJoin ..
  | gangEnd => exact h.issue _ fun _ _ h1 => h1.leaveGang ..
  | boardingRequest => exact h.execBoardingRequest ..
  | cancelRequest => exact h.execCancelRequest ..
  | dockWrite => exact h.moveDock ..
  | lapBoundary | send | firmwareImageWrite | getVersion => exact h.others ..
  | ferryStep => exact h.ferryStep ..
  | ringPause => exact h.ringPause ..
  | holdback => exact h.holdback ..
  | frspeedWrite => exact h.writeFrspeed ..
  | refreshWindow => exact h
  | frBoard => exact h.execFrBoard ..
  | frCancel => exact h.issue _ fun _ _ h1 => (h1.reserveX ..).postPier ..
  | redTree => exact h.execRedTree ..
  | redPut => exact h.execRedPut ..
  | failureNotice => exact h.execFailureNotice ..
  | contributionArrival => exact h.execContributionArrival ..
  | chunkComplete => exact h.execChunkComplete ..
  | redWait => exact h.execRedWait ..
  | redStat => exact h.execRedStat ..
  | redMan => exact h.execRedMan ..
  | mxGang => exact h.execMxGang ..
  | gangBarrierConsume => exact h.execGangBarrierConsume ..
  | jobStart => exact h.startJob ..
  | operationFailure => exact h.execOperationFailure ..
  | matrixOperationComplete => exact h.execMatrixOperationComplete ..
  | rowEnd => exact h.execRowEnd ..
  | drainPathWrite => exact h.execDrainPathWrite ..
  | mxRowout => exact h.execMxRowout ..
  | limiterStep => exact h.limiter ..
  | srDef => exact h.execSrDef ..
  | srPut => exact h.execSrPut ..
  | srDone | srRej => exact h.stageEnd ..
  | srStat => exact h.execSrStat ..
  | startSelector => exact h.select ..
  | taskDispatch => exact h.execTaskDispatch ..
  | resumeRestore => exact h.execResumeRestore ..
  | swapOut => exact h.swapStep ..
  | swapOutComplete => exact h.moverEnd ..
  | stealAttempt => exact h.stealStep ..
  | stealBackoffExpiry => exact h.backoffEnd ..
  | launchAcceptCheck => exact h.acceptCheck ..
  | workLaunch => exact h.execWorkLaunch ..
  | actfcUpdate => exact h.writeActfc ..
  | sysGets => exact h.execSysGets ..
  | sysSets => exact h.issue _ fun _ _ h1 => iteInduction (fun _ => h1) (fun _ => h1.writeReg ..)
  | srseedWrite => exact h.writeSrseed ..
  | barrectWrite => exact h.writeBarrect ..
  | wbartagWrite => exact h.writeWbartag ..
  | sysBrk => exact h.issue _ fun _ _ h1 => (h1.modCtx ..).forward ..
  | sysRet => exact h.issue _ fun _ _ h1 => iteInduction (fun _ => h1.trapReturn ..) (fun _ => h1)
  | sysMret => exact h.issue _ fun _ _ h1 => h1.modCore ..
  | sysInvp => exact h.execSysInvp ..
  | sysInva => exact h.issue _ fun _ _ h1 => iteInduction (fun _ => h1) (fun _ => h1.drew ..)
  | stallWatchdogTrip => exact h.trip ..
  | preemptionRequest => exact h.execPreemptionRequest ..
  | preemptionHalt => exact h.execPreemptionHalt ..
  | berthLoad => exact h.execBerthLoad ..
  | headPlacement => exact h.placeHead ..
  | quantumExhausted => exact h.execQuantumExhausted ..
  | launchEnd => exact h.checkEnd ..
  | wake => exact h.wakeCore ..
  | powerDown => exact h.powerDown ..
  | routerClockGate => exact h.gateRouter ..
  | coreRetirement => exact h.retirePair ..
  | machineCheck => exact h.machineCheck ..
  | junctionLimit => exact h.dieCheck ..
  | linkFlitRefused => exact h.execLinkFlitRefused ..
  | scrub => exact h.execScrub ..
  | tenantFieldError => exact h.execTenantFieldError ..
  | lreq => exact h.submitLreq ..
  | preemptlid => exact h.preemptNamed ..
  | restorebase => exact h.restoreImage ..
  | inval => exact h.beginInval ..
  | prqhead => exact h.writePrqhead ..
  | presolve => exact h.presolve ..
  | fqbase => exact h.writeFqbase ..
  | hostRegisterWrite => exact h.writeHostReg ..
  | homeTranslation => exact iteInduction (fun _ => h.translate ..) (fun _ => h)
  | pageMigration => exact h.migratePage ..
  | rdmaWrite => exact h.hostWrite ..
  | rdmaRead => exact h.execRdmaRead ..
  | cxlMemAccess => exact h.execCxlMemAccess ..
  | moduleReset => exact h.moduleReset ..
  | getCapabilities | negotiateAlgorithms => exact iteInduction (fun _ => h.others ..) (fun _ => h.respond ..)
  | getDigests | getCertificate | challenge | getMeasurements => exact h.respond ..
  | vopAdd | vopAddSx | vopSub | vopSubSx | vopMul | vopMulSx | vopMin | vopMinSx | vopMax | vopMaxSx | vopAnd | vopAndSx | vopOr | vopOrSx | vopXor | vopXorSx | vopSll | vopSllSx | vopSrl | vopSrlSx | vopSra | vopSraSx | vopMulh | vopMulhSx | vopAbs | vopNeg | vfmaFma | vfmaFmaSx | vfmaFms | vfmaFmsSx | vfmaFnma | vfmaFnmaSx | vfmaFnms | vfmaFnmsSx | vfmaDot2 | vfmaDot2Sx | vfmaDot4 | vfmaDot4Sx | vcmp | vcmpSx | vredPerm | vredRot | vcvt | vmovMov | vmovSel | vmovBcast | vmovExt | vmovGetm | vmovSetm | vmovZero => exact h.vecOp ..
  | vopDiv | vopDivSx | vopSqrt => exact h.rootOp ..
  | vredSum | vredMin | vredMax | vredAnd | vredOr | vredXor => exact h.vredOp ..
  | patCfg => exact h.execPatCfg ..
  | patExec => exact h.issue _ fun _ _ h1 => h1.later ..
  | vmemLd => exact h.execVmemLd ..
  | vmemSt => exact h.execVmemSt ..
  | vmemLdf | vmemLdb => exact h.issue _ fun _ _ h1 => h1.formatBody ..

/-! ### Cycle -/

theorem passedOver (h : s.Inv) (cursor : Nat) (w : CtxId) : (s.passedOver cursor w).Inv := h.others ..

theorem portDecided (h : s.Inv) (w : CtxId) : (s.portDecided w).Inv := by
  unfold State.portDecided
  grind [modCtx, patchFails, raiseParked, readServed, tryExit]

theorem decide? (h : s.Inv) {t : State} (e : s.decide? = some t) : t.Inv := by
  unfold State.decide? at e
  grind [portDecided, others]

theorem slotUsed (h : s.Inv) (w : CtxId) : (s.slotUsed w).Inv := (h.modCore ..).others ..

theorem issueWord (h : s.Inv) (cursor : Nat) (w : CtxId) (word : BitVec 32) : NextInv (s.issueWord cursor w word) := by
  unfold State.issueWord
  split
  · exact (h.decodeFails ..).slotUsed ..
  · rename_i i _
    have hx : NextInv (Machine.exec i { s with who := w, stalled := false }) := (h.others ..).exec i
    split_ifs
    · exact h.hurry w
    · cases e : Machine.exec i { s with who := w, stalled := false } with
      | next t =>
        rw [e] at hx
        exact iteInduction (motive := State.Inv) (fun _ => State.Inv.passedOver hx ..) (fun _ => (State.Inv.followed hx ..).slotUsed ..)
      | fault f => trivial
      | refused r => trivial

theorem fetchHeld (h : s.Inv) (w : CtxId) (line key : Nat) : (s.fetchHeld w line key).Inv := by
  unfold State.fetchHeld
  grind [codeWord, modCtx, Fetched.Inv]

theorem fetch (h : s.Inv) (w : CtxId) : (s.fetch w).Inv := by
  unfold State.fetch
  grind [caughtUp, drew, fetchHeld, modCore, post, resolveFetch, Fetched.Inv]

theorem tryCandidate (h : s.Inv) (cursor : Nat) (w : CtxId) : NextInv (s.tryCandidate cursor w) := by
  have hf := h.fetch w
  unfold State.tryCandidate
  split_ifs
  · exact h.deliverPoison w
  · cases e : s.fetch w with
    | busy => exact h.others ..
    | begin t => rw [e] at hf; exact State.Inv.others hf ..
    | trap t p => rw [e] at hf; exact (State.Inv.raise hf ..).slotUsed ..
    | word t word => rw [e] at hf; exact State.Inv.issueWord hf ..

theorem poll (h : s.Inv) (w : CtxId) : (s.poll w).Inv := by
  unfold State.poll
  grind [pollCxDef, pollDrain, pollFollow, pollFrBoard, pollGate, pollInvalidate, pollJobSub, pollJoinGang, pollLaunch, pollLead, pollMatrix, pollMigrate, pollOtaskSub, pollPatch, pollRedPut, pollRedTree, pollRedWait, pollSample, pollSrDef, pollSync, pollYield, tryExit]

theorem beginCore (h : s.Inv) (core : Nat) : (s.beginCore core).Inv := by
  unfold State.beginCore
  grind [moverEnd, poll, powerStep, stopGang, ungate, foldl, foldlFst]

theorem beginCluster (h : s.Inv) (cl : Nat) : (s.beginCluster cl).Inv := iteInduction (fun _ => ((((h.acceptJobs ..).startJobs ..).noteGang ..).modCluster ..).foldl (fun _ _ h1 => iteInduction (fun _ => h1.unstall ..) (fun _ => h1)) _) (fun _ => h.acceptJobs ..)
theorem startCore (h : s.Inv) (core : Nat) : (s.startCore core).Inv := iteInduction (fun _ => h) (fun _ => (h.select ..).swapStep ..)
theorem stealCore (h : s.Inv) (core : Nat) : (s.stealCore core).Inv := iteInduction (fun _ => h.stealMove ..) (fun _ => ((h.stealMove ..).backoffEnd ..).stealStep ..)

theorem beginCycle (h : s.Inv) : (s.beginCycle).Inv := by
  unfold State.beginCycle
  grind [beginCluster, beginCore, commitStep, interfacesCycle, launchesCycle, limiter, moveSweeps, retirePairs, ringCycle, startCore, stealCore, submitAll, foldl, foldlFst, others]

theorem landLate (h : s.Inv) : (s.landLate).Inv := by
  unfold State.landLate
  grind [startUnit, writeLate, foldl, foldlFst, others]

theorem tick (h : s.Inv) : (s.tick).Inv := by
  unfold State.tick
  grind [commitsAtEnd, countFlits, countQuiet, landLate, moveDock, ringCycle, watchdog, foldl, foldlFst, others]

theorem searched (h : s.Inv) : s.searched.Inv := by
  unfold State.searched
  cases e : s.decide? with
  | none => rw [Option.getD_none]; exact h.tick
  | some t => rw [Option.getD_some]; exact h.decide? e

theorem advance (h : s.Inv) : NextInv s.advance := by
  unfold State.advance
  split
  · split_ifs
    · exact (h.others ..).exec _
    · trivial
    · exact h.beginCycle
    · split
      · exact h.tryCandidate ..
      · exact h.searched
  · split_ifs
    · exact h.beginCycle
    · split
      · exact h.tryCandidate ..
      · exact h.searched

/-! ### Step -/

theorem step (h : s.Inv) : NextInv (Machine.step s) := h.advance ..

end Inv

end State

end Sys2Proof.Machine

/-- Settles O60: every operation that a step is made of keeps the invariant. -/
theorem Sys2Proof.Machine.stepKeepsInvariant : Obligations.StepKeepsInvariant := by
  intro s t h e
  have hs := h.step
  rw [e] at hs
  exact hs
end

section
/-! SUPPORT. What a scalar word leaves as it was (00 R6; 04 R83, R84, R87). -/

namespace Sys2Proof.Machine

variable {s t : State} {sw : Bool} {d a b : XReg}

/-- What a context shows beside x[d], its PC and its standing in the pipeline is the same. -/
structure Ctx.SameBut (d : XReg) (x y : Ctx) : Prop where
  getX : ∀ r : XReg, r ≠ d → y.getX r = x.getX r
  v : y.v = x.v
  m : y.m = x.m
  flags : y.flags = x.flags
  intrap : y.intrap = x.intrap
  whtrap : y.whtrap = x.whtrap
  winhaz : y.winhaz = x.winhaz
  trapCause : y.trapCause = x.trapCause
  trapPc : y.trapPc = x.trapPc
  trapVal : y.trapVal = x.trapVal
  trapVec : y.trapVec = x.trapVec
  registered : y.registered = x.registered
  unacked : y.unacked = x.unacked

namespace Ctx.SameBut

theorem refl (x : Ctx) : x.SameBut d x := by constructor <;> intros <;> rfl

theorem setX (x : Ctx) (v : Word) : x.SameBut d (x.setX d v) := by
  unfold Ctx.setX
  split_ifs with h0
  · exact refl x
  · exact { refl (d := d) x with getX := fun r hr => by simpa [Ctx.setX, h0] using x.getX_setX_ne hr v }

theorem retire {x y : Ctx} (h : x.SameBut d y) (cycle : Nat) (sw : Bool) (next : Word) (keep : Bool) : x.SameBut d (y.retire cycle sw next keep) := { h with }

theorem outstanding {x y : Ctx} (h : x.SameBut d y) (l : List Outstanding) : x.SameBut d { y with outstanding := l } := { h with }

end Ctx.SameBut

/-- Of what a program or a host reads, only the issuing context differs, and of that only x[d], the PC and its standing in the pipeline. -/
structure State.ScalarFrame (d : XReg) (s t : State) : Prop where
  own : (s.ctx s.who).SameBut d (t.ctx s.who)
  ctx : ∀ w : CtxId, w ≠ s.who → t.ctx w = s.ctx w
  mem : t.mem = s.mem
  clusters : t.clusters = s.clusters
  groups : t.groups = s.groups
  dies : t.dies = s.dies
  ferry : t.ferry = s.ferry
  launches : t.launches = s.launches
  host : t.host = s.host

namespace State.ScalarFrame

theorem afterWord {f : Ctx → Ctx} (h : (s.ctx s.who).SameBut d (f (s.ctx s.who))) : s.ScalarFrame d (s.afterWord sw f) where
  own := by
    rw [State.afterWord, State.after, State.ctx_modCtx]
    exact h.retire ..
  ctx := fun w hw => s.ctx_modCtx_ne hw _
  mem := rfl
  clusters := rfl
  groups := rfl
  dies := rfl
  ferry := rfl
  launches := rfl
  host := rfl

theorem post (h : s.ScalarFrame d t) (due : Nat) (i : Instr) : s.ScalarFrame d (t.post due i) := { h with }

theorem afterScalar (lat : Nat) (p : Producer) (v : Word) : s.ScalarFrame d (s.afterScalar sw lat p d v) := by
  unfold State.afterScalar
  split_ifs
  · exact afterWord (.refl _)
  · exact (afterWord (.outstanding (.refl _) _)).post ..

/-- The divider's own time is nothing that a program reads. -/
theorem of_divBusy {n : Nat} (h : (s.modCore s.who.core (fun k => { k with divBusy := n })).ScalarFrame d t) : s.ScalarFrame d t := by
  have hc : ∀ w, (s.modCore s.who.core (fun k => { k with divBusy := n })).ctx w = s.ctx w := fun w => by
    by_cases hw : w.core = s.who.core
    · simp [State.ctx, hw]
    · simp [State.ctx, State.core_modCore_ne s hw]
  exact { h with own := hc s.who ▸ h.own, ctx := fun w hw => (h.ctx w hw).trans (hc w) }

theorem stalled : s.ScalarFrame d { s with stalled := true } where
  own := .refl _
  ctx := fun _ _ => rfl
  mem := rfl
  clusters := rfl
  groups := rfl
  dies := rfl
  ferry := rfl
  launches := rfl
  host := rfl

end State.ScalarFrame

/-- Fewer operands stand less in the way. -/
theorem State.Clear.mono {srcs dests srcs' dests' : List Dest} (h : s.Clear srcs dests) (hs : srcs' ⊆ srcs) (hd : dests' ⊆ dests) : s.Clear srcs' dests' := by
  have hm : ∀ o, o ∈ srcs' ++ dests' → o ∈ srcs ++ dests := fun o ho => by
    rcases List.mem_append.1 ho with ho | ho
    · exact List.mem_append_left _ (hs ho)
    · exact List.mem_append_right _ (hd ho)
  exact ⟨h.noLead, fun r hr => h.noPort r (hm _ hr), fun o ho hc => h.noHazard o ho (hm _ hc)⟩

theorem State.NoHints.immHints (h : s.NoHints) : s.ImmHints := by
  simp only [State.NoHints, Hints.pending, Bool.or_eq_false_iff, Option.isSome_eq_false_iff, Option.isNone_iff_eq_none] at h
  obtain ⟨⟨⟨-, himx⟩, hmod⟩, hreg⟩ := h
  exact ⟨hmod, hreg, by simp [himx]⟩

/-- A word whose unit is busy is not ready, and no watchdog hears of it (01 R17). -/
theorem issue_held {f : Form} (body : List Word → State → Body) (h : s.Clear f.srcs f.dests) (hb : f.held = true) :
    issue f body s = .next { s with stalled := true } := by
  have hd : ∀ r : XReg, Dest.x r ∈ f.dests → (s.core s.who.core).isPort r = false := fun r hr => h.noPort r (List.mem_append_right _ hr)
  simp [issue, Form.ready, hb, State.notReady, Form.pushes_eq_nil hd]

/-- A divide-family word while the divider is busy. -/
theorem aluDivOp_busy (i : Instr) (f : Word → Word → Word) (h : s.Clear [.x a, .x b] [.x d]) (hb : s.cycle < (s.core s.who.core).divBusy) :
    aluDivOp i sw d a b f s = .next { s with stalled := true } :=
  issue_held _ h (decide_eq_true hb)

/-- A divide-family word while the divider is idle. -/
theorem aluDivOp_clear (i : Instr) (f : Word → Word → Word) (h : s.Clear [.x a, .x b] [.x d]) (hh : s.NoHints) (hb : (s.core s.who.core).divBusy ≤ s.cycle) :
    aluDivOp i sw d a b f s = .next ((s.modCore s.who.core (fun k => { k with divBusy := s.cycle + 21 })).afterScalar sw 20 .unit d
      (f ((s.ctx s.who).getX a) ((s.ctx s.who).getX b))) := by
  have hp : ((s.modCore s.who.core (fun k => { k with divBusy := s.cycle + 21 })).core s.who.core).isPort d = false := by
    rw [State.core_modCore]
    exact h.noPort d (by simp)
  unfold aluDivOp
  rw [issue_clear _ h (Form.checks_eq_none hh (by simp [Form.of]) (by simp [Form.of]) rfl) (decide_eq_false (by omega))]
  simp only [Form.of, xvals_x, xvals_nil, Form.finish_done h.noLead]
  exact congrArg _ (State.retire_laterX hp)

theorem lim_clear (imm : BitVec 20) (h : s.Clear [] [.x d]) (hh : s.ImmHints) :
    execLim sw d imm s = .next (s.afterWord sw (fun c => c.setX d (immS (s.ctx s.who).hints imm.toNat 20 1))) := by
  unfold execLim
  rw [issue_clear (f := Form.imm _ sw [] [.x d]) _ h (Form.checks_imm rfl hh.1 hh.2.1 hh.2.2 rfl rfl rfl) rfl]
  simp only [Form.imm, Form.of, Form.finish_writeX h.noLead (h.noPort d (by simp))]

section
variable (h : s.Clear [.x a, .x b] [.x d]) (hh : s.NoHints)
include h hh

theorem alu2_frame {i : Instr} {f : Word → Word → Word} (e : alu2 i sw d a b f s = .next t) : s.ScalarFrame d t := by
  rw [alu2_clear i f h hh] at e
  cases e
  exact .afterWord (.setX ..)

theorem alu1_frame {i : Instr} {f : Word → Word} (e : alu1 i sw d a f s = .next t) : s.ScalarFrame d t := by
  rw [alu1_clear i f (h.mono (by simp) (by simp)) hh] at e
  cases e
  exact .afterWord (.setX ..)

theorem aluMulOp_frame {i : Instr} {f : Word → Word → Word} (e : aluMulOp i sw d a b f s = .next t) : s.ScalarFrame d t := by
  rw [aluMulOp_clear i f h hh] at e
  cases e
  exact .afterScalar ..

theorem aluDivOp_frame {i : Instr} {f : Word → Word → Word} (e : aluDivOp i sw d a b f s = .next t) : s.ScalarFrame d t := by
  rcases Nat.lt_or_ge s.cycle (s.core s.who.core).divBusy with hb | hb
  · rw [aluDivOp_busy i f h hb] at e
    cases e
    exact .stalled
  · rw [aluDivOp_clear i f h hh hb] at e
    cases e
    exact .of_divBusy (.afterScalar ..)

theorem immOp_frame {i : Instr} {f : Hints → Word → Word} (e : immOp i sw d a f s = .next t) : s.ScalarFrame d t := by
  rw [immOp_clear i f (h.mono (by simp) (by simp)) hh.immHints] at e
  cases e
  exact .afterWord (.setX ..)

theorem lim_frame {imm : BitVec 20} (e : execLim sw d imm s = .next t) : s.ScalarFrame d t := by
  rw [lim_clear imm (h.mono (by simp) (by simp)) hh.immHints] at e
  cases e
  exact .afterWord (.setX ..)

end

end Sys2Proof.Machine

open Sys2Proof.Machine in
/-- Settles O3: each word of the first list is an `alu2`, those of the second are unary, multiplies and divides, those of the third immediate forms and
`lim`; each of these operations has the frame. -/
theorem Sys2Proof.Machine.scalarWordFrame : Obligations.ScalarWordFrame := by
  intro s t sw d a b imm imm11 imm20 c i h hh hi e
  have hf : s.ScalarFrame d t := by
    simp only [List.mem_cons, List.not_mem_nil, or_false] at hi
    unfold exec at e
    rcases hi with hi | hi | hi
    · rcases hi with rfl | rfl | rfl | rfl | rfl | rfl | rfl | rfl | rfl | rfl | rfl | rfl | rfl | rfl | rfl | rfl | rfl | rfl | rfl <;>
        exact alu2_frame h hh e
    · rcases hi with rfl | rfl | rfl | rfl | rfl | rfl | rfl | rfl | rfl | rfl | rfl | rfl | rfl | rfl | rfl
      iterate 7 exact alu1_frame h hh e
      iterate 4 exact aluMulOp_frame h hh e
      all_goals exact aluDivOp_frame h hh e
    · rcases hi with rfl | rfl | rfl | rfl | rfl | rfl
      iterate 5 exact immOp_frame h hh e
      exact lim_frame h hh e
  obtain ⟨hx, hctx, hmem, hclusters, hgroups, hdies, hferry, hlaunches, hhost⟩ := hf
  refine ⟨hx.getX, rfl, fun v => ?_, fun m => ?_, hx.flags, hx.intrap, hx.whtrap, hx.winhaz, hx.trapCause, hx.trapPc, hx.trapVal, hx.trapVec, hx.registered, hx.unacked,
    hctx, fun key => by rw [hmem], hclusters, hgroups, hdies, hferry, hlaunches, hhost⟩
  · rw [Ctx.getV, hx.v]; rfl
  · rw [Ctx.getM, hx.m]; rfl
end

section
/-! SUPPORT. Integer lanes (00 R10, 03 R57; 05 R100, R101): the model's integers against those of `BitVec`. -/

namespace Sys2Proof.Machine

theorem sintN_eq_toInt {n : Nat} (hn : 0 < n) (a : Nat) : sintN n a = (BitVec.ofNat n a).toInt := by
  have h2 : 2 ^ n = 2 * 2 ^ (n - 1) := by rw [← Nat.pow_succ', Nat.succ_eq_add_one, Nat.sub_add_cancel hn]
  rw [BitVec.toInt_eq_toNat_cond, BitVec.toNat_ofNat, sintN]
  simp only [show (2 * (a % 2 ^ n) < 2 ^ n) = (a % 2 ^ n < 2 ^ (n - 1)) by rw [h2]; exact propext (Nat.mul_lt_mul_left (by decide))]

theorem wrapN_eq_toNat (n : Nat) (i : Int) : wrapN n i = (BitVec.ofInt n i).toNat := (BitVec.toNat_ofInt i).symm

theorem satN_eq (n : Nat) (i : Int) : satN n i = max (-(2 ^ (n - 1) : Int)) (min i (2 ^ (n - 1) - 1)) := by
  have : (1 : Int) ≤ 2 ^ (n - 1) := by exact_mod_cast Nat.one_le_two_pow
  simp only [satN, Nat.cast_pow, Nat.cast_ofNat]
  split_ifs <;> omega

/-- What an exact integer becomes with the saturate bit or without. -/
def bounded (n : Nat) (sat : Bool) (i : Int) : Int := if sat then max (-(2 ^ (n - 1) : Int)) (min i (2 ^ (n - 1) - 1 : Int)) else i

theorem narrowInt_eq (n : Nat) (sat : Bool) (i : Int) : narrowInt n sat i = (BitVec.ofInt n (bounded n sat i)).toNat := by
  cases sat <;> simp [narrowInt, bounded, wrapN_eq_toNat, satN_eq]

/-- A lane holds an integer, as n bits, with no flag. -/
def HoldsInt (n : Nat) (r : FRes) (i : Int) : Prop := r.flags = .none ∧ r.bits < 2 ^ n ∧ (BitVec.ofNat n r.bits) = BitVec.ofInt n i

theorem holdsInt_ofInt (n : Nat) (i : Int) : HoldsInt n (.exact (BitVec.ofInt n i).toNat) i :=
  ⟨rfl, BitVec.isLt _, BitVec.ofNat_toNat _ _ |>.trans (BitVec.setWidth_eq _)⟩

theorem holdsInt_narrowInt (n : Nat) (sat : Bool) (i : Int) : HoldsInt n (.exact (narrowInt n sat i)) (bounded n sat i) := by
  rw [narrowInt_eq]
  exact holdsInt_ofInt ..

theorem holdsInt_wrapN (n : Nat) (i : Int) : HoldsInt n (.exact (wrapN n i)) i := by
  rw [wrapN_eq_toNat]
  exact holdsInt_ofInt ..

theorem holdsInt_toInt {n a : Nat} (h : a < 2 ^ n) : HoldsInt n (.exact a) (BitVec.ofNat n a).toInt := ⟨rfl, h, by simp [FRes.exact]⟩

theorem laneWidth_pos (ty : LaneTy) : 0 < ty.width := by cases ty <;> decide

section
variable {ty : LaneTy} {a b c : Nat} (h : fmtOf ty = none)
include h

theorem arithLane_int (ff : Fmt → Rounding → FVal → FVal → FRes) (fi : Int → Int → Int) (sat : Bool) :
    HoldsInt ty.width (arithLane ff fi ty sat a b) (bounded ty.width sat (fi (BitVec.ofNat ty.width a).toInt (BitVec.ofNat ty.width b).toInt)) := by
  simp only [arithLane, h, sintN_eq_toInt (laneWidth_pos ty)]
  exact holdsInt_narrowInt ..

theorem minMaxLane_int (isMax : Bool) (ha : a < 2 ^ ty.width) (hb : b < 2 ^ ty.width) : HoldsInt ty.width (minMaxLane isMax ty a b)
    (if isMax then max (BitVec.ofNat ty.width a).toInt (BitVec.ofNat ty.width b).toInt
      else min (BitVec.ofNat ty.width a).toInt (BitVec.ofNat ty.width b).toInt) := by
  simp only [minMaxLane, h, sintN_eq_toInt (laneWidth_pos ty)]
  cases isMax
  · rw [if_neg Bool.false_ne_true, if_neg Bool.false_ne_true]
    split_ifs with hlt
    · rw [min_eq_right hlt.le]; exact holdsInt_toInt hb
    · rw [min_eq_left (not_lt.1 hlt)]; exact holdsInt_toInt ha
  · rw [if_pos rfl, if_pos rfl]
    split_ifs with hlt
    · rw [max_eq_right hlt.le]; exact holdsInt_toInt hb
    · rw [max_eq_left (not_lt.1 hlt)]; exact holdsInt_toInt ha

theorem absLane_int (sat : Bool) : HoldsInt ty.width (absLane ty sat a) (bounded ty.width sat |(BitVec.ofNat ty.width a).toInt|) := by
  simp only [absLane, h, sintN_eq_toInt (laneWidth_pos ty), Int.natCast_natAbs]
  exact holdsInt_narrowInt ..

theorem negLane_int (sat : Bool) : HoldsInt ty.width (negLane ty sat a) (bounded ty.width sat (-(BitVec.ofNat ty.width a).toInt)) := by
  simp only [negLane, h, sintN_eq_toInt (laneWidth_pos ty)]
  exact holdsInt_narrowInt ..

theorem fmaLane_int (np nc sat : Bool) : HoldsInt ty.width (fmaLane np nc ty sat a b c) (bounded ty.width sat
    ((if np then -((BitVec.ofNat ty.width a).toInt * (BitVec.ofNat ty.width b).toInt) else (BitVec.ofNat ty.width a).toInt * (BitVec.ofNat ty.width b).toInt)
      + (if nc then -(BitVec.ofNat ty.width c).toInt else (BitVec.ofNat ty.width c).toInt))) := by
  simp only [fmaLane, h, sintN_eq_toInt (laneWidth_pos ty)]
  exact holdsInt_narrowInt ..

end

theorem sllLane_int (ty : LaneTy) (a b : Nat) : HoldsInt ty.width (sllLane ty a b) ((BitVec.ofNat ty.width a).toInt * 2 ^ (b % ty.width)) := by
  refine ⟨rfl, Nat.mod_lt _ (by positivity), ?_⟩
  have hp : BitVec.ofInt ty.width (2 ^ (b % ty.width) : Int) = BitVec.ofNat ty.width (2 ^ (b % ty.width)) := by
    rw [← BitVec.ofInt_natCast]; norm_cast
  rw [BitVec.ofInt_mul, BitVec.ofInt_toInt, hp, ← BitVec.ofNat_mul]
  exact BitVec.eq_of_toNat_eq (by simp [sllLane, FRes.exact])

theorem srlLane_int {ty : LaneTy} {a : Nat} (ha : a < 2 ^ ty.width) (b : Nat) : HoldsInt ty.width (srlLane ty a b) ((a : Int) / 2 ^ (b % ty.width)) := by
  refine ⟨rfl, (Nat.div_le_self _ _).trans_lt ha, ?_⟩
  rw [← BitVec.ofInt_natCast]
  simp [srlLane, FRes.exact]

theorem sraLane_int (ty : LaneTy) (a b : Nat) : HoldsInt ty.width (sraLane ty a b) ((BitVec.ofNat ty.width a).toInt / 2 ^ (b % ty.width)) := by
  simp only [sraLane, sintN_eq_toInt (laneWidth_pos ty), Nat.cast_pow, Nat.cast_ofNat]
  exact holdsInt_wrapN ..

theorem mulhLane_int (ty : LaneTy) (a b : Nat) :
    HoldsInt ty.width (mulhLane ty a b) ((BitVec.ofNat ty.width a).toInt * (BitVec.ofNat ty.width b).toInt / 2 ^ ty.width) := by
  simp only [mulhLane, sintN_eq_toInt (laneWidth_pos ty), Nat.cast_pow, Nat.cast_ofNat]
  exact holdsInt_wrapN ..

/-! ### Rounding to a multiple of 2^k (00 R10, 03 R60) -/

theorem roundAt_zero (rm : Rounding) (mag : Nat) (e : Int) : roundAt rm mag e e false = (mag, false) := by simp [roundAt]

/-- The quantum 2^(k + 1) above the value's own exponent: half of it is 2^k. -/
theorem roundAt_above (k : Nat) (e : Int) : ¬ e + ((k + 1 : Nat) : Int) ≤ e ∧ (e + ((k + 1 : Nat) : Int) - e).toNat = k + 1 := by omega

theorem roundAt_rne_succ (mag k : Nat) (e : Int) : (roundAt .rne mag e (e + (k + 1 : Nat)) false).1
    = if 2 ^ k < mag % 2 ^ (k + 1) ∨ mag % 2 ^ (k + 1) = 2 ^ k ∧ mag / 2 ^ (k + 1) % 2 = 1 then mag / 2 ^ (k + 1) + 1 else mag / 2 ^ (k + 1) := by
  obtain ⟨h1, h2⟩ := roundAt_above k e
  simp only [roundAt, h1, if_false, h2]
  simp

/-- m is a multiple of 2^k, in units of 2^k, nearest to mag, and even where two are. -/
def NearestEven (mag k m : Nat) : Prop :=
  (2 * (m * 2 ^ k - mag) ≤ 2 ^ k ∧ 2 * (mag - m * 2 ^ k) ≤ 2 ^ k) ∧ (2 * (m * 2 ^ k - mag) = 2 ^ k ∨ 2 * (mag - m * 2 ^ k) = 2 ^ k → m % 2 = 0)

theorem roundAt_rne_nearest (mag k : Nat) (e : Int) : NearestEven mag k (roundAt .rne mag e (e + k) false).1 := by
  cases k with
  | zero =>
    rw [Nat.cast_zero, add_zero, roundAt_zero]
    simp [NearestEven]
  | succ k =>
    rw [roundAt_rne_succ]
    have hd := Nat.div_add_mod' mag (2 ^ (k + 1))
    have hr := Nat.mod_lt mag (Nat.two_pow_pos (k + 1))
    have hp : 2 ^ (k + 1) = 2 * 2 ^ k := Nat.pow_succ'
    unfold NearestEven
    generalize mag / 2 ^ (k + 1) = m at *
    generalize mag % 2 ^ (k + 1) = r at *
    have hs : (m + 1) * 2 ^ (k + 1) = m * 2 ^ (k + 1) + 2 ^ (k + 1) := Nat.succ_mul ..
    split_ifs
    · simp only [hs]; omega
    · omega

theorem roundAt_rz_below (mag k : Nat) (e : Int) : (roundAt .rz mag e (e + k) false).1 = mag / 2 ^ k := by
  cases k with
  | zero => rw [Nat.cast_zero, add_zero, roundAt_zero]; simp
  | succ k =>
    obtain ⟨h1, h2⟩ := roundAt_above k e
    simp only [roundAt, h1, if_false, h2, Bool.false_eq_true]

/-- Whether the value is no multiple does not depend on the direction. -/
theorem roundAt_inexact (rm : Rounding) (mag k : Nat) (e : Int) : (roundAt rm mag e (e + k) false).2 = true ↔ mag % 2 ^ k ≠ 0 := by
  cases k with
  | zero => rw [Nat.cast_zero, add_zero, roundAt_zero]; simp [Nat.mod_one]
  | succ k =>
    obtain ⟨h1, h2⟩ := roundAt_above k e
    simp only [roundAt, h1, if_false, h2, Bool.false_or, bne_iff_ne]

/-- A multiple of 2^k is the only one nearest to itself. -/
theorem NearestEven.ne_iff {mag k m : Nat} (h : NearestEven mag k m) : mag % 2 ^ k ≠ 0 ↔ m * 2 ^ k ≠ mag := by
  refine not_congr ⟨fun h0 => ?_, fun h0 => by rw [← h0]; exact Nat.mul_mod_left ..⟩
  obtain ⟨⟨h1, h2⟩, -⟩ := h
  obtain ⟨q, rfl⟩ := Nat.dvd_of_mod_eq_zero h0
  have hp := Nat.two_pow_pos k
  rw [Nat.mul_comm (2 ^ k) q] at *
  rcases lt_trichotomy m q with hlt | rfl | hlt
  · have := Nat.mul_le_mul_right (2 ^ k) hlt
    rw [Nat.succ_mul] at this
    omega
  · rfl
  · have := Nat.mul_le_mul_right (2 ^ k) hlt
    rw [Nat.succ_mul] at this
    omega

theorem div_mul_ne_iff (mag k : Nat) : mag % 2 ^ k ≠ 0 ↔ mag / 2 ^ k * 2 ^ k ≠ mag := by
  have := Nat.div_add_mod' mag (2 ^ k)
  omega

end Sys2Proof.Machine
end

section
/-! SUPPORT. Float lanes (03 R52 to R56, R60; 05 R100 to R103): what a pattern of a format decodes to, in terms of its sign and of the rest of its bits,
and what the exact operations answer on NaN, infinities and zeros. -/

namespace Sys2Proof.Machine

/-! ### The patterns of a format -/

namespace Fmt

variable (f : Fmt)

/-- The weight of the sign bit. -/
def top : Nat := 2 ^ (f.eb + f.fb)
/-- A pattern without its sign bit. -/
def mag (x : Nat) : Nat := x % f.top
/-- The sign of a pattern. -/
def minus (x : Nat) : Bool := decide (f.top ≤ x)
/-- The pattern of +∞. -/
def infMag : Nat := (2 ^ f.eb - 1) * 2 ^ f.fb
/-- The integer significand of a finite pattern without its sign bit, and the exponent of its last place. -/
def sig (u : Nat) : Nat := if u / 2 ^ f.fb = 0 then u else 2 ^ f.fb + u % 2 ^ f.fb
def lastExp (u : Nat) : Int := if u / 2 ^ f.fb = 0 then f.emin else (u / 2 ^ f.fb : Nat) - f.bias - f.fb

variable {f} {x u v : Nat}

theorem top_eq : f.top = 2 ^ f.eb * 2 ^ f.fb := Nat.pow_add ..

theorem infMag_lt_top : f.infMag < f.top := by
  rw [top_eq, infMag]
  exact Nat.mul_lt_mul_of_pos_right (Nat.sub_lt (Nat.two_pow_pos _) one_pos) (Nat.two_pow_pos _)

theorem mag_lt_top (x : Nat) : f.mag x < f.top := Nat.mod_lt _ (Nat.two_pow_pos _)

theorem signBit_add_mag (hx : x < 2 * f.top) : f.signBit (f.minus x) + f.mag x = x := by
  unfold signBit mag minus
  change (if decide (f.top ≤ x) = true then f.top else 0) + x % f.top = x
  by_cases h : f.top ≤ x
  · rw [if_pos (decide_eq_true h), Nat.mod_eq_sub_mod h, Nat.mod_eq_of_lt (by omega)]
    omega
  · rw [if_neg (by simpa using h), Nat.mod_eq_of_lt (by omega)]
    omega

theorem sig_eq_zero : f.sig u = 0 ↔ u = 0 := by
  have := Nat.two_pow_pos f.fb
  unfold sig
  split_ifs with h
  · rfl
  · refine iff_of_false (by omega) (fun h0 => h (by rw [h0, Nat.zero_div]))

/-- The exponent field of a pattern whose sign bit is off, and its fraction. -/
theorem decode_fields (f : Fmt) (x : Nat) : x / 2 ^ f.fb % 2 ^ f.eb = f.mag x / 2 ^ f.fb ∧ x % 2 ^ f.fb = f.mag x % 2 ^ f.fb := by
  rw [mag, top, Nat.add_comm, Nat.pow_add, Nat.mod_mul_right_div_self, Nat.mod_mul_right_mod]
  exact ⟨rfl, rfl⟩

theorem decode_sign (hx : x < 2 * f.top) : (x / 2 ^ (f.eb + f.fb) % 2 == 1) = f.minus x := by
  change (x / f.top % 2 == 1) = decide (f.top ≤ x)
  have ht : 0 < f.top := Nat.two_pow_pos _
  have hlt : x / f.top < 2 := (Nat.div_lt_iff_lt_mul ht).2 hx
  by_cases h : f.top ≤ x
  · have := Nat.div_pos h ht
    rw [show x / f.top = 1 by omega, decide_eq_true h]; rfl
  · rw [Nat.div_eq_of_lt (by omega), decide_eq_false h]; rfl

/-- The exponent field of a pattern is all ones exactly from +∞ on. -/
theorem div_eq_ones (x : Nat) : f.mag x / 2 ^ f.fb = 2 ^ f.eb - 1 ↔ f.infMag ≤ f.mag x := by
  have hp := Nat.two_pow_pos f.fb
  have h1 : f.mag x / 2 ^ f.fb < 2 ^ f.eb := (Nat.div_lt_iff_lt_mul hp).2 (top_eq (f := f) ▸ mag_lt_top x)
  rw [infMag, ← Nat.le_div_iff_mul_le hp]
  omega

theorem decode_eq (hx : x < 2 * f.top) : f.decode x
    = if f.mag x < f.infMag then .fin (f.minus x) (f.sig (f.mag x)) (f.lastExp (f.mag x)) else if f.mag x = f.infMag then .inf (f.minus x) else .nan := by
  obtain ⟨he, hf⟩ := decode_fields f x
  have hd := Nat.div_add_mod' (f.mag x) (2 ^ f.fb)
  simp only [decode, decode_sign hx, he, hf, div_eq_ones]
  by_cases hi : f.infMag ≤ f.mag x
  · rw [(div_eq_ones x).2 hi, ← infMag] at hd
    simp only [hi, if_true, show ¬ f.mag x < f.infMag by omega, if_false, show f.mag x % 2 ^ f.fb = 0 ↔ f.mag x = f.infMag by omega]
  · simp only [hi, if_false, show f.mag x < f.infMag by omega, if_true]
    by_cases h0 : f.mag x / 2 ^ f.fb = 0
    · rw [h0, Nat.zero_mul, Nat.zero_add] at hd
      simp only [h0, if_true, hd, sig, lastExp]
    · simp only [h0, if_false, sig, lastExp]

theorem decode_nan (hx : x < 2 * f.top) (h : f.infMag < f.mag x) : f.decode x = .nan := by
  rw [decode_eq hx, if_neg (by omega), if_neg (by omega)]

theorem decode_inf (hx : x < 2 * f.top) (h : f.mag x = f.infMag) : f.decode x = .inf (f.minus x) := by
  rw [decode_eq hx, if_neg (by omega), if_pos h]

theorem decode_fin (hx : x < 2 * f.top) (h : f.mag x < f.infMag) : f.decode x = .fin (f.minus x) (f.sig (f.mag x)) (f.lastExp (f.mag x)) := by
  rw [decode_eq hx, if_pos h]

/-! ### A finite pattern rounds to itself (03 R60) -/

theorem bitLength_eq {n k : Nat} (h1 : 2 ^ k ≤ n) (h2 : n < 2 ^ (k + 1)) : bitLength n = k + 1 := by
  have h0 : n ≠ 0 := by have := Nat.two_pow_pos k; omega
  rw [bitLength, if_neg h0, (Nat.log2_eq_iff h0).2 ⟨h1, h2⟩]

theorem bitLength_le {n k : Nat} (h : n < 2 ^ k) : bitLength n ≤ k := by
  unfold bitLength
  split_ifs with h0
  · exact Nat.zero_le _
  · exact (Nat.log2_lt h0).2 h

theorem round_sig (rm : Rounding) (neg : Bool) (h0 : u ≠ 0) (hu : u < f.infMag) : f.round rm neg (f.sig u) (f.lastExp u) false = .exact (f.signBit neg + u) := by
  have hs : f.sig u ≠ 0 := fun h => h0 (sig_eq_zero.1 h)
  have hp := Nat.two_pow_pos f.fb
  have hp2 : 2 ^ (f.fb + 1) = 2 * 2 ^ f.fb := Nat.pow_succ'
  have hd := Nat.div_add_mod' u (2 ^ f.fb)
  have hm := Nat.mod_lt u hp
  have he : u / 2 ^ f.fb < 2 ^ f.eb - 1 := (Nat.div_lt_iff_lt_mul hp).2 hu
  simp only [round, hs, decide_false, Bool.false_and, Bool.false_eq_true, if_false]
  by_cases hsub : u / 2 ^ f.fb = 0
  · have hlt : u < 2 ^ f.fb := by rw [hsub] at hd; omega
    have hb := bitLength_le hlt
    simp only [sig, lastExp, hsub, if_true]
    rw [max_eq_right (by omega), roundAt_zero]
    simp only [show u ≠ 2 ^ (f.fb + 1) by omega, if_false, hlt, if_true]
    rfl
  · have hpos : 1 ≤ u / 2 ^ f.fb := Nat.pos_of_ne_zero hsub
    simp only [sig, lastExp, hsub, if_false]
    generalize u / 2 ^ f.fb = e at *
    generalize u % 2 ^ f.fb = m at *
    have hmax : max ((e : Int) - f.bias - f.fb + ((f.fb + 1 : Nat) : Int) - 1 - f.fb) f.emin = (e : Int) - f.bias - f.fb := by unfold emin; omega
    rw [bitLength_eq (n := 2 ^ f.fb + m) (k := f.fb) (by omega) (by omega), hmax, roundAt_zero]
    have hbe : ((e : Int) - f.bias - f.fb + f.bias + f.fb) = e := by ring
    simp only [show 2 ^ f.fb + m ≠ 2 ^ (f.fb + 1) by omega, if_false, show ¬ 2 ^ f.fb + m < 2 ^ f.fb by omega, hbe, Int.toNat_natCast,
      show ¬ ((2 ^ f.eb - 1 : Nat) : Int) ≤ e by omega, Nat.add_sub_cancel_left]
    rw [← hd, ← Nat.add_assoc]
    rfl

theorem round_zero (rm : Rounding) (neg : Bool) (e : Int) : f.round rm neg 0 e false = .exact (f.signBit neg) := rfl

/-- A pattern that is no NaN is what its own value narrows to. -/
theorem narrow_decode (rm : Rounding) (hx : x < 2 * f.top) (h : f.mag x ≤ f.infMag) : f.narrow rm (f.decode x) = .exact x := by
  rw [decode_eq hx]
  split_ifs with h1 h2
  · by_cases h0 : f.mag x = 0
    · have := signBit_add_mag hx
      rw [h0] at this
      rw [h0, sig_eq_zero.2 rfl]
      exact congrArg FRes.exact this
    · exact (round_sig rm _ h0 h1).trans (congrArg _ (signBit_add_mag hx))
  · have := signBit_add_mag hx
    rw [h2] at this
    exact congrArg FRes.exact this
  · omega

/-! ### The order of patterns (05 R100, R102) -/

/-- The value of a finite pattern without its sign bit, in units of the least subnormal. -/
def units (f : Fmt) (u : Nat) : Nat := f.sig u * 2 ^ (u / 2 ^ f.fb - 1)

theorem lastExp_eq (f : Fmt) (u : Nat) : f.lastExp u = f.emin + (u / 2 ^ f.fb - 1 : Nat) := by
  unfold lastExp emin
  split_ifs with h
  · rw [h]; simp
  · have hpos : 1 ≤ u / 2 ^ f.fb := Nat.pos_of_ne_zero h
    generalize u / 2 ^ f.fb = e at *
    omega

theorem units_lt_succ (f : Fmt) (u : Nat) : f.units u < f.units (u + 1) := by
  have hp := Nat.two_pow_pos f.fb
  have hd := Nat.div_add_mod' u (2 ^ f.fb)
  have hm := Nat.mod_lt u hp
  unfold units sig
  generalize he : u / 2 ^ f.fb = e at *
  generalize hr : u % 2 ^ f.fb = m at *
  rcases Nat.lt_or_ge (m + 1) (2 ^ f.fb) with hlt | hge
  · have h1 : (u + 1) / 2 ^ f.fb = e := by
      rw [← hd, Nat.add_assoc, Nat.mul_comm, Nat.mul_add_div hp, Nat.div_eq_of_lt hlt, Nat.add_zero]
    have h2 : (u + 1) % 2 ^ f.fb = m + 1 := by
      rw [← hd, Nat.add_assoc, Nat.mul_comm, Nat.mul_add_mod, Nat.mod_eq_of_lt hlt]
    rw [h1, h2]
    refine Nat.mul_lt_mul_of_pos_right ?_ (Nat.two_pow_pos _)
    split_ifs <;> omega
  · have hu : u + 1 = (e + 1) * 2 ^ f.fb := by rw [Nat.succ_mul]; omega
    have h1 : (u + 1) / 2 ^ f.fb = e + 1 := by rw [hu, Nat.mul_div_cancel _ hp]
    have h2 : (u + 1) % 2 ^ f.fb = 0 := by rw [hu, Nat.mul_mod_left]
    rw [h1, h2, if_neg (Nat.succ_ne_zero e), Nat.add_zero, Nat.add_sub_cancel]
    split_ifs with h0
    · subst h0; simp; omega
    · obtain ⟨k, rfl⟩ := Nat.exists_eq_succ_of_ne_zero h0
      have hk := Nat.two_pow_pos k
      rw [Nat.succ_sub_one, Nat.pow_succ, ← Nat.mul_assoc, Nat.mul_right_comm]
      exact Nat.mul_lt_mul_of_pos_right (by omega) hk

theorem units_strictMono (f : Fmt) : StrictMono f.units := strictMono_nat_of_lt_succ (units_lt_succ f)

theorem units_zero (f : Fmt) : f.units 0 = 0 := by simp [units, sig]

theorem units_pos_iff (f : Fmt) (u : Nat) : 0 < f.units u ↔ 0 < u := by
  simpa only [units_zero] using (units_strictMono f).lt_iff_lt (a := 0) (b := u)

/-- The least subnormal measures every finite value. -/
theorem scaled_dyadic (f : Fmt) (s : Bool) (u : Nat) : (FVal.fin s (f.sig u) (f.lastExp u)).dyadic.scaled f.emin = if s then -(f.units u : Int) else f.units u := by
  have h : (f.lastExp u - f.emin).toNat = u / 2 ^ f.fb - 1 := by rw [lastExp_eq]; omega
  simp only [FVal.dyadic, Dy.scaled, h, units]
  cases s <;> simp

theorem scaled_mul (x : Dy) {e k : Int} (h1 : k ≤ e) (h2 : e ≤ x.exp) : x.scaled k = x.scaled e * 2 ^ (e - k).toNat := by
  have : (x.exp - k).toNat = (x.exp - e).toNat + (e - k).toNat := by omega
  simp only [Dy.scaled, this, pow_add]
  push_cast
  ring

theorem dyLt_iff (x y : Dy) {k : Int} (hx : k ≤ x.exp) (hy : k ≤ y.exp) : x.lt y = true ↔ x.scaled k < y.scaled k := by
  have hp : (0 : Int) < 2 ^ (min x.exp y.exp - k).toNat := by positivity
  rw [scaled_mul x (le_min hx hy) (min_le_left ..), scaled_mul y (le_min hx hy) (min_le_right ..), mul_lt_mul_iff_left₀ hp]
  simp [Dy.lt]

/-- The place of a pattern in the order that puts −0 below +0. -/
def key (f : Fmt) (x : Nat) : Int := if f.minus x then -(f.mag x : Int) - 1 else f.mag x
/-- The place of a pattern in the order of values. -/
def num (f : Fmt) (x : Nat) : Int := if f.minus x then -(f.mag x : Int) else f.mag x

theorem less_fin {s t : Bool} {u v : Nat} : (FVal.fin s (f.sig u) (f.lastExp u)).less (.fin t (f.sig v) (f.lastExp v)) = true
    ↔ (if s then -(u : Int) - 1 else u) < (if t then -(v : Int) - 1 else v) := by
  have hu := units_pos_iff f u
  have hv := units_pos_iff f v
  have huv : f.units u < f.units v ↔ u < v := (units_strictMono f).lt_iff_lt
  have hvu : f.units v < f.units u ↔ v < u := (units_strictMono f).lt_iff_lt
  simp only [FVal.less, sig_eq_zero, Bool.and_eq_true, decide_eq_true_eq]
  by_cases h0 : u = 0 ∧ v = 0
  · obtain ⟨rfl, rfl⟩ := h0
    cases s <;> cases t <;> simp
  · rw [if_neg h0, dyLt_iff _ _ (k := f.emin) (by simp [FVal.dyadic, lastExp_eq]) (by simp [FVal.dyadic, lastExp_eq]), scaled_dyadic, scaled_dyadic]
    cases s <;> cases t <;> simp only [Bool.false_eq_true, if_false, if_true] <;> omega

theorem less_decode {a b : Nat} (ha : a < 2 * f.top) (hb : b < 2 * f.top) (hna : f.mag a ≤ f.infMag) (hnb : f.mag b ≤ f.infMag) :
    (f.decode a).less (f.decode b) = true ↔ f.key a < f.key b := by
  rcases lt_or_eq_of_le hna with h1 | h1 <;> rcases lt_or_eq_of_le hnb with h2 | h2
  · rw [decode_fin ha h1, decode_fin hb h2, less_fin]; rfl
  · rw [decode_fin ha h1, decode_inf hb h2, key, key, h2]
    cases f.minus a <;> cases f.minus b <;> simp [FVal.less] <;> omega
  · rw [decode_inf ha h1, decode_fin hb h2, key, key, h1]
    cases f.minus a <;> cases f.minus b <;> simp [FVal.less] <;> omega
  · rw [decode_inf ha h1, decode_inf hb h2, key, key, h1, h2]
    cases f.minus a <;> cases f.minus b <;> simp [FVal.less]
    omega

end Fmt
end Sys2Proof.Machine
end

section
/-! SUPPORT. Float values (03 R54 to R56; 05 R100, R101, R103): sums and products on NaN, infinities and zeros. -/

namespace Sys2Proof.Machine
namespace FVal

theorem add_nan_left (v : FVal) : FVal.nan.add v = .nan := rfl
theorem add_nan_right (v : FVal) : v.add .nan = .nan := by cases v <;> rfl
theorem mul_nan_left (v : FVal) : FVal.nan.mul v = .nan := rfl
theorem mul_nan_right (v : FVal) : v.mul .nan = .nan := by cases v <;> rfl

theorem isNan_iff {v : FVal} : v.isNan = true ↔ v = .nan := by cases v <;> simp [isNan]

theorem isNan_negate (v : FVal) : v.negate.isNan = v.isNan := by cases v <;> rfl

theorem mul_comm (x y : FVal) : x.mul y = y.mul x := by
  cases x <;> cases y <;> simp only [mul, Bool.xor_comm, Nat.mul_comm, Int.add_comm]

/-- An infinity and anything but NaN and the other infinity. -/
theorem inf_add {s : Bool} {v : FVal} (hn : v ≠ .nan) (hi : v ≠ .inf (!s)) : (FVal.inf s).add v = .inf s := by
  cases v with
  | nan => exact absurd rfl hn
  | inf t => rw [show t = s by cases s <;> cases t <;> simp_all]; exact if_pos rfl
  | fin => rfl

theorem add_inf {s : Bool} {v : FVal} (hn : v ≠ .nan) (hi : v ≠ .inf (!s)) : v.add (.inf s) = .inf s := by
  cases v with
  | nan => exact absurd rfl hn
  | inf t => rw [show t = s by cases s <;> cases t <;> simp_all]; exact if_pos rfl
  | fin => rfl

theorem inf_add_opposite {s t : Bool} (h : s ≠ t) : (FVal.inf s).add (.inf t) = .nan := if_neg h

theorem inf_mul_zero (s t : Bool) (e : Int) : (FVal.inf s).mul (.fin t 0 e) = .nan := rfl

/-- A value that is neither NaN nor zero. -/
def Nonzero (v : FVal) : Prop := v ≠ .nan ∧ v.isZero = false

theorem inf_mul {s : Bool} {v : FVal} (h : v.Nonzero) : (FVal.inf s).mul v = .inf (s != v.neg) := by
  obtain ⟨hn, hz⟩ := h
  cases v with
  | nan => exact absurd rfl hn
  | inf t => cases s <;> cases t <;> rfl
  | fin t m e =>
    have hm : m ≠ 0 := by rintro rfl; exact absurd hz (by simp [isZero])
    simp only [mul, hm, if_false, neg]

theorem zero_mul_fin (s t : Bool) (e k : Int) (m : Nat) : (FVal.fin s 0 e).mul (.fin t m k) = .fin (s != t) 0 (e + k) := by
  simp only [mul, Nat.zero_mul]

theorem dyadic_man_eq_zero {s : Bool} {m : Nat} {e : Int} : (FVal.fin s m e).dyadic.man = 0 ↔ m = 0 := by
  cases s <;> simp [dyadic]

theorem zero_add_zero (s t : Bool) (e k : Int) : (FVal.fin s 0 e).add (.fin t 0 k) = .fin (s && t) 0 k := by
  cases s <;> cases t <;> simp [add, dyadic, Dy.add]

theorem of_dyadic {s : Bool} {m : Nat} (e : Int) (hm : m ≠ 0) :
    FVal.fin (decide ((FVal.fin s m e).dyadic.man < 0)) (FVal.fin s m e).dyadic.man.natAbs (FVal.fin s m e).dyadic.exp = .fin s m e := by
  have : 0 < m := Nat.pos_of_ne_zero hm
  cases s <;> simp [dyadic]
  omega

theorem fin_add_zero {s t : Bool} {m : Nat} {e k : Int} (hm : m ≠ 0) : (FVal.fin s m e).add (.fin t 0 k) = .fin s m e := by
  have h0 : (FVal.fin t 0 k).dyadic.man = 0 := dyadic_man_eq_zero.2 rfl
  have h1 : (FVal.fin s m e).dyadic.man ≠ 0 := mt dyadic_man_eq_zero.1 hm
  simp only [add, Dy.add, h0, h1, if_true, if_false, of_dyadic e hm]

theorem zero_add_fin {s t : Bool} {m : Nat} {e k : Int} (hm : m ≠ 0) : (FVal.fin t 0 k).add (.fin s m e) = .fin s m e := by
  have h0 : (FVal.fin t 0 k).dyadic.man = 0 := dyadic_man_eq_zero.2 rfl
  have h1 : (FVal.fin s m e).dyadic.man ≠ 0 := mt dyadic_man_eq_zero.1 hm
  simp only [add, Dy.add, h0, h1, if_true, if_false, of_dyadic e hm]

theorem fin_add_negate {s : Bool} {m : Nat} (e : Int) (hm : m ≠ 0) : (FVal.fin s m e).add (.fin (!s) m e) = .fin false 0 e := by
  cases s <;> simp [add, dyadic, Dy.add, Dy.scaled, hm]

/-- Adding finite values gives a finite value. -/
theorem fin_add_fin (s t : Bool) (m n : Nat) (e k : Int) : ∃ u l j, (FVal.fin s m e).add (.fin t n k) = .fin u l j := by
  simp only [add]
  split_ifs
  · exact ⟨_, _, _, rfl⟩
  · exact ⟨_, _, _, rfl⟩

/-! ### Sums of lists (05 R103) -/

theorem foldl_add_nan (vs : List FVal) : vs.foldl FVal.add .nan = .nan := by
  induction vs with
  | nil => rfl
  | cons v vs ih => exact ih

theorem foldl_add_of_nan {vs : List FVal} (h : .nan ∈ vs) (x : FVal) : vs.foldl FVal.add x = .nan := by
  induction vs generalizing x with
  | nil => exact absurd h List.not_mem_nil
  | cons v vs ih =>
    rcases List.mem_cons.1 h with rfl | h
    · rw [List.foldl_cons, add_nan_right, foldl_add_nan]
    · exact ih h _

/-- An infinity stays, or the sum is NaN. -/
theorem add_of_inf {s : Bool} {x y : FVal} (h : x = .inf s ∨ y = .inf s) : x.add y = .inf s ∨ x.add y = .nan := by
  by_cases hx : x = .nan ∨ y = .nan
  · rcases hx with rfl | rfl
    · exact .inr rfl
    · exact .inr (add_nan_right x)
  rw [not_or] at hx
  rcases h with rfl | rfl
  · by_cases hy : y = .inf (!s)
    · exact .inr (hy ▸ inf_add_opposite (by simp))
    · exact .inl (inf_add hx.2 hy)
  · by_cases hy : x = .inf (!s)
    · exact .inr (hy ▸ inf_add_opposite (by simp))
    · exact .inl (add_inf hx.1 hy)

theorem foldl_add_both_inf {vs : List FVal} {x : FVal} (h : ∀ s : Bool, x = .inf s ∨ .inf s ∈ vs) : vs.foldl FVal.add x = .nan := by
  induction vs generalizing x with
  | nil =>
    have h0 := (h false).resolve_right List.not_mem_nil
    have h1 := (h true).resolve_right List.not_mem_nil
    exact absurd (h0.symm.trans h1) (by simp)
  | cons v vs ih =>
    by_cases hn : x.add v = .nan
    · rw [List.foldl_cons, hn, foldl_add_nan]
    · refine ih fun s => ?_
      by_cases hs : x = .inf s ∨ v = .inf s
      · exact .inl ((add_of_inf hs).resolve_right hn)
      · rw [not_or] at hs
        refine .inr (List.mem_of_ne_of_mem (Ne.symm hs.2) ((h s).resolve_left hs.1))

theorem foldl_add_inf {s : Bool} {vs : List FVal} {x : FVal} (hn : ∀ v ∈ x :: vs, v ≠ .nan ∧ v ≠ .inf (!s)) (h : .inf s ∈ x :: vs) :
    vs.foldl FVal.add x = .inf s := by
  induction vs generalizing x with
  | nil => exact (List.mem_singleton.1 h).symm
  | cons v vs ih =>
    obtain ⟨hx, hv⟩ : (x ≠ .nan ∧ x ≠ .inf (!s)) ∧ v ≠ .nan ∧ v ≠ .inf (!s) := ⟨hn x (by simp), hn v (by simp)⟩
    have hvs : ∀ w ∈ vs, w ≠ .nan ∧ w ≠ .inf (!s) := fun w hw => hn w (by simp [hw])
    have hcase : x.add v = .inf s ∨ (∃ u l j, x.add v = .fin u l j) ∧ .inf s ∈ vs := by
      by_cases hs : x = .inf s
      · exact .inl (hs ▸ inf_add hv.1 hv.2)
      by_cases hs' : v = .inf s
      · exact .inl (hs' ▸ add_inf hx.1 hx.2)
      have hm : .inf s ∈ vs := by simpa [Ne.symm hs, Ne.symm hs'] using h
      have fin_of {w : FVal} (hw : w ≠ .nan ∧ w ≠ .inf (!s)) (hne : w ≠ .inf s) : ∃ u l j, w = .fin u l j := by
        cases w with
        | nan => exact absurd rfl hw.1
        | inf t => cases s <;> cases t <;> simp_all
        | fin u l j => exact ⟨u, l, j, rfl⟩
      obtain ⟨u, l, j, rfl⟩ := fin_of hx hs
      obtain ⟨u', l', j', rfl⟩ := fin_of hv hs'
      exact .inr ⟨fin_add_fin .., hm⟩
    rcases hcase with h' | ⟨⟨u, l, j, h'⟩, hm⟩
    · refine ih ?_ ?_
      · rw [h']; exact List.forall_mem_cons.2 ⟨⟨by simp, by simp⟩, hvs⟩
      · rw [h']; exact List.mem_cons_self
    · refine ih ?_ (List.mem_cons_of_mem _ hm)
      rw [h']; exact List.forall_mem_cons.2 ⟨⟨by simp, by simp⟩, hvs⟩

theorem foldl_add_zero {vs : List FVal} (h : ∀ v ∈ vs, ∃ k, v = .fin v.neg 0 k) (s : Bool) (e : Int) :
    ∃ k, vs.foldl FVal.add (.fin s 0 e) = .fin (s && vs.all (·.neg)) 0 k := by
  induction vs generalizing s e with
  | nil => exact ⟨e, by simp⟩
  | cons v vs ih =>
    obtain ⟨⟨k, hv⟩, hvs⟩ := List.forall_mem_cons.1 h
    rw [List.foldl_cons, hv, zero_add_zero]
    obtain ⟨j, hj⟩ := ih hvs (s && v.neg) k
    exact ⟨j, by rw [hj, List.all_cons, Bool.and_assoc]; rfl⟩

end FVal
end Sys2Proof.Machine
end

section
/-! SUPPORT. Patterns against float values (03 R52, R54; 05 R100, R102, R103): what the sign and the rest of a pattern say about the value it decodes to. -/

namespace Sys2Proof.Machine

theorem xor_two_pow_of_lt {x n : Nat} (h : x < 2 ^ n) : x ^^^ 2 ^ n = x + 2 ^ n := by
  have hor : x + 2 ^ n = 2 ^ n ||| x := by simpa [Nat.add_comm] using Nat.two_pow_add_eq_or_of_lt h 1
  rw [hor]
  refine Nat.eq_of_testBit_eq fun i => ?_
  rw [Nat.testBit_xor, Nat.testBit_or, Nat.testBit_two_pow]
  by_cases hi : n = i
  · subst hi; simp [Nat.testBit_lt_two_pow h]
  · simp [hi]

theorem xor_two_pow {x n : Nat} (h : x < 2 * 2 ^ n) : x ^^^ 2 ^ n = if 2 ^ n ≤ x then x - 2 ^ n else x + 2 ^ n := by
  split_ifs with hx
  · obtain ⟨y, rfl⟩ := Nat.exists_eq_add_of_le' hx
    rw [← xor_two_pow_of_lt (by omega), Nat.xor_assoc, Nat.xor_self, Nat.xor_zero, xor_two_pow_of_lt (by omega), Nat.add_sub_cancel]
  · exact xor_two_pow_of_lt (not_le.1 hx)

namespace Fmt

variable (f : Fmt)

/-- A pattern with the other sign. -/
def flip (x : Nat) : Nat := if f.minus x then x - f.top else x + f.top
/-- A pattern without sign, given one. -/
def signed (s : Bool) (x : Nat) : Nat := if s then x + f.top else x

variable {f} {x y : Nat}

theorem inf_eq_signed (s : Bool) : f.inf s = f.signed s f.infMag := by
  cases s
  · exact Nat.zero_add _
  · exact Nat.add_comm ..

theorem zero_eq_signed (s : Bool) : f.zero s = f.signed s 0 := by
  cases s
  · rfl
  · exact (Nat.zero_add _).symm

theorem signed_minus_mag (hx : x < 2 * f.top) : f.signed (f.minus x) (f.mag x) = x := by
  have h := signBit_add_mag hx
  unfold signBit at h
  change (if f.minus x then f.top else 0) + f.mag x = x at h
  unfold signed
  split_ifs at h ⊢ <;> omega

theorem signed_lt (s : Bool) (h : x < f.top) : f.signed s x < 2 * f.top := by
  unfold signed
  split_ifs <;> omega

theorem minus_signed (s : Bool) (h : x < f.top) : f.minus (f.signed s x) = s := by
  cases s
  · exact decide_eq_false (not_le.2 h)
  · exact decide_eq_true (Nat.le_add_left ..)

theorem mag_signed (s : Bool) (h : x < f.top) : f.mag (f.signed s x) = x := by
  cases s
  · exact Nat.mod_eq_of_lt h
  · exact (Nat.add_mod_right ..).trans (Nat.mod_eq_of_lt h)

/-- A pattern is its sign and the rest. -/
theorem eq_of_minus_mag (hx : x < 2 * f.top) (hy : y < 2 * f.top) (hs : f.minus x = f.minus y) (hm : f.mag x = f.mag y) : x = y := by
  rw [← signed_minus_mag hx, ← signed_minus_mag hy, hs, hm]

theorem minus_ne (hx : x < 2 * f.top) (hy : y < 2 * f.top) (hm : f.mag x = f.mag y) (h : x ≠ y) : f.minus x ≠ f.minus y :=
  fun hs => h (eq_of_minus_mag hx hy hs hm)

theorem flip_eq_signed (hx : x < 2 * f.top) : f.flip x = f.signed (!f.minus x) (f.mag x) := by
  have h := signed_minus_mag hx
  unfold flip
  cases hs : f.minus x
  · rw [hs] at h
    exact congrArg (· + f.top) h.symm
  · rw [hs] at h
    exact Nat.sub_eq_of_eq_add h.symm

theorem xor_top (hx : x < 2 * f.top) : x ^^^ f.top = f.flip x := by
  simp only [flip, minus, decide_eq_true_eq]
  exact xor_two_pow hx

/-! ### The value of a pattern -/

theorem not_nan (hx : x < 2 * f.top) (h : ¬ f.infMag < f.mag x) : f.decode x ≠ .nan := by
  rw [decode_eq hx]
  split_ifs with h1 h2
  · simp
  · simp
  · omega

theorem isNan_decode (hx : x < 2 * f.top) : (f.decode x).isNan = decide (f.infMag < f.mag x) := by
  by_cases h : f.infMag < f.mag x
  · rw [decode_nan hx h, decide_eq_true h]; rfl
  · rw [decide_eq_false h, ← Bool.not_eq_true, FVal.isNan_iff]
    exact not_nan hx h

theorem decode_eq_inf_iff (hx : x < 2 * f.top) {s : Bool} : f.decode x = .inf s ↔ f.mag x = f.infMag ∧ f.minus x = s := by
  rw [decode_eq hx]
  split_ifs with h1 h2
  · simp; omega
  · simp [h2]
  · simp [h2]

theorem decode_zero (hf : 0 < f.infMag) (hx : x < 2 * f.top) (h : f.mag x = 0) : f.decode x = .fin (f.minus x) 0 (f.lastExp 0) := by
  rw [decode_fin hx (by omega), h, sig_eq_zero.2 rfl]

theorem sig_ne_zero (h : f.mag x ≠ 0) : f.sig (f.mag x) ≠ 0 := mt sig_eq_zero.1 h

theorem isZero_fin {s : Bool} {m : Nat} {e : Int} : (FVal.fin s m e).isZero = decide (m = 0) := by cases m <;> rfl

theorem isZero_decode (hf : 0 < f.infMag) (hx : x < 2 * f.top) : (f.decode x).isZero = decide (f.mag x = 0) := by
  rw [decode_eq hx]
  split_ifs with h1 h2
  · simp only [isZero_fin, sig_eq_zero]
  · exact (decide_eq_false (by omega)).symm
  · exact (decide_eq_false (by omega)).symm

theorem decode_nonzero (hf : 0 < f.infMag) (hx : x < 2 * f.top) (hn : ¬ f.infMag < f.mag x) (hz : f.mag x ≠ 0) : (f.decode x).Nonzero :=
  ⟨not_nan hx hn, by rw [isZero_decode hf hx, decide_eq_false hz]⟩

theorem neg_decode (hx : x < 2 * f.top) (hn : ¬ f.infMag < f.mag x) : (f.decode x).neg = f.minus x := by
  rw [decode_eq hx]
  split_ifs with h1 h2
  · rfl
  · rfl
  · omega

theorem decode_flip (hx : x < 2 * f.top) : f.decode (f.flip x) = (f.decode x).negate := by
  have hm := mag_lt_top (f := f) x
  rw [flip_eq_signed hx, decode_eq (signed_lt _ hm), minus_signed _ hm, mag_signed _ hm, decode_eq hx]
  split_ifs <;> rfl

/-- Two infinities of one sign, or an infinity and a finite value. -/
theorem decode_ne_opposite (hy : y < 2 * f.top) (h : f.mag y = f.infMag → x = y) : f.decode y ≠ .inf (!f.minus x) := by
  rw [Ne, decode_eq_inf_iff hy]
  rintro ⟨hi, hs⟩
  obtain rfl := h hi
  simp at hs

theorem exact_of_mag (hx : x < 2 * f.top) {u : Nat} (h : f.mag x = u) : FRes.exact (f.signed (f.minus x) u) = .exact x := by
  rw [← h, signed_minus_mag hx]

/-! ### The numeric order -/

theorem ltNum_decode (hf : 0 < f.infMag) (hx : x < 2 * f.top) (hy : y < 2 * f.top) (hnx : ¬ f.infMag < f.mag x) (hny : ¬ f.infMag < f.mag y) :
    (f.decode x).ltNum (f.decode y) = decide (f.num x < f.num y) := by
  have hl := less_decode hx hy (not_lt.1 hnx) (not_lt.1 hny)
  rw [FVal.ltNum, isZero_decode hf hx, isZero_decode hf hy, Bool.eq_iff_iff, Bool.and_eq_true, hl, decide_eq_true_eq]
  simp only [key, num, Bool.not_eq_true', Bool.and_eq_false_iff, decide_eq_false_iff_not]
  split_ifs <;> omega

theorem eqNum_decode (hf : 0 < f.infMag) (hx : x < 2 * f.top) (hy : y < 2 * f.top) (hnx : ¬ f.infMag < f.mag x) (hny : ¬ f.infMag < f.mag y) :
    (f.decode x).eqNum (f.decode y) = decide (f.num x = f.num y) := by
  rw [FVal.eqNum, ltNum_decode hf hx hy hnx hny, ltNum_decode hf hy hx hny hnx, isNan_decode hx, isNan_decode hy, decide_eq_false hnx,
    decide_eq_false hny, Bool.eq_iff_iff]
  simp only [Bool.not_false, Bool.true_and, Bool.and_eq_true, Bool.not_eq_true', decide_eq_false_iff_not, decide_eq_true_eq]
  omega

theorem key_injective (hx : x < 2 * f.top) (hy : y < 2 * f.top) (h : f.key x = f.key y) : x = y := by
  unfold key at h
  split_ifs at h with h1 h2 h2
  · exact eq_of_minus_mag hx hy (h1.trans h2.symm) (by omega)
  · omega
  · omega
  · exact eq_of_minus_mag hx hy ((Bool.not_eq_true _ ▸ h1 : f.minus x = false).trans (Bool.not_eq_true _ ▸ h2 : f.minus y = false).symm) (by omega)

theorem key_signed (s : Bool) (h : x < f.top) : f.key (f.signed s x) = if s then -(x : Int) - 1 else x := by
  rw [key, minus_signed s h, mag_signed s h]

theorem key_bounds (h : ¬ f.infMag < f.mag x) : f.key x ≤ f.infMag ∧ -(f.infMag : Int) - 1 ≤ f.key x := by
  unfold key
  split_ifs <;> omega

/-! ### The least and the greatest pattern (05 R100, R103) -/

theorem minMax_nan_right (isMax : Bool) (hx : x < 2 * f.top) (h : f.infMag < f.mag x) (r : Nat) : f.minMax isMax r x = f.nan := by
  simp only [minMax, decode_nan hx h, FVal.isNan, Bool.or_true, if_true]

theorem minMax_nan_left (isMax : Bool) (hx : x < 2 * f.top) (h : f.infMag < f.mag x) (r : Nat) : f.minMax isMax x r = f.nan := by
  simp only [minMax, decode_nan hx h, FVal.isNan, Bool.true_or, if_true]

theorem minMax_of_not_nan (isMax : Bool) (hx : x < 2 * f.top) (hy : y < 2 * f.top) (hnx : ¬ f.infMag < f.mag x) (hny : ¬ f.infMag < f.mag y) :
    f.minMax isMax x y = if isMax then (if f.key x < f.key y then y else x) else (if f.key y < f.key x then y else x) := by
  have h1 := less_decode hx hy (not_lt.1 hnx) (not_lt.1 hny)
  have h2 := less_decode hy hx (not_lt.1 hny) (not_lt.1 hnx)
  simp only [minMax, isNan_decode hx, isNan_decode hy, decide_eq_false hnx, decide_eq_false hny, Bool.or_false, Bool.false_eq_true, if_false, h1, h2]

theorem nan_is_nan (hf : 0 < f.fb) : f.nan < 2 * f.top ∧ f.infMag < f.mag f.nan := by
  have hp : 2 ^ f.fb = 2 * 2 ^ (f.fb - 1) := by rw [← Nat.pow_succ', Nat.succ_eq_add_one, Nat.sub_add_cancel hf]
  have h0 := Nat.two_pow_pos (f.fb - 1)
  have he : 2 ^ f.eb * 2 ^ f.fb = (2 ^ f.eb - 1) * 2 ^ f.fb + 2 ^ f.fb := by
    rw [← Nat.succ_mul, Nat.succ_eq_add_one, Nat.sub_add_cancel Nat.one_le_two_pow]
  have hlt : f.nan < f.top := by rw [top_eq, he, nan]; omega
  rw [mag, Nat.mod_eq_of_lt hlt, nan, infMag]
  rw [nan] at hlt
  omega

theorem foldl_minMax_nan (hf : 0 < f.fb) (isMax : Bool) {ls : List Nat} (hl : ∀ x ∈ ls, x < 2 * f.top) (h : ∃ x ∈ ls, f.infMag < f.mag x) (r : Nat) :
    ls.foldl (f.minMax isMax) r = f.nan := by
  induction ls generalizing r with
  | nil => simp at h
  | cons y ys ih =>
    rw [List.forall_mem_cons] at hl
    by_cases hys : ∃ x ∈ ys, f.infMag < f.mag x
    · exact ih hl.2 hys _
    · have hy : f.infMag < f.mag y := by
        obtain ⟨x, hx, hn⟩ := h
        rcases List.mem_cons.1 hx with rfl | hx
        · exact hn
        · exact absurd ⟨x, hx, hn⟩ hys
      rw [List.foldl_cons, minMax_nan_right isMax hl.1 hy]
      clear hl hys h ih
      induction ys with
      | nil => rfl
      | cons z zs ih => rw [List.foldl_cons, minMax_nan_left isMax (nan_is_nan hf).1 (nan_is_nan hf).2, ih]

/-- A pattern no other one goes beyond. -/
def Beyond (f : Fmt) (isMax : Bool) (r x : Nat) : Prop := if isMax then f.key x ≤ f.key r else f.key r ≤ f.key x

theorem Beyond.refl (isMax : Bool) (x : Nat) : f.Beyond isMax x x := by cases isMax <;> exact le_refl (f.key x)

theorem Beyond.trans {isMax : Bool} {r t x : Nat} (h1 : f.Beyond isMax r t) (h2 : f.Beyond isMax t x) : f.Beyond isMax r x := by
  cases isMax
  · exact le_trans (α := Int) h1 h2
  · exact le_trans (α := Int) h2 h1

theorem minMax_beyond (isMax : Bool) (hx : x < 2 * f.top) (hy : y < 2 * f.top) (hnx : ¬ f.infMag < f.mag x) (hny : ¬ f.infMag < f.mag y) :
    (f.minMax isMax x y = x ∨ f.minMax isMax x y = y) ∧ f.Beyond isMax (f.minMax isMax x y) x ∧ f.Beyond isMax (f.minMax isMax x y) y := by
  rw [minMax_of_not_nan isMax hx hy hnx hny]
  unfold Beyond
  split_ifs <;> simp <;> omega

theorem foldl_minMax_beyond (isMax : Bool) {ls : List Nat} {r : Nat} (hl : ∀ x ∈ r :: ls, x < 2 * f.top ∧ ¬ f.infMag < f.mag x) :
    ls.foldl (f.minMax isMax) r ∈ r :: ls ∧ ∀ x ∈ r :: ls, f.Beyond isMax (ls.foldl (f.minMax isMax) r) x := by
  induction ls generalizing r with
  | nil => simpa using Beyond.refl isMax r
  | cons y ys ih =>
    simp only [List.forall_mem_cons] at hl
    obtain ⟨⟨hr, hnr⟩, ⟨hy, hny⟩, hys⟩ := hl
    obtain ⟨hmem, h1, h2⟩ := minMax_beyond isMax hr hy hnr hny
    have hm : f.minMax isMax r y < 2 * f.top ∧ ¬ f.infMag < f.mag (f.minMax isMax r y) := by
      rcases hmem with h | h <;> rw [h]
      · exact ⟨hr, hnr⟩
      · exact ⟨hy, hny⟩
    obtain ⟨ih1, ih2⟩ := ih (List.forall_mem_cons.2 ⟨hm, hys⟩)
    rw [List.forall_mem_cons] at ih2
    refine ⟨?_, List.forall_mem_cons.2 ⟨ih2.1.trans h1, List.forall_mem_cons.2 ⟨ih2.1.trans h2, ih2.2⟩⟩⟩
    rw [List.foldl_cons]
    rcases List.mem_cons.1 ih1 with h | h
    · rw [h]
      rcases hmem with h | h <;> simp [h]
    · simp [h]

/-- Nothing goes beyond the last infinity: the identity of the reduction. -/
theorem minMax_inf_left (isMax : Bool) (hx : x < 2 * f.top) (hn : ¬ f.infMag < f.mag x) : f.minMax isMax (f.inf isMax) x = x := by
  have hlt := infMag_lt_top (f := f)
  rw [inf_eq_signed]
  have hi := signed_lt (f := f) isMax hlt
  obtain ⟨hmem, -, hb⟩ := minMax_beyond isMax hi hx (by rw [mag_signed _ hlt]; exact lt_irrefl _) hn
  refine hmem.elim (fun h => ?_) id
  rw [h] at hb ⊢
  refine key_injective hi hx ?_
  obtain ⟨h1, h2⟩ := key_bounds hn
  unfold Beyond at hb
  rw [key_signed _ hlt] at hb ⊢
  cases isMax
  · exact le_antisymm hb h1
  · exact le_antisymm h2 hb

end Fmt
end Sys2Proof.Machine
end

section
/-! SUPPORT. Float lanes (05 R100 to R103, R105, R112): each lane operation on NaN, infinities and zeros, for every lane type that has a format. -/

namespace Sys2Proof.Machine

/-- A lane type that holds the patterns of a format. -/
structure FloatLane (ty : LaneTy) (f : Fmt) : Prop where
  fmt : fmtOf ty = some f
  top : 2 ^ (ty.width - 1) = f.top
  width : 2 ^ ty.width = 2 * f.top
  infPos : 0 < f.infMag
  fracPos : 0 < f.fb

theorem floatLane_of_mem {ty : LaneTy} {inf nan : Nat}
    (h : (ty, inf, nan) ∈ [(LaneTy.f32, 0x7F800000, 0x7FC00000), (.bf16, 0x7F80, 0x7FC0), (.f16, 0x7C00, 0x7E00)]) :
    ∃ f, FloatLane ty f ∧ inf = f.infMag ∧ nan = f.nan := by
  simp only [List.mem_cons, Prod.mk.injEq, List.not_mem_nil, or_false] at h
  obtain ⟨rfl, rfl, rfl⟩ | ⟨rfl, rfl, rfl⟩ | ⟨rfl, rfl, rfl⟩ := h
  · exact ⟨fp32, ⟨rfl, rfl, rfl, by decide, by decide⟩, rfl, rfl⟩
  · exact ⟨bf16, ⟨rfl, rfl, rfl, by decide, by decide⟩, rfl, rfl⟩
  · exact ⟨fp16, ⟨rfl, rfl, rfl, by decide, by decide⟩, rfl, rfl⟩

namespace Fmt

variable {f : Fmt} (rm : Rounding) {v : FVal} {a b c : Nat}

theorem deliver_of_ne_nan (n : Bool) (h : v ≠ .nan) : f.deliver rm n v = f.narrow rm v := by
  cases v with
  | nan => exact absurd rfl h
  | inf => rfl
  | fin => rfl

theorem deliver_inf (n s : Bool) : f.deliver rm n (.inf s) = .exact (f.signed s f.infMag) := by rw [← inf_eq_signed]; rfl

theorem deliver_zero (n s : Bool) (e : Int) : f.deliver rm n (.fin s 0 e) = .exact (f.signed s 0) := by rw [← zero_eq_signed]; rfl

theorem deliver_decode (n : Bool) (ha : a < 2 * f.top) (h : ¬ f.infMag < f.mag a) : f.deliver rm n (f.decode a) = .exact a := by
  rw [deliver_of_ne_nan rm n (not_nan ha h), narrow_decode rm ha (not_lt.1 h)]

/-! ### Products of patterns -/

section
variable (hf : 0 < f.infMag) (ha : a < 2 * f.top) (hb : b < 2 * f.top)
include ha hb

theorem mul_decode_nan (h : f.infMag < f.mag a ∨ f.infMag < f.mag b) : (f.decode a).mul (f.decode b) = .nan := by
  rcases h with h | h
  · rw [decode_nan ha h, FVal.mul_nan_left]
  · rw [decode_nan hb h, FVal.mul_nan_right]

theorem mul_decode_fin (hfa : f.mag a < f.infMag) (hfb : f.mag b < f.infMag) : ∃ s m e, (f.decode a).mul (f.decode b) = .fin s m e := by
  rw [decode_fin ha hfa, decode_fin hb hfb]
  exact ⟨_, _, _, rfl⟩

include hf

theorem mul_decode_invalid (h : f.mag a = f.infMag ∧ f.mag b = 0 ∨ f.mag a = 0 ∧ f.mag b = f.infMag) : (f.decode a).mul (f.decode b) = .nan := by
  rcases h with ⟨hi, hz⟩ | ⟨hz, hi⟩
  · rw [decode_inf ha hi, decode_zero hf hb hz, FVal.inf_mul_zero]
  · rw [decode_inf hb hi, decode_zero hf ha hz, FVal.mul_comm, FVal.inf_mul_zero]

theorem mul_decode_inf (h : f.mag a = f.infMag ∧ ¬ f.infMag < f.mag b ∧ f.mag b ≠ 0 ∨ f.mag b = f.infMag ∧ ¬ f.infMag < f.mag a ∧ f.mag a ≠ 0) :
    (f.decode a).mul (f.decode b) = .inf (f.minus a != f.minus b) := by
  rcases h with ⟨hi, hn, hz⟩ | ⟨hi, hn, hz⟩
  · rw [decode_inf ha hi, FVal.inf_mul (decode_nonzero hf hb hn hz), neg_decode hb hn]
  · rw [decode_inf hb hi, FVal.mul_comm, FVal.inf_mul (decode_nonzero hf ha hn hz), neg_decode ha hn, bne_comm]

theorem mul_decode_zero (h : f.mag a = 0 ∧ f.mag b < f.infMag ∨ f.mag a < f.infMag ∧ f.mag b = 0) :
    ∃ e, (f.decode a).mul (f.decode b) = .fin (f.minus a != f.minus b) 0 e := by
  rcases h with ⟨hz, hfin⟩ | ⟨hfin, hz⟩
  · rw [decode_zero hf ha hz, decode_fin hb hfin]
    exact ⟨_, FVal.zero_mul_fin ..⟩
  · rw [decode_zero hf hb hz, decode_fin ha hfin, FVal.mul_comm, FVal.zero_mul_fin, bne_comm]
    exact ⟨_, rfl⟩

end
end Fmt

open Fmt

section
variable {ty : LaneTy} {f : Fmt} (F : FloatLane ty f) (sat : Bool) {a b c : Nat}
include F

theorem addLane_float : addLane ty sat a b = f.add (rneOf sat) (f.decode a) (f.decode b) := by simp only [addLane, arithLane, F.fmt]
theorem subLane_float : subLane ty sat a b = f.sub (rneOf sat) (f.decode a) (f.decode b) := by simp only [subLane, arithLane, F.fmt]
theorem mulLane_float : mulLane ty sat a b = f.mul (rneOf sat) (f.decode a) (f.decode b) := by simp only [mulLane, arithLane, F.fmt]
theorem divLane_float : divLane ty sat a b = f.div (rneOf sat) (f.decode a) (f.decode b) := by simp only [divLane, arithLane, F.fmt]
theorem sqrtLane_float : sqrtLane ty a = f.sqrt (f.decode a) := by simp only [sqrtLane, F.fmt]
theorem minMaxLane_float (isMax : Bool) : minMaxLane isMax ty a b = .exact (f.minMax isMax a b) := by simp only [minMaxLane, F.fmt]

variable (ha : a < 2 * f.top) (hb : b < 2 * f.top) (hc : c < 2 * f.top)

theorem absLane_float : absLane ty sat a = .exact (f.mag a) := by
  simp only [absLane, F.fmt, Fmt.width, Nat.add_assoc, Nat.add_sub_cancel_left]
  rfl

section
include ha

theorem negLane_float : negLane ty sat a = .exact (f.flip a) := by
  rw [← xor_top ha]
  simp only [negLane, F.fmt, Fmt.width, Nat.add_assoc, Nat.add_sub_cancel_left]
  rfl

/-! ### Square roots -/

theorem sqrtLane_nan (h : f.infMag < f.mag a) : sqrtLane ty a = f.invalid true := by
  rw [sqrtLane_float F, decode_nan ha h]; rfl

theorem sqrtLane_zero (h : f.mag a = 0) : sqrtLane ty a = .exact a := by
  rw [sqrtLane_float F, decode_zero F.infPos ha h, ← exact_of_mag ha h, ← zero_eq_signed]; rfl

theorem sqrtLane_negative (hs : f.minus a = true) (hz : f.mag a ≠ 0) (hn : ¬ f.infMag < f.mag a) : sqrtLane ty a = f.invalid false := by
  rw [sqrtLane_float F, decode_eq ha]
  split_ifs with h1 h2
  · simp only [sqrt, sig_ne_zero hz, if_false, hs, if_true]
  · simp only [sqrt, hs, if_true]
  · omega

end

theorem sqrtLane_inf : sqrtLane ty f.infMag = .exact f.infMag := by
  have hlt := infMag_lt_top (f := f)
  rw [sqrtLane_float F, show f.decode f.infMag = .inf (f.minus f.infMag) from decode_inf (by omega) (mag_signed false hlt),
    show f.minus f.infMag = false from minus_signed false hlt]
  exact congrArg FRes.exact (inf_eq_signed false)

/-! ### Arithmetic on two lanes -/

section
include ha hb

theorem arith_nan (h : f.infMag < f.mag a ∨ f.infMag < f.mag b) : addLane ty sat a b = f.invalid true ∧ subLane ty sat a b = f.invalid true
    ∧ mulLane ty sat a b = f.invalid true ∧ divLane ty sat a b = f.invalid true ∧ ∀ isMax, minMaxLane isMax ty a b = .exact f.nan := by
  rw [addLane_float F, subLane_float F, mulLane_float F, divLane_float F]
  simp only [minMaxLane_float F]
  rcases h with h | h
  · simp only [decode_nan ha h, minMax_nan_left _ ha h]
    exact ⟨rfl, rfl, rfl, rfl, fun _ => trivial⟩
  · simp only [decode_nan hb h, minMax_nan_right _ hb h]
    generalize f.decode a = v
    cases v <;> exact ⟨rfl, rfl, rfl, rfl, fun _ => trivial⟩

theorem addLane_inf_opposite (hia : f.mag a = f.infMag) (hib : f.mag b = f.infMag) (h : a ≠ b) : addLane ty sat a b = f.invalid false := by
  rw [addLane_float F, add, decode_inf ha hia, decode_inf hb hib, FVal.inf_add_opposite (minus_ne ha hb (hia.trans hib.symm) h)]
  rfl

theorem addLane_inf (hia : f.mag a = f.infMag) (hnb : ¬ f.infMag < f.mag b) (h : f.mag b = f.infMag → a = b) :
    addLane ty sat a b = .exact a ∧ addLane ty sat b a = .exact a := by
  have hn := not_nan hb hnb
  have hi := decode_ne_opposite hb h
  rw [addLane_float F, addLane_float F, add, add, decode_inf ha hia, FVal.inf_add hn hi, FVal.add_inf hn hi, deliver_inf, deliver_inf, exact_of_mag ha hia]
  exact ⟨rfl, rfl⟩

theorem addLane_zeros (hza : f.mag a = 0) (hzb : f.mag b = 0) : addLane ty sat a b = .exact (if a = b then a else 0) := by
  rw [addLane_float F, add, decode_zero F.infPos ha hza, decode_zero F.infPos hb hzb, FVal.zero_add_zero, deliver_zero]
  split_ifs with h
  · rw [← h, Bool.and_self, exact_of_mag ha hza]
  · have hs := minus_ne ha hb (hza.trans hzb.symm) h
    rw [show (f.minus a && f.minus b) = false by revert hs; cases f.minus a <;> cases f.minus b <;> decide]
    rfl

theorem addLane_zero (hfa : f.mag a < f.infMag) (hza : f.mag a ≠ 0) (hzb : f.mag b = 0) :
    addLane ty sat a b = .exact a ∧ addLane ty sat b a = .exact a := by
  have hs := sig_ne_zero hza
  rw [addLane_float F, addLane_float F, add, add, decode_zero F.infPos hb hzb, decode_fin ha hfa, FVal.fin_add_zero hs, FVal.zero_add_fin hs,
    ← decode_fin ha hfa, deliver_decode _ _ ha (by omega), deliver_decode _ _ ha (by omega)]
  exact ⟨rfl, rfl⟩

theorem mulLane_invalid (hia : f.mag a = f.infMag) (hzb : f.mag b = 0) : mulLane ty sat a b = f.invalid false ∧ mulLane ty sat b a = f.invalid false := by
  have h := mul_decode_invalid F.infPos ha hb (.inl ⟨hia, hzb⟩)
  rw [mulLane_float F, mulLane_float F, mul, mul, FVal.mul_comm (f.decode b), h, decode_inf ha hia, decode_zero F.infPos hb hzb]
  exact ⟨rfl, rfl⟩

theorem mulLane_inf (hia : f.mag a = f.infMag) (hnb : ¬ f.infMag < f.mag b) (hzb : f.mag b ≠ 0) :
    mulLane ty sat a b = .exact (f.signed (f.minus a != f.minus b) f.infMag) ∧ mulLane ty sat b a = .exact (f.signed (f.minus a != f.minus b) f.infMag) := by
  have h := mul_decode_inf F.infPos ha hb (.inl ⟨hia, hnb, hzb⟩)
  rw [mulLane_float F, mulLane_float F, mul, mul, FVal.mul_comm (f.decode b), h, deliver_inf, deliver_inf]
  exact ⟨rfl, rfl⟩

theorem mulLane_zero (hza : f.mag a = 0) (hfb : f.mag b < f.infMag) :
    mulLane ty sat a b = .exact (f.signed (f.minus a != f.minus b) 0) ∧ mulLane ty sat b a = .exact (f.signed (f.minus a != f.minus b) 0) := by
  obtain ⟨e, h⟩ := mul_decode_zero F.infPos ha hb (.inl ⟨hza, hfb⟩)
  rw [mulLane_float F, mulLane_float F, mul, mul, FVal.mul_comm (f.decode b), h, deliver_zero, deliver_zero]
  exact ⟨rfl, rfl⟩

theorem divLane_invalid (h : f.mag a = 0 ∧ f.mag b = 0 ∨ f.mag a = f.infMag ∧ f.mag b = f.infMag) : divLane ty sat a b = f.invalid false := by
  rcases h with ⟨h1, h2⟩ | ⟨h1, h2⟩
  · rw [divLane_float F, decode_zero F.infPos ha h1, decode_zero F.infPos hb h2]; rfl
  · rw [divLane_float F, decode_inf ha h1, decode_inf hb h2]; rfl

theorem divLane_by_zero (hfa : f.mag a < f.infMag) (hza : f.mag a ≠ 0) (hzb : f.mag b = 0) :
    divLane ty sat a b = { bits := f.signed (f.minus a != f.minus b) f.infMag, flags := .divZero } := by
  rw [divLane_float F, decode_fin ha hfa, decode_zero F.infPos hb hzb]
  simp only [div, if_true, sig_ne_zero hza, if_false, inf_eq_signed, Bool.bne_eq_xor]

theorem divLane_inf (hia : f.mag a = f.infMag) (hfb : f.mag b < f.infMag) : divLane ty sat a b = .exact (f.signed (f.minus a != f.minus b) f.infMag) := by
  rw [divLane_float F, decode_inf ha hia, decode_fin hb hfb]
  simp only [div, inf_eq_signed, Bool.bne_eq_xor]

theorem divLane_by_inf (hfa : f.mag a < f.infMag) (hib : f.mag b = f.infMag) : divLane ty sat a b = .exact (f.signed (f.minus a != f.minus b) 0) := by
  rw [divLane_float F, decode_fin ha hfa, decode_inf hb hib]
  simp only [div, zero_eq_signed, Bool.bne_eq_xor]

theorem divLane_zero (hza : f.mag a = 0) (hfb : f.mag b < f.infMag) (hzb : f.mag b ≠ 0) :
    divLane ty sat a b = .exact (f.signed (f.minus a != f.minus b) 0) := by
  rw [divLane_float F, decode_zero F.infPos ha hza, decode_fin hb hfb]
  simp only [div, sig_ne_zero hzb, if_false, if_true, zero_eq_signed, Bool.bne_eq_xor]

theorem minMaxLane_order (hna : ¬ f.infMag < f.mag a) (hnb : ¬ f.infMag < f.mag b) :
    minMaxLane false ty a b = .exact (if f.key b < f.key a then b else a) ∧ minMaxLane true ty a b = .exact (if f.key a < f.key b then b else a) := by
  rw [minMaxLane_float F, minMaxLane_float F, minMax_of_not_nan _ ha hb hna hnb, minMax_of_not_nan _ ha hb hna hnb]
  exact ⟨rfl, rfl⟩

/-! ### Compares (05 R102) -/

theorem vcmpLane_nan (h : f.infMag < f.mag a ∨ f.infMag < f.mag b) : vcmpLane ty .un a b = (true, false) ∧ vcmpLane ty (.cond .ne) a b = (true, false)
    ∧ vcmpLane ty (.cond .eq) a b = (false, false) ∧ ∀ k ∈ [Cond.lt, .ge, .gt, .le], vcmpLane ty (.cond k) a b = (false, true) := by
  have hn : ((f.decode a).isNan || (f.decode b).isNan) = true := by
    rcases h with h | h
    · rw [decode_nan ha h]; rfl
    · rw [decode_nan hb h]; exact Bool.or_true _
  have he : (f.decode a).eqNum (f.decode b) = false := by
    rcases Bool.or_eq_true_iff.1 hn with h | h <;> simp [FVal.eqNum, h]
  simp only [List.forall_mem_cons, vcmpLane, F.fmt, hn, he]
  simp

theorem vcmpLane_order (hna : ¬ f.infMag < f.mag a) (hnb : ¬ f.infMag < f.mag b) : vcmpLane ty .un a b = (false, false)
    ∧ vcmpLane ty (.cond .eq) a b = (decide (f.num a = f.num b), false) ∧ vcmpLane ty (.cond .ne) a b = (decide (f.num a ≠ f.num b), false)
    ∧ vcmpLane ty (.cond .lt) a b = (decide (f.num a < f.num b), false) ∧ vcmpLane ty (.cond .ge) a b = (decide (f.num b ≤ f.num a), false)
    ∧ vcmpLane ty (.cond .gt) a b = (decide (f.num b < f.num a), false) ∧ vcmpLane ty (.cond .le) a b = (decide (f.num a ≤ f.num b), false) := by
  simp only [vcmpLane, F.fmt, isNan_decode ha, isNan_decode hb, decide_eq_false hna, decide_eq_false hnb, ltNum_decode F.infPos ha hb hna hnb,
    ltNum_decode F.infPos hb ha hnb hna, eqNum_decode F.infPos ha hb hna hnb, Bool.or_false,
    Bool.not_false, Bool.true_and, ← decide_not, not_lt, ne_eq, and_self]

end

theorem addLane_flip (ha : a < 2 * f.top) (hfa : f.mag a < f.infMag) (hza : f.mag a ≠ 0) : addLane ty sat a (f.flip a) = .exact 0 := by
  rw [addLane_float F, add, decode_flip ha, decode_fin ha hfa, FVal.negate, FVal.fin_add_negate _ (sig_ne_zero hza), deliver_zero]
  rfl

theorem subLane_eq (hb : b < 2 * f.top) : subLane ty sat a b = addLane ty sat a (f.flip b) := by
  rw [subLane_float F, addLane_float F, sub, decode_flip hb]

end

end Sys2Proof.Machine
end

section
/-! SUPPORT. Fused products, reductions and float conversions (05 R101, R103, R105) on NaN, infinities and zeros. -/

namespace Sys2Proof.Machine

open Fmt

/-! ### Signs of the terms of a fused product -/

namespace FVal

/-- The sign of a term of a fused product, as its word asks. -/
def negateIf (n : Bool) (v : FVal) : FVal := if n then v.negate else v

theorem negateIf_nan (n : Bool) : negateIf n .nan = .nan := by cases n <;> rfl
theorem negateIf_inf (n s : Bool) : negateIf n (.inf s) = .inf (s != n) := by cases n <;> cases s <;> rfl
theorem negateIf_fin (n s : Bool) (m : Nat) (e : Int) : negateIf n (.fin s m e) = .fin (s != n) m e := by cases n <;> cases s <;> rfl
theorem negateIf_eq_nan {n : Bool} {v : FVal} : negateIf n v = .nan ↔ v = .nan := by cases n <;> cases v <;> simp [negateIf, negate]
theorem negateIf_eq_inf {n s : Bool} {v : FVal} : negateIf n v = .inf s ↔ v = .inf (s != n) := by
  cases n <;> cases v <;> simp [negateIf, negate, Bool.not_eq_eq_eq_not]

end FVal

section
variable {ty : LaneTy} {f : Fmt} (F : FloatLane ty f) (sat : Bool) {a b c : Nat}
include F

theorem fmaLane_float (np nc : Bool) : fmaLane np nc ty sat a b c = f.deliver (rneOf sat)
    ((f.decode a).isNan || (f.decode b).isNan || (f.decode c).isNan)
    ((FVal.negateIf np ((f.decode a).mul (f.decode b))).add (FVal.negateIf nc (f.decode c))) := by
  simp only [fmaLane, F.fmt, FVal.negateIf]

section
variable (ha : a < 2 * f.top) (hb : b < 2 * f.top) (hc : c < 2 * f.top) (np nc : Bool)
include ha hb hc

theorem fmaLane_nan (h : f.infMag < f.mag a ∨ f.infMag < f.mag b ∨ f.infMag < f.mag c) : fmaLane np nc ty sat a b c = f.invalid true := by
  have hn : ((f.decode a).isNan || (f.decode b).isNan || (f.decode c).isNan) = true := by
    simpa only [isNan_decode ha, isNan_decode hb, isNan_decode hc, Bool.or_eq_true, decide_eq_true_eq, or_assoc] using h
  rw [fmaLane_float F, hn]
  rw [← or_assoc] at h
  rcases h with h | h
  · rw [mul_decode_nan ha hb h, FVal.negateIf_nan]; rfl
  · rw [decode_nan hc h, FVal.negateIf_nan, FVal.add_nan_right]; rfl

theorem fmaLane_invalid (h : f.mag a = f.infMag ∧ f.mag b = 0 ∨ f.mag a = 0 ∧ f.mag b = f.infMag) (hnc : ¬ f.infMag < f.mag c) :
    fmaLane np nc ty sat a b c = f.invalid false := by
  have hpos := F.infPos
  rw [fmaLane_float F, mul_decode_invalid hpos ha hb h, FVal.negateIf_nan, FVal.add_nan_left, isNan_decode ha, isNan_decode hb, isNan_decode hc,
    decide_eq_false (by omega), decide_eq_false (by omega), decide_eq_false hnc]
  rfl

theorem fmaLane_inf
    (h : f.mag a = f.infMag ∧ ¬ f.infMag < f.mag b ∧ f.mag b ≠ 0 ∨ f.mag b = f.infMag ∧ ¬ f.infMag < f.mag a ∧ f.mag a ≠ 0)
    (hnc : ¬ f.infMag < f.mag c) :
    if f.mag c = f.infMag ∧ (f.minus c != nc) ≠ ((f.minus a != f.minus b) != np) then fmaLane np nc ty sat a b c = f.invalid false
    else fmaLane np nc ty sat a b c = .exact (f.signed ((f.minus a != f.minus b) != np) f.infMag) := by
  rw [fmaLane_float F, mul_decode_inf F.infPos ha hb h, FVal.negateIf_inf, isNan_decode ha, isNan_decode hb, isNan_decode hc, decide_eq_false (by omega),
    decide_eq_false (by omega), decide_eq_false hnc]
  split_ifs with hopp
  · obtain ⟨hic, hs⟩ := hopp
    rw [decode_inf hc hic, FVal.negateIf_inf, FVal.inf_add_opposite hs.symm]
    rfl
  · rw [FVal.inf_add, deliver_inf]
    · exact mt FVal.negateIf_eq_nan.1 (not_nan hc hnc)
    · rw [Ne, FVal.negateIf_eq_inf, decode_eq_inf_iff hc]
      rintro ⟨hic, hs⟩
      refine hopp ⟨hic, ?_⟩
      rw [hs]
      cases nc <;> simp

theorem fmaLane_inf_addend (hfa : f.mag a < f.infMag) (hfb : f.mag b < f.infMag) (hic : f.mag c = f.infMag) :
    fmaLane np nc ty sat a b c = .exact (f.signed (f.minus c != nc) f.infMag) := by
  obtain ⟨s, m, e, hp⟩ := mul_decode_fin ha hb hfa hfb
  rw [fmaLane_float F, hp, FVal.negateIf_fin, decode_inf hc hic, FVal.negateIf_inf, FVal.add_inf (by simp) (by simp), deliver_inf]

theorem fmaLane_zero (h : f.mag a = 0 ∧ f.mag b < f.infMag ∨ f.mag a < f.infMag ∧ f.mag b = 0) (hzc : f.mag c = 0) :
    fmaLane np nc ty sat a b c = .exact (f.signed (((f.minus a != f.minus b) != np) && (f.minus c != nc)) 0) := by
  obtain ⟨e, hp⟩ := mul_decode_zero F.infPos ha hb h
  rw [fmaLane_float F, hp, FVal.negateIf_fin, decode_zero F.infPos hc hzc, FVal.negateIf_fin, FVal.zero_add_zero, deliver_zero]

end

/-! ### Reductions (05 R103) -/

variable {ls : List Nat} (hl : ∀ x ∈ ls, x < 2 * f.top)

theorem minMaxLanes_float (isMax : Bool) : minMaxLanes isMax ty ls = .exact (ls.foldl (f.minMax isMax) (f.inf isMax)) := by
  simp only [minMaxLanes, F.fmt, minMaxLane_float F, FRes.exact]

theorem minMaxLanes_nil (isMax : Bool) : minMaxLanes isMax ty [] = .exact (f.signed isMax f.infMag) := by
  rw [minMaxLanes_float F, ← inf_eq_signed]; rfl

theorem sumLanes_cons (x : Nat) : sumLanes ty sat (x :: ls) = f.deliver (rneOf sat) ((f.decode x).isNan || (ls.map f.decode).any (·.isNan))
    ((ls.map f.decode).foldl FVal.add (f.decode x)) := by
  simp only [sumLanes, F.fmt, List.map_cons]

include hl

theorem minMaxLanes_nan (isMax : Bool) (h : ∃ x ∈ ls, f.infMag < f.mag x) : minMaxLanes isMax ty ls = .exact f.nan := by
  rw [minMaxLanes_float F, foldl_minMax_nan F.fracPos isMax hl h]

theorem minMaxLanes_beyond (isMax : Bool) (h : ls ≠ []) (hn : ∀ x ∈ ls, ¬ f.infMag < f.mag x) :
    ∃ r ∈ ls, minMaxLanes isMax ty ls = .exact r ∧ ∀ x ∈ ls, f.Beyond isMax r x := by
  cases ls with
  | nil => exact absurd rfl h
  | cons y ys =>
    obtain ⟨hmem, hb⟩ := foldl_minMax_beyond isMax fun x hx => ⟨hl x hx, hn x hx⟩
    rw [minMaxLanes_float F, List.foldl_cons, minMax_inf_left isMax (hl y List.mem_cons_self) (hn y List.mem_cons_self)]
    exact ⟨_, hmem, rfl, hb⟩

theorem sumLanes_nan (h : ∃ x ∈ ls, f.infMag < f.mag x) : sumLanes ty sat ls = f.invalid true := by
  obtain ⟨x, hx, hn⟩ := h
  have hx' := decode_nan (hl x hx) hn
  cases ls with
  | nil => exact absurd hx List.not_mem_nil
  | cons y ys =>
    rw [sumLanes_cons F]
    rcases List.mem_cons.1 hx with rfl | hx
    · rw [hx', FVal.foldl_add_nan]; rfl
    · have hmem : FVal.nan ∈ ys.map f.decode := List.mem_map.2 ⟨x, hx, hx'⟩
      rw [FVal.foldl_add_of_nan hmem, List.any_eq_true.2 ⟨_, hmem, rfl⟩, Bool.or_true]
      rfl

theorem sumLanes_both_inf (hn : ∀ x ∈ ls, ¬ f.infMag < f.mag x) (h : ∀ s, f.signed s f.infMag ∈ ls) : sumLanes ty sat ls = f.invalid false := by
  have hlt := infMag_lt_top (f := f)
  cases ls with
  | nil => exact absurd (h true) List.not_mem_nil
  | cons y ys =>
    have hmem (s : Bool) : f.decode y = .inf s ∨ .inf s ∈ ys.map f.decode := by
      have hd : f.decode (f.signed s f.infMag) = .inf s := (decode_eq_inf_iff (signed_lt s hlt)).2 ⟨mag_signed s hlt, minus_signed s hlt⟩
      exact (List.mem_cons.1 (h s)).imp (fun e => by rw [← e, hd]) (fun e => List.mem_map.2 ⟨_, e, hd⟩)
    have hany : ((f.decode y).isNan || (ys.map f.decode).any (·.isNan)) = false := by
      rw [← List.any_cons (f := FVal.isNan), ← List.map_cons, List.any_map, List.any_eq_false]
      intro x hx
      rw [Function.comp_apply, isNan_decode (hl x hx)]
      simpa using hn x hx
    rw [sumLanes_cons F, FVal.foldl_add_both_inf hmem, hany]
    rfl

theorem sumLanes_inf (s : Bool) (hn : ∀ x ∈ ls, ¬ f.infMag < f.mag x) (h : f.signed s f.infMag ∈ ls) (h' : f.signed (!s) f.infMag ∉ ls) :
    sumLanes ty sat ls = .exact (f.signed s f.infMag) := by
  have hlt := infMag_lt_top (f := f)
  cases ls with
  | nil => exact absurd h List.not_mem_nil
  | cons y ys =>
    rw [sumLanes_cons F, FVal.foldl_add_inf (s := s), deliver_inf]
    · rw [← List.map_cons]
      refine List.forall_mem_map.2 fun x hx => ⟨not_nan (hl x hx) (hn x hx), ?_⟩
      rw [Ne, decode_eq_inf_iff (hl x hx)]
      rintro ⟨hi, hs⟩
      rw [← hs, ← hi, signed_minus_mag (hl x hx)] at h'
      exact h' hx
    · rw [← List.map_cons]
      exact List.mem_map.2 ⟨_, h, (decode_eq_inf_iff (signed_lt s hlt)).2 ⟨mag_signed s hlt, minus_signed s hlt⟩⟩

theorem sumLanes_zero (h : ∀ x ∈ ls, f.mag x = 0) : sumLanes ty sat ls = .exact (if ls ≠ [] ∧ ∀ x ∈ ls, x = f.top then f.top else 0) := by
  cases ls with
  | nil => simp only [sumLanes, F.fmt]; simp [zero_eq_signed, signed]
  | cons y ys =>
    have hd {x : Nat} (hx : x ∈ y :: ys) := decode_zero F.infPos (hl x hx) (h x hx)
    have htop {x : Nat} (hx : x ∈ y :: ys) : x = f.top ↔ f.minus x = true := by
      have hs := signed_minus_mag (hl x hx)
      rw [h x hx] at hs
      have ht : 0 < f.top := Nat.two_pow_pos _
      rw [← hs, minus_signed _ ht]
      cases f.minus x <;> simp [signed]
      omega
    have hz : ∀ v ∈ ys.map f.decode, ∃ k, v = .fin v.neg 0 k := List.forall_mem_map.2 fun x hx => by
      rw [hd (List.mem_cons_of_mem _ hx)]
      exact ⟨_, rfl⟩
    obtain ⟨k, hk⟩ := FVal.foldl_add_zero hz (f.minus y) (f.lastExp 0)
    rw [sumLanes_cons F, hd List.mem_cons_self, hk, deliver_zero]
    have hall : (f.minus y && (ys.map f.decode).all (·.neg)) = true ↔ ∀ x ∈ y :: ys, x = f.top := by
      rw [List.all_map, Bool.and_eq_true, List.all_eq_true, List.forall_mem_cons, htop List.mem_cons_self]
      refine and_congr_right fun _ => forall₂_congr fun x hx => ?_
      rw [Function.comp_apply, hd (List.mem_cons_of_mem _ hx), htop (List.mem_cons_of_mem _ hx)]
      rfl
    unfold signed
    simp only [hall, ne_eq, List.cons_ne_nil, not_false_eq_true, true_and, Nat.zero_add]

end

/-! ### Conversions between formats (05 R105) -/

section
variable {src dst : LaneTy} {f g : Fmt} (F : FloatLane src f) (G : FloatLane dst g) (sat : Bool) {a : Nat} (ha : a < 2 * f.top)
include F G ha

theorem cvtLane_nan (h : f.infMag < f.mag a) : cvtLane src dst sat a = .exact g.nan := by
  simp only [cvtLane, F.fmt, G.fmt, decode_nan ha h, narrow]

theorem cvtLane_inf (h : f.mag a = f.infMag) : cvtLane src dst sat a = .exact (g.signed (f.minus a) g.infMag) := by
  simp only [cvtLane, F.fmt, G.fmt, decode_inf ha h, narrow, inf_eq_signed]

theorem cvtLane_zero (h : f.mag a = 0) : cvtLane src dst sat a = .exact (g.signed (f.minus a) 0) := by
  simp only [cvtLane, F.fmt, G.fmt, decode_zero F.infPos ha h, narrow, round_zero, ← zero_eq_signed]
  rfl

end

theorem cvtLane_self {ty : LaneTy} {f : Fmt} (F : FloatLane ty f) (sat : Bool) {a : Nat} (ha : a < 2 * f.top) (h : f.mag a < f.infMag) :
    cvtLane ty ty sat a = .exact a := by
  simp only [cvtLane, F.fmt, narrow_decode _ ha h.le]

end Sys2Proof.Machine
end

section
/-! SUPPORT. Floats as integers (03 R58): the nearest integer, even where two are. -/

namespace Sys2Proof.Machine

/-- The integer nearest a value, and the even one where two are. -/
def NearestInt (v : ℚ) (i : ℤ) : Prop := |(i : ℚ) - v| ≤ 1 / 2 ∧ (|(i : ℚ) - v| = 1 / 2 → i % 2 = 0)

theorem NearestInt.le {v : ℚ} {i j : ℤ} (hi : NearestInt v i) (hj : NearestInt v j) : j ≤ i := by
  by_contra hlt
  obtain ⟨hi1, hi2⟩ := hi
  obtain ⟨hj1, hj2⟩ := hj
  have h1 : ((i + 1 : ℤ) : ℚ) ≤ j := by exact_mod_cast not_le.1 hlt
  have hi3 := (abs_le.1 hi1).1
  have hj3 := (abs_le.1 hj1).2
  push_cast at h1
  have hvi : (i : ℚ) - v = -(1 / 2) := by linarith
  have hvj : (j : ℚ) - v = 1 / 2 := by linarith
  have hij : j = i + 1 := by
    have : (j : ℚ) = ((i + 1 : ℤ) : ℚ) := by push_cast; linarith
    exact_mod_cast this
  have ei := hi2 (by rw [hvi, abs_neg]; norm_num)
  have ej := hj2 (by rw [hvj]; norm_num)
  omega

theorem NearestInt.unique {v : ℚ} {i j : ℤ} (hi : NearestInt v i) (hj : NearestInt v j) : i = j := le_antisymm (hj.le hi) (hi.le hj)

theorem NearestInt.neg {v : ℚ} {i : ℤ} (h : NearestInt v i) : NearestInt (-v) (-i) := by
  have habs : |((-i : ℤ) : ℚ) - -v| = |(i : ℚ) - v| := by rw [Int.cast_neg, ← abs_neg]; congr 1; ring
  obtain ⟨h1, h2⟩ := h
  unfold NearestInt
  rw [habs]
  exact ⟨h1, fun h => by have := h2 h; omega⟩

theorem nearestInt_self (i : ℤ) : NearestInt i i := by simp [NearestInt]

/-- One of the two truncated differences is the distance. -/
theorem abs_sub_div_two_pow (m mag k : Nat) : |((m : ℤ) : ℚ) - (mag : ℚ) / 2 ^ k| = ((m * 2 ^ k - mag + (mag - m * 2 ^ k) : Nat) : ℚ) / 2 ^ k := by
  have hp : (0 : ℚ) < 2 ^ k := by positivity
  rw [eq_div_iff hp.ne', ← abs_of_pos hp, ← abs_mul, abs_of_pos hp, sub_mul, div_mul_cancel₀ _ hp.ne']
  rcases le_total (m * 2 ^ k) mag with h | h
  · have hq : (m : ℚ) * 2 ^ k ≤ mag := by exact_mod_cast h
    rw [Nat.sub_eq_zero_of_le h, Nat.zero_add, Nat.cast_sub h, Int.cast_natCast, abs_of_nonpos (by linarith)]
    push_cast; ring
  · have hq : (mag : ℚ) ≤ m * 2 ^ k := by exact_mod_cast h
    rw [Nat.sub_eq_zero_of_le h, Nat.add_zero, Nat.cast_sub h, Int.cast_natCast, abs_of_nonneg (by linarith)]
    push_cast; ring

theorem NearestEven.nearestInt {mag k m : Nat} (h : NearestEven mag k m) : NearestInt ((mag : ℚ) / 2 ^ k) m := by
  obtain ⟨⟨h1, h2⟩, h3⟩ := h
  have hp : (0 : ℚ) < 2 ^ k := by positivity
  unfold NearestInt
  rw [abs_sub_div_two_pow]
  generalize hd : m * 2 ^ k - mag + (mag - m * 2 ^ k) = d
  refine ⟨?_, fun h => ?_⟩
  · have hle : (2 * d : ℚ) ≤ 2 ^ k := by exact_mod_cast (by omega : 2 * d ≤ 2 ^ k)
    rw [div_le_iff₀ hp]
    linarith
  · rw [div_eq_iff hp.ne'] at h
    have he : (2 * d : ℚ) = 2 ^ k := by linarith
    have he' : 2 * d = 2 ^ k := by exact_mod_cast he
    have := h3 (by omega)
    omega

theorem roundAt_rne_int (mag : Nat) (exp : Int) :
    NearestInt (mag * (2 : ℚ) ^ exp) (roundAt .rne mag exp 0 false).1
      ∧ ((roundAt .rne mag exp 0 false).2 = true ↔ (((roundAt .rne mag exp 0 false).1 : ℤ) : ℚ) ≠ mag * (2 : ℚ) ^ exp) := by
  rcases le_total 0 exp with h | h
  · obtain ⟨n, rfl⟩ := Int.eq_ofNat_of_zero_le h
    have hr : roundAt .rne mag (n : ℤ) 0 false = (mag * 2 ^ n, false) := by simp [roundAt]
    have hv : (mag : ℚ) * 2 ^ (n : ℤ) = ((mag * 2 ^ n : Nat) : ℤ) := by push_cast; rw [zpow_natCast]
    rw [hr, hv]
    exact ⟨nearestInt_self _, by simp⟩
  · obtain ⟨k, hk⟩ := Int.eq_ofNat_of_zero_le (neg_nonneg.2 h)
    obtain rfl : exp = -(k : ℤ) := by omega
    have hne := roundAt_rne_nearest mag k (-(k : ℤ))
    have hnx := roundAt_inexact .rne mag k (-(k : ℤ))
    rw [neg_add_cancel] at hne hnx
    have hp : (0 : ℚ) < 2 ^ k := by positivity
    rw [zpow_neg, zpow_natCast, ← div_eq_mul_inv, hnx, hne.ne_iff, Ne, Ne, eq_div_iff hp.ne']
    exact ⟨hne.nearestInt, not_congr (by exact_mod_cast Iff.rfl)⟩

theorem roundInt_nearest (neg : Bool) (mag : Nat) (exp : Int) :
    NearestInt ((if neg then -1 else 1) * (mag : ℚ) * (2 : ℚ) ^ exp) (roundInt neg mag exp).1
      ∧ ((roundInt neg mag exp).2 = true ↔ ((roundInt neg mag exp).1 : ℚ) ≠ (if neg then -1 else 1) * (mag : ℚ) * (2 : ℚ) ^ exp) := by
  obtain ⟨h1, h2⟩ := roundAt_rne_int mag exp
  cases neg
  · simpa only [roundInt, Bool.false_eq_true, if_false, one_mul] using ⟨h1, h2⟩
  · simp only [roundInt, if_true, neg_mul, one_mul]
    refine ⟨h1.neg, h2.trans (not_congr ?_)⟩
    rw [Int.cast_neg, neg_inj]

/-- What a finite float gives is fixed by the nearest integer. -/
theorem floatToInt_fin (n : Nat) (sat neg : Bool) (mag : Nat) (exp : Int) {i : ℤ}
    (h : NearestInt ((if neg then -1 else 1) * (mag : ℚ) * (2 : ℚ) ^ exp) i) :
    (floatToInt n sat (.fin neg mag exp)).bits = (BitVec.ofInt n (bounded n sat i)).toNat
      ∧ ((floatToInt n sat (.fin neg mag exp)).flags.nv = true ↔ i < -(2 ^ (n - 1) : Nat) ∨ ((2 ^ (n - 1) : Nat) : Int) - 1 < i)
      ∧ ((floatToInt n sat (.fin neg mag exp)).flags.nx = true ↔ (i : ℚ) ≠ (if neg then -1 else 1) * (mag : ℚ) * (2 : ℚ) ^ exp) := by
  obtain ⟨hr, hx⟩ := roundInt_nearest neg mag exp
  obtain rfl := h.unique hr
  refine ⟨narrowInt_eq .., ?_, hx⟩
  simp only [floatToInt, Bool.or_eq_true, decide_eq_true_eq]

namespace Fmt

variable {f : Fmt} {x : Nat}

/-- The value of a finite pattern (03 R52). -/
def value (f : Fmt) (x : Nat) : ℚ := (if f.minus x then -1 else 1)
  * ((f.mag x % 2 ^ f.fb + (if f.mag x / 2 ^ f.fb = 0 then 0 else 2 ^ f.fb) : Nat) : ℚ)
  * (2 : ℚ) ^ (((max (f.mag x / 2 ^ f.fb) 1 : Nat) : Int) - f.bias - (f.fb : Int))

theorem value_eq (f : Fmt) (x : Nat) : f.value x = (if f.minus x then -1 else 1) * (f.sig (f.mag x) : ℚ) * (2 : ℚ) ^ f.lastExp (f.mag x) := by
  have hd := Nat.div_add_mod' (f.mag x) (2 ^ f.fb)
  unfold value sig lastExp emin
  split_ifs with h0 h1 h1
  · rw [h1, Nat.zero_mul, Nat.zero_add] at hd
    rw [h1, hd]; rfl
  · rw [max_eq_left (Nat.pos_of_ne_zero h1), Nat.add_comm]
  · rw [h1, Nat.zero_mul, Nat.zero_add] at hd
    rw [h1, hd]; rfl
  · rw [max_eq_left (Nat.pos_of_ne_zero h1), Nat.add_comm]

end Fmt

open Fmt

theorem wrapN_least {n : Nat} (hn : 0 < n) : wrapN n (-(2 ^ (n - 1) : Nat)) = 2 ^ (n - 1) := by
  have h2 : 2 ^ n = 2 * 2 ^ (n - 1) := by rw [← Nat.pow_succ', Nat.succ_eq_add_one, Nat.sub_add_cancel hn]
  have hp := Nat.two_pow_pos (n - 1)
  unfold wrapN
  generalize 2 ^ (n - 1) = p at *
  rw [h2, Int.emod_eq_add_self_emod, Int.emod_eq_of_lt (by omega) (by omega)]
  omega

section
variable {src dst : LaneTy} {f : Fmt} (F : FloatLane src f) (hd : fmtOf dst = none) (sat : Bool) {a : Nat} (ha : a < 2 * f.top)
include F hd ha

theorem cvtLane_int_nan (h : f.infMag < f.mag a) : cvtLane src dst sat a = { bits := 0, flags := .invalid } := by
  simp only [cvtLane, F.fmt, hd, decode_nan ha h, floatToInt]

theorem cvtLane_int_inf (h : f.mag a = f.infMag) : cvtLane src dst sat a
    = { bits := if sat then (if f.minus a then 2 ^ (dst.width - 1) else 2 ^ (dst.width - 1) - 1) else 0, flags := .invalid } := by
  simp only [cvtLane, F.fmt, hd, decode_inf ha h, floatToInt, wrapN_least (laneWidth_pos dst)]

theorem cvtLane_int_fin (h : f.mag a < f.infMag) {i : ℤ} (hi : NearestInt (f.value a) i) :
    (cvtLane src dst sat a).bits = (BitVec.ofInt dst.width (bounded dst.width sat i)).toNat
      ∧ ((cvtLane src dst sat a).flags.nv = true ↔ i < -(2 ^ (dst.width - 1) : Nat) ∨ ((2 ^ (dst.width - 1) : Nat) : Int) - 1 < i)
      ∧ ((cvtLane src dst sat a).flags.nx = true ↔ (i : ℚ) ≠ f.value a) := by
  simp only [cvtLane, F.fmt, hd, decode_fin ha h]
  rw [value_eq] at hi ⊢
  exact floatToInt_fin dst.width sat _ _ _ hi

end
end Sys2Proof.Machine
end

section
/-! SUPPORT. Patch cells (05 R112), and the statement on integer lanes, rounding and float lanes assembled from the lemmas of the sections before. -/

namespace Sys2Proof.Machine

open Fmt

/-! ### Patch cells (05 R112) -/

theorem cellOp_lanes (a b k : Nat) : cellOp 2 a b k = addLane .f32 false a b ∧ cellOp 3 a b k = subLane .f32 false a b ∧ cellOp 4 a b k = mulLane .f32 false a b
    ∧ cellOp 5 a b k = fmaLane false false .f32 false a b k ∧ cellOp 6 a b k = minMaxLane false .f32 a b ∧ cellOp 7 a b k = minMaxLane true .f32 a b :=
  ⟨rfl, rfl, rfl, rfl, rfl, rfl⟩

theorem FVal.ltNum_nan {x y : FVal} (h : x = .nan ∨ y = .nan) : x.ltNum y = false := by
  have hl : x.less y = false := by
    rcases h with rfl | rfl
    · rfl
    · cases x <;> rfl
  rw [FVal.ltNum, hl, Bool.and_false]

theorem fp32_infPos : 0 < fp32.infMag := by decide

section
variable {a b : Nat} (ha : a < 2 * fp32.top) (hb : b < 2 * fp32.top) (k : Nat)
include ha hb

theorem cellOp_lt_nan (h : fp32.infMag < fp32.mag a ∨ fp32.infMag < fp32.mag b) : cellOp 0x0A a b k = .exact 0 := by
  have hn : (fp32.decode a).ltNum (fp32.decode b) = false := FVal.ltNum_nan (h.imp (decode_nan ha) (decode_nan hb))
  simp only [cellOp, hn, Bool.false_eq_true, if_false]

theorem cellOp_lt (hna : ¬ fp32.infMag < fp32.mag a) (hnb : ¬ fp32.infMag < fp32.mag b) :
    cellOp 0x0A a b k = .exact (if fp32.num a < fp32.num b then 0x3F800000 else 0) := by
  simp only [cellOp, ltNum_decode fp32_infPos ha hb hna hnb, decide_eq_true_eq]

end

theorem cellOp_sub_of_le {a b : Nat} (ha : a < 2 ^ 32) (k : Nat) (h : b ≤ a) : cellOp 0x0C a b k = .exact (a - b) := by
  simp only [cellOp]
  rw [show a + 2 ^ 32 - b = a - b + 2 ^ 32 by omega, Nat.add_mod_right, Nat.mod_eq_of_lt (by omega)]

theorem cellOp_sub_of_lt {a b : Nat} (k : Nat) (h : a < b) : cellOp 0x0C a b k = .exact (a + 2 ^ 32 - b) := by
  simp only [cellOp]
  rw [Nat.mod_eq_of_lt (by omega)]

/-! ### O25 -/

theorem Fmt.signed_eq_add (f : Fmt) (s : Bool) (x : Nat) : f.signed s x = x + if s then f.top else 0 := by cases s <;> rfl

theorem frac_eq {ty : LaneTy} {f : Fmt} (F : FloatLane ty f) : (if ty = .f32 then 23 else if ty = .bf16 then 7 else 10) = f.fb := by
  have h := F.fmt
  cases ty <;> simp only [fmtOf, Option.some.injEq, reduceCtorEq] at h <;> subst h <;> rfl

theorem bias_eq {ty : LaneTy} {f : Fmt} (F : FloatLane ty f) : (if ty = .f16 then (15 : Int) else 127) = f.bias := by
  have h := F.fmt
  cases ty <;> simp only [fmtOf, Option.some.injEq, reduceCtorEq] at h <;> subst h <;> rfl

/-- Settles O25, by the lemmas on each lane operation. -/
theorem integerLanesAndRounding : Obligations.IntegerLanesAndRounding := by
  unfold Obligations.IntegerLanesAndRounding
  refine ⟨?_, ?_, ?_⟩
  · intro ty sat a b c h ha hb hc n A B C bounded is
    exact ⟨arithLane_int h _ _ sat, arithLane_int h _ _ sat, arithLane_int h _ _ sat, minMaxLane_int h false ha hb, minMaxLane_int h true ha hb,
      absLane_int h sat, negLane_int h sat, sllLane_int ty a b, srlLane_int ha b, sraLane_int ty a b, mulhLane_int ty a b,
      fmaLane_int h false false sat, fmaLane_int h false true sat, fmaLane_int h true false sat, fmaLane_int h true true sat⟩
  · intro mag k e near zero
    have hnear := roundAt_rne_nearest mag k e
    have hzero : zero.1 = mag / 2 ^ k := roundAt_rz_below mag k e
    refine ⟨hnear.1, hnear.2, ?_, (roundAt_inexact .rne mag k e).trans hnear.ne_iff, ?_⟩
    · rw [hzero]
      exact ⟨Nat.div_mul_le_self .., Nat.lt_mul_of_div_lt (Nat.lt_succ_self _) (Nat.two_pow_pos k)⟩
    · rw [hzero]
      exact (roundAt_inexact .rz mag k e).trans (div_mul_ne_iff mag k)
  · intro ty inf nan sat a b c hmem ha hb hc
    obtain ⟨f, F, rfl, rfl⟩ := floatLane_of_mem hmem
    rw [F.width] at ha hb hc
    rw [F.top, F.width]
    intro top mag minus flip signed isNan isInf isZero isFin xs quiet bad is num key
    refine ⟨arith_nan F sat ha hb, addLane_inf_opposite F sat ha hb, addLane_inf F sat ha hb, addLane_zeros F sat ha hb, addLane_zero F sat ha hb,
      addLane_flip F sat ha, subLane_eq F sat hb, mulLane_invalid F sat ha hb, mulLane_inf F sat ha hb, mulLane_zero F sat ha hb,
      divLane_invalid F sat ha hb, divLane_by_zero F sat ha hb, divLane_inf F sat ha hb, divLane_by_inf F sat ha hb, divLane_zero F sat ha hb,
      sqrtLane_nan F ha, sqrtLane_zero F ha, sqrtLane_inf F, sqrtLane_negative F ha, absLane_float F sat, negLane_float F sat ha,
      minMaxLane_order F ha hb, ?_, vcmpLane_nan F ha hb, vcmpLane_order F ha hb, ?_, ?_, ?_, ?_⟩
    · intro np nc
      exact ⟨fmaLane_nan F sat ha hb hc np nc, fmaLane_invalid F sat ha hb hc np nc, fmaLane_inf F sat ha hb hc np nc,
        fmaLane_inf_addend F sat ha hb hc np nc, fmaLane_zero F sat ha hb hc np nc⟩
    · intro ls hl
      refine ⟨fun isMax => ⟨minMaxLanes_nan F hl isMax, fun h => h ▸ minMaxLanes_nil F isMax, minMaxLanes_beyond F hl isMax⟩, sumLanes_nan F sat hl,
        fun hn => ⟨fun h1 h2 => sumLanes_both_inf F sat hl hn (fun s => by cases s; exacts [h1, h2]),
          sumLanes_inf F sat hl false hn, sumLanes_inf F sat hl true hn⟩,
        sumLanes_zero F sat hl⟩
    · intro dst dinf dnan hdst
      obtain ⟨g, G, rfl, rfl⟩ := floatLane_of_mem hdst
      rw [G.top]
      intro dsign
      have hsign (x : Nat) : g.signed (minus a) x = x + dsign := signed_eq_add g _ x
      refine ⟨cvtLane_nan F G sat ha, fun h => ?_, fun h => ?_, fun h => h ▸ cvtLane_self F sat ha⟩
      · rw [← hsign]; exact cvtLane_inf F G sat ha h
      · rw [← Nat.zero_add dsign, ← hsign]; exact cvtLane_zero F G sat ha h
    · intro dst hdst
      rw [frac_eq F, bias_eq F]
      intro n frac bias e value lo hi
      refine ⟨cvtLane_int_nan F hdst sat ha, cvtLane_int_inf F hdst sat ha, fun h i h1 h2 => ?_⟩
      have hlo : lo = -(2 ^ (n - 1) : Int) := by simp [lo]
      have hhi : hi = (2 ^ (n - 1) : Int) - 1 := by simp [hi]
      have hint := cvtLane_int_fin F hdst sat ha h (i := i) ⟨h1, h2⟩
      refine ⟨?_, hint.2⟩
      rw [hlo, hhi]
      exact hint.1
    · rintro rfl op
      obtain rfl : fp32 = f := Option.some.inj F.fmt
      obtain ⟨h2, h3, h4, h5, h6, h7⟩ := cellOp_lanes a b c
      exact ⟨rfl, h2, h3, h4, h5, h6, h7, absLane_float F false, negLane_float F false ha, cellOp_lt_nan ha hb c, cellOp_lt ha hb c, rfl,
        cellOp_sub_of_le ha c, cellOp_sub_of_lt c, rfl, rfl, rfl, rfl, rfl, rfl, fun h => by rw [h]; rfl⟩

end Sys2Proof.Machine
end

section
/-! SUPPORT. The issue of a word of a held line (01 R14, R16, R17). -/

open Sys2Proof Sys2Proof.Machine

namespace Sys2Proof.Machine

/-! ### The words of a line -/

/-- A word that memory holds as the core fetched it, and that nothing has replaced, is fetched so (01 R16). -/
theorem State.codeWord_eq_memory {s : State} {core line key i : Nat}
    (held : ∀ ws, kget line (s.core core).lines = some ws → ws.2.getD i 0 = BitVec.ofNat 32 (s.peek (key / 128 * 128 + 4 * i) 4))
    (kept : ∀ e ∈ s.overwritten, e.1 ≠ key / 128 * 128 + 4 * i) :
    s.codeWord core line key i = (s, BitVec.ofNat 32 (s.peek (key / 128 * 128 + 4 * i) 4)) := by
  have gone : s.overwritten.filterMap (fun e => if e.1 = key / 128 * 128 + 4 * i && s.issuedBy core e.2.2 then some e.2.1 else none) = [] := by
    rw [List.filterMap_eq_nil_iff]
    intro e he
    simp [kept e he]
  unfold State.codeWord
  simp only [gone]
  cases hl : kget line (s.core core).lines with
  | none => simp
  | some ws =>
    simp only [held ws hl]
    simp

/-- The state in which a context has come to the line of its next word. -/
def State.lineEntered (s : State) (w : CtxId) : State :=
  if (s.ctx w).newLine then s.modCtx w (fun c => { c with newLine := false }) else s

/-- The line of a context's PC is held, memory still holds its word i as it was fetched, and nothing has replaced it. -/
structure State.HoldsWord (s : State) (w : CtxId) (key : Nat) (ws : List (BitVec 32)) (i : Nat) : Prop where
  line : kget (lineOf (s.ctx w).pc) (s.core w.core).lines = some (key, ws)
  aligned : key % 128 = 0
  memory : s.peek (key + 4 * i) 4 = (ws.getD i 0).toNat
  kept : ∀ e ∈ s.overwritten, e.1 ≠ key + 4 * i

theorem State.HoldsWord.codeWord {s : State} {w : CtxId} {key i : Nat} {ws : List (BitVec 32)} (h : s.HoldsWord w key ws i) :
    s.codeWord w.core (lineOf (s.ctx w).pc) key i = (s, ws.getD i 0) := by
  have hk : key / 128 * 128 = key := by have := h.aligned; omega
  rw [State.codeWord_eq_memory, hk, h.memory, BitVec.ofNat_toNat, BitVec.setWidth_eq]
  · intro ws' hl
    rw [h.line] at hl
    cases hl
    rw [hk, h.memory, BitVec.ofNat_toNat, BitVec.setWidth_eq]
  · rw [hk]
    exact h.kept

/-- A change of the context that leaves its PC leaves what its core holds. -/
theorem State.HoldsWord.modCtx {s : State} {w : CtxId} {key i : Nat} {ws : List (BitVec 32)} (h : s.HoldsWord w key ws i) (f : Ctx → Ctx)
    (hf : (f (s.ctx w)).pc = (s.ctx w).pc) : (s.modCtx w f).HoldsWord w key ws i where
  line := by simpa [hf] using h.line
  aligned := h.aligned
  memory := h.memory
  kept := h.kept

/-- The next word of a context that stands at an unpoisoned word of a held line, after the header's check where it has stepped into the line. -/
theorem State.fetch_held {s : State} {w : CtxId} {key : Nat} {ws : List (BitVec 32)} (hf : (s.core w.core).follows w = false)
    (hw : s.HoldsWord w key ws ((s.ctx w).pc.toNat % 128 / 4)) (hp : s.poisoned (key + (s.ctx w).pc.toNat % 128) 4 = false)
    (hn : (s.ctx w).newLine = true → (ws.getD 0 0).getLsbD 0 = true ∧ s.HoldsWord w key ws 0 ∧ s.poisoned key 4 = false) :
    s.fetch w = .word (s.lineEntered w) (ws.getD ((s.ctx w).pc.toNat % 128 / 4) 0) := by
  have hk : key / 128 * 128 = key := by have := hw.aligned; omega
  have hfetch : s.fetch w = s.fetchHeld w (lineOf (s.ctx w).pc) key := by simp [State.fetch, hf, hw.line]
  rw [hfetch]
  unfold State.fetchHeld State.lineEntered
  simp only [hk, hp, Bool.false_eq_true, if_false]
  by_cases hl : (s.ctx w).newLine = true
  · obtain ⟨hmark, hheader, hclean⟩ := hn hl
    have hword := (hw.modCtx (fun c => { c with newLine := false }) rfl).codeWord
    rw [State.ctx_modCtx] at hword
    simp only [hl, if_true, hheader.codeWord, hclean, Bool.false_eq_true, if_false, hmark, hword]
  · simp only [Bool.not_eq_true] at hl
    simp only [hl, Bool.false_eq_true, if_false, hw.codeWord]

@[simp] theorem State.lineEntered_agenda (s : State) (w : CtxId) : (s.lineEntered w).agenda = s.agenda := by
  unfold State.lineEntered
  split_ifs <;> rfl

/-- The word of the next candidate, where it may issue (06 R128): an outcome of `exec` is the step's, once the issue slot is accounted for. -/
theorem State.issueWord_decoded {s : State} {cursor : Nat} {w : CtxId} {word : BitVec 32} {i : Instr} (hd : decode word = .ok i)
    (ha : postedRelaxed i = true ∨ s.agenda.any (inFlightOf w) = false) :
    let o := exec i { s with who := w, stalled := false }
    (∀ u, o = .next u → s.issueWord cursor w word = .next (if u.stalled then u.passedOver cursor w else (u.followed w).slotUsed w))
      ∧ (∀ f, o = .fault f → s.issueWord cursor w word = .fault f) ∧ ∀ r, o = .refused r → s.issueWord cursor w word = .refused r := by
  have hfree : (!postedRelaxed i && s.agenda.any (inFlightOf w)) = false := by
    cases ha with
    | inl h => simp [h]
    | inr h => simp [h]
  refine ⟨fun u h => ?_, fun f h => ?_, fun r h => ?_⟩ <;> simp only [State.issueWord, hd, hfree, Bool.false_eq_true, if_false, h]

/-- With no event due in a core cycle that has begun, a step is one try of the next candidate (01 R23). -/
theorem State.advance_candidate {s : State} {cursor : Nat} {w : CtxId} (hdue : ∀ e ∈ s.agenda.head?, s.cycle < e.1) (hb : s.begun = true)
    (hc : s.nextCandidate = some (cursor, w)) : s.advance = s.tryCandidate cursor w := by
  unfold State.advance
  cases ha : s.agenda with
  | nil => simp [hb, hc]
  | cons e rest =>
    have : ¬e.1 ≤ s.cycle := by
      have := hdue e (by simp [ha])
      omega
    simp [hb, hc, this]

/-- A step with a due event performs it, or answers that it is ill-formed. -/
theorem State.advance_due {s : State} {due : Nat} {i : Instr} {rest : List (Nat × Instr)} (ha : s.agenda = (due, i) :: rest)
    (hd : due ≤ s.cycle) : s.advance = if WellFormed i then exec i { s with agenda := rest } else .fault .illFormedEvent := by
  simp [State.advance, ha, hd]

end Sys2Proof.Machine

/-- Settles O56: the fetch of the candidate's word is the held one, and its issue hands the outcome of `exec` on. -/
theorem stepRunsDecodedInstruction : Obligations.StepRunsDecodedInstruction := by
  refine ⟨?_, ?_, ?_⟩
  · intro s cursor w key ws i c k n hdue hb hc hpoison hf hline hk hmem hkept hclean hnew hd ha o
    have hword : s.HoldsWord w key ws n := ⟨hline, hk, hmem, hkept⟩
    have hheader : c.newLine = true → (ws.getD 0 0).getLsbD 0 = true ∧ s.HoldsWord w key ws 0 ∧ s.poisoned key 4 = false := fun hl => by
      obtain ⟨hmark, hmem0, hkept0, hclean0⟩ := hnew hl
      exact ⟨hmark, ⟨hline, hk, hmem0, hkept0⟩, hclean0⟩
    have htry : step s = (s.lineEntered w).issueWord cursor w (ws.getD n 0) := by
      rw [step, State.advance_candidate hdue hb hc, State.tryCandidate, State.fetch_held hf hword hclean hheader, show (s.ctx w).poisonAcks = [] from hpoison]
      rfl
    rw [htry]
    exact State.issueWord_decoded (s := s.lineEntered w) hd (by simpa using ha)
  · intro s due i rest ha hd hw
    simp [step, State.advance_due ha hd, hw]
  · intro s due i rest ha hd hw
    simp [step, State.advance_due ha hd, hw]
end

section
/-! SUPPORT. The checks of a control target, in their order (01 R14; 04 R92). -/

open Sys2Proof Sys2Proof.Machine

namespace Sys2Proof.Machine

/-! ### The bounds of a value in memory (00 R7) -/

theorem leValue_lt (bs : List Byte) : leValue bs < 256 ^ bs.length := by
  induction bs with
  | nil => simp [leValue]
  | cons b bs ih =>
    have := b.isLt
    rw [leValue, List.length_cons, Nat.pow_succ]
    omega

theorem Memory.length_readBytes (m : Memory) (a n : Nat) : (Memory.readBytes m a n).length = n := by
  induction n generalizing a with
  | zero => rfl
  | succ n ih => simp [Memory.readBytes, ih]

theorem State.peek_lt (s : State) (key n : Nat) : s.peek key n < 256 ^ n :=
  (leValue_lt _).trans_eq (by rw [Memory.length_readBytes])

/-! ### The local part of a fetch (14 R283, 21 R369) -/

theorem State.resolveFetch_beyond {s : State} {core : Nat} {target : Word} (h : 2 ^ 48 ≤ target.toNat) :
    s.resolveFetch core target = (s, .error .translation) := by
  simp only [State.resolveFetch, State.fetchEntry, h, if_true]

theorem State.resolveFetch_local {s : State} {core : Nat} {target : Word} (h : target.toNat < 0x2000000) :
    s.resolveFetch core target = (s, .error .protection) := by
  have : ¬2 ^ 48 ≤ target.toNat := by omega
  simp only [State.resolveFetch, State.fetchEntry, h, this, if_true, if_false]

/-! ### The rows of a target's checks -/

section
variable {s s' u : State} {core key : Nat} {target : Word} {all : Bool} {header : BitVec 32}

theorem State.checkTarget_misaligned (h : ¬(all = true → target.toNat % 4 = 0)) :
    s.checkTarget core target all = (s, some { cause := .misaligned, val := target }) := by
  simp only [Classical.not_imp] at h
  simp [State.checkTarget, h]

/-- A target that may stand where it does fails as its fetch does. -/
theorem State.checkTarget_error {c : Cause} (ha : all = true → target.toNat % 4 = 0) (h : s.resolveFetch core target = (s', .error c)) :
    s.checkTarget core target all = (s', some { cause := c, val := target }) := by
  have : (all && decide (target.toNat % 4 ≠ 0)) = false := by cases all <;> simp_all
  simp only [State.checkTarget, this, h, Bool.false_eq_true, if_false]

/-- The rows that look at the header of the target's line, once its fetch has passed. -/
theorem State.checkTarget_ok (ha : all = true → target.toNat % 4 = 0) (h : s.resolveFetch core target = (s', .ok key))
    (hw : s'.codeWord core (target.toNat / 128 * 128) key 0 = (u, header)) :
    s.checkTarget core target all = (u,
      if u.poisoned (key / 128 * 128) 4 then some { cause := .poison, val := target }
      else if header.getLsbD 0 = false then some { cause := .illegal, val := target }
      else if all = true ∧ target.toNat % 128 / 4 = 0 then some { cause := .headerSlot, val := target }
      else if all = true ∧ header.getLsbD (target.toNat % 128 / 4) = false then some { cause := .unmarkedTarget, val := target }
      else none) := by
  have : (all && decide (target.toNat % 4 ≠ 0)) = false := by cases all <;> simp_all
  simp only [State.checkTarget, this, h, hw]
  simp only [Bool.false_eq_true, if_false, Bool.not_eq_true', Bool.and_eq_true, decide_eq_true_eq]
  split_ifs <;> rfl

end

end Sys2Proof.Machine

/-- Settles O6, row by row. -/
theorem targetChecksInOrder : Obligations.TargetChecksInOrder := by
  intro s core target all fails aligned
  refine ⟨State.checkTarget_misaligned, fun ha h => State.checkTarget_error ha (State.resolveFetch_beyond h),
    fun ha h => State.checkTarget_error ha (State.resolveFetch_local h), fun ha s' c h => State.checkTarget_error ha h, ?_⟩
  intro ha s' key u header hr hw slot marked clean
  have rows := State.checkTarget_ok ha hr hw
  simp only [fails, clean, marked, rows, Bool.not_eq_false, Bool.not_eq_true]
  refine ⟨fun hp => ?_, fun hp h0 => ?_, fun hp h0 hall hslot => ?_, fun hp h0 hall hslot hm => ?_, fun hp h0 hm => ?_, fun hline hkept => ?_⟩
  · rw [if_pos hp]
  · rw [if_neg (by simp [hp]), if_pos h0]
  · rw [if_neg (by simp [hp]), if_neg (by rw [h0]; simp), if_pos ⟨hall, hslot⟩]
  · rw [if_neg (by simp [hp]), if_neg (by rw [h0]; simp), if_neg (fun h => hslot h.2), if_pos ⟨hall, hm⟩]
  · rw [if_neg (by simp [hp]), if_neg (by rw [h0]; simp), if_neg (fun h => (hm h.1).1 h.2), if_neg (fun h => by simp [(hm h.1).2, slot] at h)]
  · have hmem := State.codeWord_eq_memory (s := s') (core := core) (line := target.toNat / 128 * 128) (key := key) (i := 0) (by simp [hline]) hkept
    rw [hmem] at hw
    cases hw
    exact ⟨rfl, by rw [BitVec.toNat_ofNat]; exact Nat.mod_eq_of_lt (State.peek_lt ..)⟩
end

section
/-! SUPPORT. Taking a trap (01 R26; 10 R236 to R238). -/

open Sys2Proof Sys2Proof.Machine

namespace Sys2Proof.Machine

section
variable {s : State} {w : CtxId} (t : Trap)

theorem Core.follows_of_inactive {k : Core} (h : k.gang.active = false) : k.follows w = false := by simp [Core.follows, h]

theorem State.unpop_eq (h : (s.ctx w).popped = []) : s.unpop w = s := by simp [State.unpop, h]

/-- A trap of a context that has nothing outstanding, follows no leader and runs no ordered task is entered at once. -/
theorem State.raise_eq_enterTrap (hf : (s.core w.core).follows w = false) (ho : (s.ctx w).outstanding = []) (hp : (s.ctx w).popped = [])
    (hr : ∀ n, (s.ctx w).role ≠ .task n) : s.raise w t = s.enterTrap w t := by
  unfold State.raise
  simp only [State.unpop_eq hp, hf, Bool.false_eq_true, if_false, ho, List.isEmpty_nil, if_true]

/-- The handler's address passes its checks: what the entry saves, and where it goes. -/
theorem State.enterTrap_handler {s' : State} (hi : (s.ctx w).intrap = false) (hv : (s.ctx w).trapVec ≠ 0)
    (hc : s.checkTarget w.core (s.ctx w).trapVec true = (s', none)) :
    s.enterTrap w t = s'.modCtx w (fun c => { c with
      trapCause := BitVec.ofNat 8 (causeCode t.cause), trapHints := c.hints.pending, trapPc := wordAddress c.wordPc
      trapVal := t.val, intrap := true, pc := c.trapVec, newLine := false, hints := .none, park := .none, readyAt := s.cycle + 1 }) := by
  have hcycle : s'.cycle = s.cycle := by
    have h := State.Same.checkTarget s w.core (s.ctx w).trapVec true
    rw [hc] at h
    exact h.cycle
  have hk : ((s.ctx w).intrap || decide ((s.ctx w).trapVec = 0)) = false := by simpa [hi] using hv
  simp only [State.enterTrap, hk, hc, hcycle, Bool.false_eq_true, if_false]

theorem State.endCtx_live (killed : Bool) : ((s.endCtx w killed).ctx w).live = false := by
  unfold State.endCtx
  simp only [State.ctx, State.core_modCore]
  exact congrArg Ctx.live (Vector.getElem_set_self _)

/-- Without a handler, or inside one, a trap ends its context. -/
theorem State.enterTrap_kills (h : (s.ctx w).intrap = true ∨ (s.ctx w).trapVec = 0) : ((s.enterTrap w t).ctx w).live = false := by
  have hk : ((s.ctx w).intrap || decide ((s.ctx w).trapVec = 0)) = true := by simpa using h
  unfold State.enterTrap
  simp only [hk, if_true]
  exact State.endCtx_live true

end

end Sys2Proof.Machine

/-- Settles O8: with nothing outstanding a trap is its entry, which saves and redirects, or ends the context. -/
theorem trapEntrySavesAndRedirects : Obligations.TrapEntrySavesAndRedirects := by
  intro s w t c hg ho hp hr
  have hraise : s.raise w t = s.enterTrap w t := State.raise_eq_enterTrap t (Core.follows_of_inactive hg) ho hp hr
  refine ⟨?_, fun hl => ?_, fun hk => ?_⟩
  · intro hi hv s' hc u
    have henter : s.enterTrap w t = u := State.enterTrap_handler t hi hv hc
    refine ⟨hraise.trans henter, fun hl => ?_⟩
    show execTrapEntry w t s = .next u
    rw [execTrapEntry, if_pos hl, henter]
  · show execTrapEntry w t s = .next s
    rw [execTrapEntry, if_neg (by simp [show (s.ctx w).live = false from hl])]
  · rw [hraise]
    exact State.enterTrap_kills t hk
end

section
/-! SUPPORT. A trap of an attached follower (08 R201). -/

open Sys2Proof Sys2Proof.Machine

namespace Sys2Proof.Machine

/-- Context 1 of core 5 follows the leader at position 0 of its cluster, has a hint word pending and a handler at the mapped line. -/
def followerWithHint : State :=
  mapped (ts 5 1 { Core.reset with gang := { Gang.reset with active := true, attached := true, ctx := 1 } }
    { tc [(3, 0x1000)] with hints := { Hints.none with imm := some 1, first := 0x2000080 }, trapVec := 0x2000004 })

theorem followerWithHint_clear (srcs dests : List Dest) : followerWithHint.Clear srcs dests := clear (by decide) srcs dests

/-- A follower that traps detaches. -/
theorem followerWithHint_detaches :
    ((followerWithHint.raise followerWithHint.who { cause := .illegal, val := (followerWithHint.ctx followerWithHint.who).pc }).core 5).gang.attached = false := by
  decide

end Sys2Proof.Machine

/-- Refutes O7: with hints pending, the state after the trap is said to be the checked one with only the context changed, but an attached
follower is clear to issue and detaches from its gang as it traps (08 R201). -/
theorem not_hintGroupsAndIssueTraps : ¬ Obligations.HintGroupsAndIssueTraps := by
  rintro ⟨-, h, -⟩
  obtain ⟨-, -, h⟩ := h followerWithHint false 0 0 0 0 (followerWithHint_clear ..)
  obtain ⟨s', hs⟩ : ∃ s', followerWithHint.checkTarget 5 0x2000004 true = (s', none) := passes (by decide)
  have role : (followerWithHint.ctx followerWithHint.who).role = .plain := by decide
  have trapped := h (by decide) ⟨by decide, by decide, by decide, by decide, fun n => by rw [role]; simp⟩ s' hs
  have same := State.Same.checkTarget followerWithHint 5 0x2000004 true
  have attached : (s'.core 5).gang.attached = true := by
    rw [hs] at same
    rw [same.core]
    decide
  have detached := congrArg (fun t : State => (t.core followerWithHint.who.core).gang.attached) trapped
  simp only [State.core_modCtx] at detached
  exact Bool.false_ne_true (followerWithHint_detaches.symm.trans (detached.trans attached))
end

section
/-! SUPPORT. The state registers (10 R233, R234): how the model's own operands of a register stand to its layout, and the words that read and
write one. -/

open Sys2Proof Sys2Proof.Machine

namespace Sys2Proof.Machine

variable {s : State} {sw : Bool} {d : XReg} {sn : SReg}

/-! ### Layouts -/

theorem foldl_add_bitIf {α : Type} (p : α → Bool) (n : α → Nat) (l : List α) (acc : Nat) :
    l.foldl (fun a x => a + bitIf (p x) (n x)) acc = (l.filter p).foldl (fun a x => a + 2 ^ n x) acc := by
  induction l generalizing acc with
  | nil => rfl
  | cons x l ih =>
    rw [List.foldl_cons, ih, List.filter_cons]
    cases p x <;> simp [bitIf]

/-- BOUND of QMAP, as a sum over the bound ports (06 R141). -/
theorem boundMask_eq (k : Core) :
    boundMask k = ((List.finRange 8).filter (fun p => (k.ports.get p).bound)).foldl (fun n p => n + 2 ^ p.val) 0 :=
  foldl_add_bitIf (fun p => (k.ports.get p).bound) (fun p => p.val) (List.finRange 8) 0

theorem lowerCore_eq (core : Nat) : lowerCore core = if dieOf core % 2 = 1 then core - 8192 else core := by simp [lowerCore, isUpper]

/-- A region is refused where it is in force and its bounds are no range of tiles (21 R380). -/
theorem protBad_iff (v : Word) :
    protBad v = true ↔ 2 ^ 63 ≤ v.toNat ∧ (v.toNat / 2 ^ 16 % 2 ^ 8 ≤ v.toNat % 2 ^ 8 ∨ 192 < v.toNat / 2 ^ 16 % 2 ^ 8) := by
  have hlt : v.toNat < 2 ^ 64 := v.isLt
  have hbit : bitAt v.toNat 63 = true ↔ 2 ^ 63 ≤ v.toNat := by
    simp only [bitAt, beq_iff_eq]
    omega
  have hlow : bits v.toNat 7 0 = v.toNat % 2 ^ 8 := by simp [bits]
  simp only [protBad, Bool.and_eq_true, Bool.or_eq_true, decide_eq_true_eq, hbit, hlow]
  rfl

/-- A written SEED of 0 loads 1 (09 R221). -/
theorem State.writeSrseed_eq (s : State) (cl : Nat) (v : Word) :
    s.writeSrseed cl v = s.modCluster cl (fun k => { k with lfsr := if v.toNat % 2 ^ 32 = 0 then 1 else v.setWidth 32 }) := by
  have hz : v.setWidth 32 = 0 ↔ v.toNat % 2 ^ 32 = 0 := by
    rw [← BitVec.toNat_inj, BitVec.toNat_setWidth]
    rfl
  unfold State.writeSrseed
  simp only [hz]

/-- DIV of a written FRSPEED. -/
theorem bits_div (v : Word) : bits v.toNat 4 0 = v.toNat % 2 ^ 5 := by simp [bits]

theorem State.writeFrspeed_eq {v : Word} (h : s.ferry.speedWrite = none ∨ (1 ≤ v.toNat % 2 ^ 5 ∧ v.toNat % 2 ^ 5 ≤ 16)) :
    s.writeFrspeed v = { s with ferry := { s.ferry with speedWrite := some v } } := by
  unfold State.writeFrspeed
  cases hs : s.ferry.speedWrite with
  | none => rfl
  | some u =>
    obtain ⟨hlow, hhigh⟩ : 1 ≤ v.toNat % 2 ^ 5 ∧ v.toNat % 2 ^ 5 ≤ 16 := h.resolve_left (by simp [hs])
    have hdiv : (decide (1 ≤ v.toNat % 2 ^ 5) && decide (v.toNat % 2 ^ 5 ≤ 16)) = true := by rw [decide_eq_true hlow, decide_eq_true hhigh]; rfl
    simp only [bits_div, hdiv, if_true]

/-- Behind another write that waits, a DIV that is ignored leaves that one's (22 R397). -/
theorem State.writeFrspeed_behind {u v : Word} (hs : s.ferry.speedWrite = some u) (h : ¬(1 ≤ v.toNat % 2 ^ 5 ∧ v.toNat % 2 ^ 5 ≤ 16)) :
    s.writeFrspeed v = { s with ferry := { s.ferry with speedWrite := some ((v &&& ~~~0x1F#64) ||| (u &&& 0x1F#64)) } } := by
  have hdiv : (decide (1 ≤ v.toNat % 2 ^ 5) && decide (v.toNat % 2 ^ 5 ≤ 16)) = false := by simpa using h
  simp only [State.writeFrspeed, hs, bits_div, hdiv, Bool.false_eq_true, if_false]

/-! ### The words -/

theorem State.writeReg_who (w : CtxId) (v : Word) : (s.writeReg w sn v).who = s.who := by
  cases sn
  case prot n | cxtick | cxstorm =>
    simp only [State.writeReg]
    split_ifs <;> rfl
  all_goals rfl

/-- A single-cycle result and the end of its word, in a state with the issuer's own core as it was. -/
theorem Form.finish_writeX_of {f : Form} {t : State} (hg : (s.core s.who.core).leads s.who = false) (hw : t.who = s.who)
    (hp : (t.core s.who.core).isPort d = false) (v : Word) :
    f.finish s s.who [] [] (.done (t.writeX s.who d v)) = t.afterWord f.sw (fun c => c.setX d v) := by
  rw [State.writeX_eq _ hp, Form.finish_done hg]
  simp [State.retire, State.afterWord, State.after, hw]

/-- `sys.gets` writes the register's value to x[d] at once. -/
theorem execSysGets_clear (h : s.Clear [] [.x d]) (hh : s.NoHints) :
    execSysGets sw d sn s = .next ((if sn = .wsref then s.drew else s).afterWord sw (fun c => c.setX d (s.readReg s.who sn))) := by
  have hp := h.noPort d (by simp)
  unfold execSysGets
  rw [issue_clear _ h (Form.checks_eq_none hh (by simp [Form.of]) (by simp [Form.of]) rfl) rfl]
  dsimp only
  split
  · rw [Form.finish_writeX_of (t := s.drew) h.noLead rfl hp]
    rfl
  · next hsn =>
    rw [Form.finish_writeX_of (t := s) h.noLead rfl hp, if_neg hsn]
    rfl

section
variable (h : s.Clear [.x d] []) (hh : s.NoHints) (ht : s.NoTask)
include h hh ht

/-- `sys.sets` outside an ordered task runs its body on x[d]. -/
theorem execSysSets_eq :
    execSysSets sw d sn s = .next (Form.finish { Form.of (.sysSets sw d sn) sw [.x d] [] with inTask := sn.ofContext } s s.who [] []
      (if sn.monitorWrite && decide ((s.core s.who.core).mode = .tenant) then .trap s { cause := .privilege, val := BitVec.ofNat 64 sn.number }
       else .done (s.writeReg s.who sn ((s.ctx s.who).getX d)))) := by
  unfold execSysSets
  rw [issue_clear _ h (Form.checks_eq_none hh (by simp [Form.of]) (fun _ => ht) rfl) rfl]
  rfl

theorem execSysSets_writes (hm : sn ≠ .frspeed ∨ (s.core s.who.core).mode = .monitor) :
    execSysSets sw d sn s = .next ((s.writeReg s.who sn ((s.ctx s.who).getX d)).afterWord sw id) := by
  have hm : (sn.monitorWrite && decide ((s.core s.who.core).mode = .tenant)) = false := by
    cases hm with
    | inl hsn =>
      cases sn
      case frspeed => exact absurd rfl hsn
      all_goals rfl
    | inr hmode => simp [hmode]
  rw [execSysSets_eq h hh ht, hm, if_neg Bool.false_ne_true, Form.finish_done h.noLead]
  simp only [State.afterWord, State.after, State.retire, State.writeReg_who]
  rfl

theorem execSysSets_privilege (hm : (s.core s.who.core).mode = .tenant) :
    execSysSets sw d .frspeed s = .next (s.raise s.who { cause := .privilege, val := 0x80 }) := by
  rw [execSysSets_eq h hh ht, if_pos (by simp [SReg.monitorWrite, hm]), Form.finish_trap]
  rfl

end

end Sys2Proof.Machine

/-- Settles O43, register by register. -/
theorem stateRegisterWords : Obligations.StateRegisterWords := by
  intro s sw d sn hh w c k b cl D one v x word wrote
  have hread : s.readReg w sn = v := by
    cases sn
    case qmap => exact congrArg (BitVec.ofNat 64) (boundMask_eq k)
    case vfstat =>
      show BitVec.ofNat 64 ((s.core (lowerCore w.core)).vfifo.length * 16 + (8 - (s.core (lowerCore w.core)).vfifo.length)) = _
      rw [lowerCore_eq]
      rfl
    all_goals rfl
  have hwrite : s.writeReg w sn x = wrote := by
    cases sn
    case prot n => exact if_congr (protBad_iff x) rfl rfl
    case spillovf => exact congrArg (s.setCore w.core) (if_congr List.isEmpty_iff rfl rfl)
    all_goals rfl
  refine ⟨fun h => ?_, fun h ht => ⟨fun hm => ?_, fun hsn hm => ?_⟩, fun v => ?_, fun cl v => ?_, fun v => ⟨fun hv => ?_, fun u hu hv => ?_⟩⟩
  · rw [← hread]
    exact execSysGets_clear h hh
  · rw [← hwrite]
    exact execSysSets_writes h hh ht hm
  · subst hsn
    exact execSysSets_privilege h hh ht hm
  · exact ⟨rfl, rfl, rfl, rfl, rfl, rfl, rfl⟩
  · exact congrArg Host.Outcome.next (State.writeSrseed_eq s cl v)
  · exact congrArg Host.Outcome.next (State.writeFrspeed_eq hv)
  · exact congrArg Host.Outcome.next (State.writeFrspeed_behind hu hv)
end

section
/-! SUPPORT. A lock request whose lock word is poisoned (23 R407). -/

open Sys2Proof Sys2Proof.Machine

namespace Sys2Proof.Machine

/-- Context 1 of core 5 waits for the free lock at 0x1000, whose word is poisoned. -/
def poisonedLock : State := { wLocks 0 [] with poison := [(spadCell 5 0x1000, 8)] }

/-- A request whose lock word is poisoned is not evaluated: its context traps. -/
theorem execLockResend_poisoned {s : State} {r : LockReq} (h : s.poisoned r.addr 8 = true) : execLockResend r s = .next (s.lockPoisoned r) := by
  rw [execLockResend, if_pos h]

/-- The trap leaves the lock word as it was. -/
theorem poisonedLock_keeps_word : (poisonedLock.lockPoisoned (lreq .racq 5)).peek (lreq .racq 5).addr 8 = 0 := by decide

end Sys2Proof.Machine

/-- Refutes O45: the clause on lock requests does not exclude a poisoned lock word, on which a request that the word allows traps POISON and is not
granted (23 R407). -/
theorem not_accessAndLockEvents : ¬ Obligations.AccessAndLockEvents := by
  rintro ⟨-, locks⟩
  obtain ⟨grants, -⟩ := locks poisonedLock (lreq .racq 5) (by unfold State.MemOk; decide) (by decide) (by decide)
  obtain ⟨u, hu, hword, -⟩ := grants ⟨by decide, by decide⟩ 4 false false rfl
  have htrap : exec (.lockResend (lreq .racq 5)) poisonedLock = .next (poisonedLock.lockPoisoned (lreq .racq 5)) := execLockResend_poisoned (by decide)
  rw [htrap] at hu
  cases hu
  rw [poisonedLock_keeps_word] at hword
  exact absurd hword (by decide)
end

section
/-! SUPPORT. Decoding gives back what was encoded, for every instruction at once (02 R33 to R41). -/

-- One theorem at a time: each would otherwise take a thread of its own.
set_option Elab.async false

namespace Sys2Proof.Laws.RoundTrip

/-- An encoded word's own lemma says it; an event has no word. -/
theorem roundTrip (i : Instr) : Statement i := by
  cases i with
  | aluAdd => apply aluAdd | aluSub => apply aluSub | aluAnd => apply aluAnd | aluOr => apply aluOr | aluXor => apply aluXor
  | aluAnot => apply aluAnot | aluSll => apply aluSll | aluSrl => apply aluSrl | aluSra => apply aluSra | aluRol => apply aluRol
  | aluMin => apply aluMin | aluMax => apply aluMax | aluUmin => apply aluUmin | aluUmax => apply aluUmax | aluStep2 => apply aluStep2
  | aluStep4 => apply aluStep4 | aluStep8 => apply aluStep8 | aluStep64 => apply aluStep64 | aluCmp => apply aluCmp | aluLzc => apply aluLzc
  | aluTzc => apply aluTzc | aluOnes => apply aluOnes | aluSx8 => apply aluSx8 | aluSx16 => apply aluSx16 | aluSx32 => apply aluSx32
  | aluZx32 => apply aluZx32 | aluMul => apply aluMul | aluHiss => apply aluHiss | aluHiuu => apply aluHiuu | aluHisu => apply aluHisu
  | aluQuo => apply aluQuo | aluQuou => apply aluQuou | aluRmd => apply aluRmd | aluRmdu => apply aluRmdu | addi => apply addi | andi => apply andi
  | ori => apply ori | xori => apply xori | cmpi => apply cmpi | lim => apply lim | br => apply br | jmp => apply jmp | jr => apply jr
  | hintImm => apply hintImm | hintImx => apply hintImx | hintMod => apply hintMod | hintReg => apply hintReg | ld => apply ld | st => apply st
  | idxLd => apply idxLd | idxSt => apply idxSt | amoAdd => apply amoAdd | amoAnd => apply amoAnd | amoOr => apply amoOr | amoXor => apply amoXor
  | amoMin => apply amoMin | amoMax => apply amoMax | amoMinu => apply amoMinu | amoMaxu => apply amoMaxu | amoFadd => apply amoFadd
  | amoSwap => apply amoSwap | amoCas => apply amoCas | rwlRacq => apply rwlRacq | rwlRrel => apply rwlRrel | rwlWacq => apply rwlWacq
  | rwlWrel => apply rwlWrel | fenceAcq => apply fenceAcq | fenceRel => apply fenceRel | fenceAr => apply fenceAr | msgBind => apply msgBind
  | msgUnbind => apply msgUnbind | msgQlen => apply msgQlen | msgSend => apply msgSend | msgOvf => apply msgOvf | barReg => apply barReg
  | barWd => apply barWd | barArrive => apply barArrive | barWait => apply barWait | barSync => apply barSync | barWsync => apply barWsync
  | vfPush => apply vfPush | vfPop => apply vfPop | vfCount => apply vfCount | vopAdd => apply vopAdd | vopAddSx => apply vopAddSx
  | vopSub => apply vopSub | vopSubSx => apply vopSubSx | vopMul => apply vopMul | vopMulSx => apply vopMulSx | vopMin => apply vopMin
  | vopMinSx => apply vopMinSx | vopMax => apply vopMax | vopMaxSx => apply vopMaxSx | vopAbs => apply vopAbs | vopNeg => apply vopNeg
  | vopDiv => apply vopDiv | vopDivSx => apply vopDivSx | vopSqrt => apply vopSqrt | vopAnd => apply vopAnd | vopAndSx => apply vopAndSx
  | vopOr => apply vopOr | vopOrSx => apply vopOrSx | vopXor => apply vopXor | vopXorSx => apply vopXorSx | vopSll => apply vopSll
  | vopSllSx => apply vopSllSx | vopSrl => apply vopSrl | vopSrlSx => apply vopSrlSx | vopSra => apply vopSra | vopSraSx => apply vopSraSx
  | vopMulh => apply vopMulh | vopMulhSx => apply vopMulhSx | vfmaFma => apply vfmaFma | vfmaFmaSx => apply vfmaFmaSx | vfmaFms => apply vfmaFms
  | vfmaFmsSx => apply vfmaFmsSx | vfmaFnma => apply vfmaFnma | vfmaFnmaSx => apply vfmaFnmaSx | vfmaFnms => apply vfmaFnms
  | vfmaFnmsSx => apply vfmaFnmsSx | vfmaDot2 => apply vfmaDot2 | vfmaDot2Sx => apply vfmaDot2Sx | vfmaDot4 => apply vfmaDot4
  | vfmaDot4Sx => apply vfmaDot4Sx | vcmp => apply vcmp | vcmpSx => apply vcmpSx | vredSum => apply vredSum | vredMin => apply vredMin
  | vredMax => apply vredMax | vredAnd => apply vredAnd | vredOr => apply vredOr | vredXor => apply vredXor | vredPerm => apply vredPerm
  | vredRot => apply vredRot | vcvt => apply vcvt | vmovMov => apply vmovMov | vmovSel => apply vmovSel | vmovBcast => apply vmovBcast
  | vmovExt => apply vmovExt | vmovGetm => apply vmovGetm | vmovSetm => apply vmovSetm | vmovZero => apply vmovZero | vmemLd => apply vmemLd
  | vmemSt => apply vmemSt | vmemLdf => apply vmemLdf | vmemLdb => apply vmemLdb | patCfg => apply patCfg | patExec => apply patExec
  | mxGang => apply mxGang | mxRowout => apply mxRowout | jobSub => apply jobSub | jobPoll => apply jobPoll | jobWait => apply jobWait
  | xbarCnt => apply xbarCnt | xbarTerm => apply xbarTerm | xbarRdc => apply xbarRdc | xbarPulse => apply xbarPulse | xbarClr => apply xbarClr
  | workStart => apply workStart | workFork => apply workFork | workJoin => apply workJoin | workExit => apply workExit
  | workYield => apply workYield | workHold => apply workHold | workRelease => apply workRelease | workLaunch => apply workLaunch
  | workMigrate => apply workMigrate | otaskSub => apply otaskSub | otaskStat => apply otaskStat | gangLead => apply gangLead
  | gangFollow => apply gangFollow | gangJoin => apply gangJoin | gangEnd => apply gangEnd | gangStat => apply gangStat | cxDef => apply cxDef
  | cxDep => apply cxDep | cxRun => apply cxRun | cxStop => apply cxStop | cxRd => apply cxRd | cxSlope => apply cxSlope
  | cxSample => apply cxSample | srDef => apply srDef | srPut => apply srPut | srDone => apply srDone | srRej => apply srRej
  | srStat => apply srStat | srDrain => apply srDrain | frBoard => apply frBoard | frCancel => apply frCancel | frStat => apply frStat
  | redTree => apply redTree | redPut => apply redPut | redWait => apply redWait | redStat => apply redStat | redMan => apply redMan
  | sysGets => apply sysGets | sysSets => apply sysSets | sysBrk => apply sysBrk | sysRet => apply sysRet | sysGate => apply sysGate
  | sysInvp => apply sysInvp | sysInva => apply sysInva | sysMret => apply sysMret
  | _ => exact ofEvent rfl

end Sys2Proof.Laws.RoundTrip

/-- Settles O58: each constructor that has an encoding has its lemma in Laws/PerInstr.lean. -/
theorem encodedInstructionDecodes : Obligations.EncodedInstructionDecodes := fun i w hi he => Sys2Proof.Laws.RoundTrip.roundTrip i hi w he

/-- Settles O57, by running the decoder on the fifteen words. -/
theorem decodedWords : Obligations.DecodedWords := by
  unfold Obligations.DecodedWords
  decide
end

section
/-! SUPPORT. What the decoder accepts is what the encoder lays out (02 R33 to R41): whatever instruction a word decodes to is well-formed, and the word is its
encoding. -/

-- One theorem at a time: each would otherwise take a thread of its own.
set_option Elab.async false

namespace Sys2Proof.Laws

open Sys2Proof.Encode Sys2Proof.Decode

/-! ### Codes -/

theorem val_xr (n : Nat) : (xr n).val = n % 2 ^ 5 := rfl
theorem val_vr (n : Nat) : (vr n).val = n % 2 ^ 3 := rfl
theorem val_mr (n : Nat) : (mr n).val = n % 2 ^ 2 := rfl

theorem condCode_of_cond {n : Nat} {c : Cond} (h : Decode.cond n = some c) : condCode c = n := by
  unfold Decode.cond at h
  split at h <;> cases h <;> rfl

theorem vcondCode_of_vcond {n : Nat} {c : VCond} (h : vcond n = some c) : vcondCode c = n := by
  unfold vcond at h
  split at h
  next hn =>
    cases h
    exact hn.symm
  next =>
    obtain ⟨k, hk, rfl⟩ := Option.map_eq_some_iff.1 h
    exact condCode_of_cond hk

theorem tyCode_of_ty {n : Nat} {t : LaneTy} (h : ty n = some t) : tyCode t = n := by
  unfold ty at h
  split at h <;> cases h <;> rfl

theorem scopeCode_of_scope {n : Nat} {c : Scope} (h : scope n = some c) : scopeCode c = n := by
  unfold scope at h
  split at h <;> cases h <;> rfl

theorem ordCode_ord (n : Nat) : ordCode (ord n) = n % 2 ^ 2 := by
  obtain h | h | h | h : n % 4 = 0 ∨ n % 4 = 1 ∨ n % 4 = 2 ∨ n % 4 = 3 := by omega
  all_goals
    change _ = n % 4
    rw [ord, h]
    rfl

theorem sizeCode_size (n : Nat) : sizeCode (size n) = n % 2 ^ 2 := by
  obtain h | h | h | h : n % 4 = 0 ∨ n % 4 = 1 ∨ n % 4 = 2 ∨ n % 4 = 3 := by omega
  all_goals
    change _ = n % 4
    rw [size, h]
    rfl

theorem sregCode_of_sreg {n : Nat} {r : SReg} (h : sreg n = some r) : sregCode r = n := by
  unfold sreg at h
  split at h
  · split at h <;> cases h <;> rfl
  split at h
  · split at h
    · split at h
      next hn => cases h; exact hn.symm
      next => cases h
    all_goals cases h
    all_goals simp only [sregCode]; omega
  split at h
  · cases h
    simp only [sregCode, Fin.val_ofNat]
    omega
  · split at h <;> cases h <;> rfl

theorem bit_decide {n : Nat} (h : n < 2) : bit (decide (n = 1)) = n := by
  obtain rfl | rfl : n = 0 ∨ n = 1 := by omega
  all_goals rfl

theorem bit_mod (n : Nat) : bit (decide (n % 2 = 1)) = n % 2 := bit_decide (Nat.mod_lt _ (by decide))

/-- A field of one bit. -/
theorem bit_fld (w n : Nat) : bit (decide (fld w n n = 1)) = fld w n n :=
  bit_decide (by rw [fld, Nat.add_sub_cancel_left]; exact Nat.mod_lt _ (by decide))

/-! ### What a decoder answers -/

/-- The word stands for the instruction (02 R33, R34). -/
def Encodes (w : Nat) (i : Instr) : Prop := WellFormed i = true ∧ Encode.word i = some w

/-- What the decoder answers for a word is an instruction that the word stands for, or an error. -/
def Sound (w : Nat) (r : Except DecodeFault Instr) : Prop := ∀ i, r = .ok i → Encodes w i

variable {w v : Nat} {i j : Instr} {rs : List Nat} {r : Except DecodeFault Instr}

theorem sound_error {e : DecodeFault} : Sound w (.error e) := by
  intro i h
  cases h

/-- Row 4 of 02 R41: an instruction is answered where its reserved fields are zero. -/
theorem ok_eq_ok (h : ok i rs = .ok j) : i = j ∧ ∀ r ∈ rs, r = 0 := by
  unfold ok at h
  split at h
  next hr =>
    cases h
    exact ⟨rfl, by simpa using hr⟩
  next => cases h

theorem sound_ok (hi : WellFormed i = true) (he : Encode.word i = some v) (h : (∀ r ∈ rs, r = 0) → v = w) : Sound w (ok i rs) := by
  intro j hj
  obtain ⟨rfl, hr⟩ := ok_eq_ok hj
  exact ⟨hi, he.trans (congrArg some (h hr))⟩

theorem sound_of_reserved (h : (∀ r ∈ rs, r = 0) → Sound w (ok i rs)) : Sound w (ok i rs) := fun j hj => h (ok_eq_ok hj).2 j hj

/-- Row 3 of 02 R41. -/
theorem sound_assigned {c : Bool} (h : c = true → Sound w r) : Sound w (assigned c r) := by
  unfold assigned
  split
  next hc => exact h hc
  next => exact sound_error

/-! ### Formats A and E -/

/-- A word of format A stands for an instruction whose fields are the word's own, where the reserved fields are zero. -/
theorem sound_A {s : Bool} {major d a b fn d' a' b' fn' : Nat} (hi : WellFormed i = true) (he : Encode.word i = some (fmtA s major d' a' b' fn'))
    (h : (∀ r ∈ rs, r = 0) → d' = d ∧ a' = a ∧ b' = b ∧ fn' = fn) : Sound (fmtA s major d a b fn) (ok i rs) :=
  sound_ok hi he fun hr => by
    obtain ⟨rfl, rfl, rfl, rfl⟩ := h hr
    rfl

section
variable (s : Bool) (major : Nat) (d a b : XReg) (fn : Fin 1024)

theorem alu_sound : Sound (fmtA s 0x01 d a b fn) (Decode.alu s d a b fn) := by
  simp only [Decode.alu, xr_val]
  split
  case h_19 =>
    split
    next hc => exact sound_A rfl rfl fun _ => by have := condCode_of_cond hc; omega
    next => exact sound_error
  case h_35 => exact sound_error
  all_goals exact sound_A rfl rfl fun h => by simp at h; omega

theorem idx_sound : Sound (fmtA s 0x12 d a b fn) (Decode.idx s d a b fn) := by
  simp only [Decode.idx, xr_val]
  split
  · exact sound_assigned fun hc => sound_A hc rfl fun h => by simp [sizeCode_size, ordCode_ord, bit_mod] at h ⊢; omega
  · refine sound_assigned fun hc => ?_
    rw [Bool.and_eq_true, Bool.not_eq_true', decide_eq_false_iff_not] at hc
    exact sound_A hc.2 rfl fun h => by simp [sizeCode_size, ordCode_ord, bit] at h ⊢; omega
  · exact sound_error

theorem amo_sound : Sound (fmtA s 0x13 d a b fn) (Decode.amo s d a b fn) := by
  simp only [Decode.amo, xr_val]
  split
  case h_12 => exact sound_error
  all_goals exact sound_assigned fun hc => sound_A hc rfl fun h => by simp [sizeCode_size, ordCode_ord] at h ⊢; omega

theorem rwl_sound : Sound (fmtA s 0x14 d a b fn) (Decode.rwl s d a b fn) := by
  simp only [Decode.rwl, xr_val]
  split
  · exact sound_A rfl rfl fun h => by simp [bit_mod] at h ⊢; omega
  · exact sound_assigned fun hc => sound_A rfl rfl fun h => by simp at h hc; omega
  · exact sound_A rfl rfl fun h => by simp [bit_mod] at h ⊢; omega
  · exact sound_assigned fun hc => sound_A rfl rfl fun h => by simp at h hc; omega
  · exact sound_error

theorem fence_sound : Sound (fmtA s 0x15 d a b fn) (Decode.fence s d a b fn) := by
  simp only [Decode.fence]
  split
  case h_4 => exact sound_error
  all_goals
    next hc => exact sound_A rfl rfl fun h => by simp at h; have := scopeCode_of_scope hc; omega

theorem msg_sound : Sound (fmtA s 0x16 d a b fn) (Decode.msg s d a b fn) := by
  simp only [Decode.msg, xr_val]
  split
  case h_4 | h_5 => exact sound_A rfl rfl fun h => by simp at h; omega
  case h_6 => exact sound_error
  all_goals exact sound_assigned fun hc => sound_A hc rfl fun h => by simp at h; omega

theorem bar_sound : Sound (fmtA s 0x17 d a b fn) (Decode.bar s d a b fn) := by
  simp only [Decode.bar, xr_val]
  split
  case h_7 => exact sound_error
  all_goals exact sound_A rfl rfl fun h => by simp at h; omega

theorem vf_sound : Sound (fmtA s 0x18 d a b fn) (Decode.vf s d a b fn) := by
  simp only [Decode.vf, xr_val]
  split
  case h_4 => exact sound_error
  all_goals exact sound_A rfl rfl fun h => by simp at h; omega

theorem pat_sound : Sound (fmtA s 0x27 d a b fn) (Decode.pat s d a b fn) := by
  simp only [Decode.pat, xr_val]
  split
  case h_3 => exact sound_error
  all_goals exact sound_A rfl rfl fun h => by simp at h; omega

theorem work_sound : Sound (fmtA s 0x30 d a b fn) (Decode.work s d a b fn) := by
  simp only [Decode.work, xr_val]
  split
  case h_10 => exact sound_error
  all_goals exact sound_A rfl rfl fun h => by simp at h; omega

theorem gang_sound : Sound (fmtA s 0x32 d a b fn) (Decode.gang s d a b fn) := by
  simp only [Decode.gang, xr_val]
  split
  case h_6 => exact sound_error
  all_goals exact sound_A rfl rfl fun h => by simp at h; omega

theorem engines_sound : Sound (fmtA s major d a b fn) (engines s major d a b fn) := by
  simp only [engines, xr_val]
  split
  case h_13 => exact sound_error
  all_goals exact sound_A rfl rfl fun h => by simp at h; omega

theorem crossing_sound : Sound (fmtA s major d a b fn) (crossing s major d a b fn) := by
  simp only [crossing, xr_val]
  split
  case h_22 => exact sound_error
  all_goals exact sound_A rfl rfl fun h => by simp at h; omega

end

/-! ### Formats V and VS -/

section
variable {s : Bool} {major : Nat} {f : VFields}

/-- Fields read out of one word: each number that names a register is in that register's range, and `xs` and bit 13 lie over
`vb` and `vc` (02 R34). -/
structure Fits (f : VFields) : Prop where
  vd : (vr f.vd).val = f.vd
  va : (vr f.va).val = f.va
  vb : (vr f.vb).val = f.vb
  vc : (vr f.vc).val = f.vc
  m : (mr f.m).val = f.m
  xs : (xr f.xs).val = f.xs
  lap : 4 * f.vb + f.vc / 2 = f.xs
  b13 : f.vc % 2 = f.b13

theorem fits_vfields (w : Nat) : Fits (vfields w) := by
  constructor <;> simp only [vfields, fld, val_vr, val_mr, val_xr] <;> omega

/-- The word of format V that has the fields. -/
def wordV (s : Bool) (major : Nat) (f : VFields) : Nat := fmtV s major f.vd f.va f.vb f.vc f.m f.op f.ty f.sat f.sx

/-- Under sx = 1 and with bit 13 clear, it is a word of format VS. -/
theorem fmtVS_eq_wordV (hf : Fits f) (hx : f.sx = true) (h13 : f.b13 = 0) :
    fmtVS s major f.vd f.va f.xs f.m f.op f.ty f.sat = wordV s major f := by
  have h1 := hf.lap
  have h2 := hf.b13
  simp only [fmtVS, wordV, fmtV, hx, bit, if_true]
  omega

theorem sound_V {vd va vb vc m op ty : Nat} {sat : Bool} (hx : f.sx = false) (hi : WellFormed i = true)
    (he : Encode.word i = some (fmtV s major vd va vb vc m op ty sat false))
    (h : (∀ r ∈ rs, r = 0) → vd = f.vd ∧ va = f.va ∧ vb = f.vb ∧ vc = f.vc ∧ m = f.m ∧ op = f.op ∧ ty = f.ty ∧ sat = f.sat) :
    Sound (wordV s major f) (ok i rs) :=
  sound_ok hi he fun hr => by
    obtain ⟨rfl, rfl, rfl, rfl, rfl, rfl, rfl, rfl⟩ := h hr
    rw [wordV, hx]

theorem sound_VS {vd va xs m op ty : Nat} {sat : Bool} (hf : Fits f) (hx : f.sx = true) (hi : WellFormed i = true)
    (he : Encode.word i = some (fmtVS s major vd va xs m op ty sat))
    (h : (∀ r ∈ rs, r = 0) → f.b13 = 0 ∧ vd = f.vd ∧ va = f.va ∧ xs = f.xs ∧ m = f.m ∧ op = f.op ∧ ty = f.ty ∧ sat = f.sat) :
    Sound (wordV s major f) (ok i rs) :=
  sound_ok hi he fun hr => by
    obtain ⟨h13, rfl, rfl, rfl, rfl, rfl, rfl, rfl⟩ := h hr
    exact fmtVS_eq_wordV hf hx h13

/-- The binary words of vop: one form over vectors, one with a scalar (05 R99). -/
theorem sound_bin {op : Nat} {t : LaneTy} {okTy okSat sat : Bool} (hf : Fits f) (ht : ty f.ty = some t) (hop : f.op = op)
    (hi : okTy = true → WellFormed i = true) (hj : okTy = true → WellFormed j = true)
    (ei : Encode.word i = some (fmtV s major (vr f.vd) (vr f.va) (vr f.vb) 0 (mr f.m) op (tyCode t) sat false))
    (ej : Encode.word j = some (fmtVS s major (vr f.vd) (vr f.va) (xr f.xs) (mr f.m) op (tyCode t) sat))
    (hsat : (!f.sat || okSat) = true → sat = f.sat) :
    Sound (wordV s major f) (assigned (okTy && (!f.sat || okSat)) (if f.sx then ok j [f.b13] else ok i [f.vc])) :=
  sound_assigned fun hc => by
    obtain ⟨hty, hs⟩ := Bool.and_eq_true_iff.1 hc
    split
    next hx => exact sound_VS hf hx (hj hty) ej fun h => by simp at h; simp [hf.vd, hf.va, hf.xs, hf.m, hop, tyCode_of_ty ht, hsat hs, h]
    next hx =>
      rw [Bool.not_eq_true] at hx
      exact sound_V hx (hi hty) ei fun h => by simp at h; simp [hf.vd, hf.va, hf.vb, hf.m, hop, tyCode_of_ty ht, hsat hs, h]

/-- The unary words of vop and vred (05 R99, R103). -/
theorem sound_un {op : Nat} {t : LaneTy} {okTy okSat sat : Bool} (hf : Fits f) (ht : ty f.ty = some t) (hop : f.op = op)
    (hi : okTy = true → (!f.sat || okSat) = true → WellFormed i = true)
    (ei : Encode.word i = some (fmtV s major (vr f.vd) (vr f.va) 0 0 (mr f.m) op (tyCode t) sat false))
    (hsat : (!f.sat || okSat) = true → sat = f.sat) :
    Sound (wordV s major f) (assigned (okTy && (!f.sat || okSat) && !f.sx) (ok i [f.vb, f.vc])) :=
  sound_assigned fun hc => by
    obtain ⟨hc, hx⟩ := Bool.and_eq_true_iff.1 hc
    obtain ⟨hty, hs⟩ := Bool.and_eq_true_iff.1 hc
    rw [Bool.not_eq_true'] at hx
    exact sound_V hx (hi hty hs) ei fun h => by simp at h; simp [hf.vd, hf.va, hf.m, hop, tyCode_of_ty ht, hsat hs, h]

/-- The words of vfma: one form over vectors, one with a scalar (05 R101). -/
theorem sound_fma {op tc : Nat} {okTy : Bool} (hf : Fits f) (ht : okTy = true → tc = f.ty) (hop : f.op = op)
    (hi : okTy = true → WellFormed i = true) (hj : okTy = true → WellFormed j = true)
    (ei : Encode.word i = some (fmtV s major (vr f.vd) (vr f.va) (vr f.vb) (vr f.vc) (mr f.m) op tc f.sat false))
    (ej : Encode.word j = some (fmtVS s major (vr f.vd) (vr f.va) (xr f.xs) (mr f.m) op tc f.sat)) :
    Sound (wordV s major f) (assigned okTy (if f.sx then ok j [f.b13] else ok i [])) :=
  sound_assigned fun hty => by
    split
    next hx => exact sound_VS hf hx (hj hty) ej fun h => by simp at h; simp [hf.vd, hf.va, hf.xs, hf.m, hop, ht hty, h]
    next hx =>
      rw [Bool.not_eq_true] at hx
      exact sound_V hx (hi hty) ei fun _ => by simp [hf.vd, hf.va, hf.vb, hf.vc, hf.m, hop, ht hty]

/-- The words over vectors that take no sat bit (05 R103, R106). -/
theorem sound_V_unsaturated {vd va vb vc m op ty : Nat} (hi : WellFormed i = true)
    (he : Encode.word i = some (fmtV s major vd va vb vc m op ty false false))
    (h : (∀ r ∈ rs, r = 0) → vd = f.vd ∧ va = f.va ∧ vb = f.vb ∧ vc = f.vc ∧ m = f.m ∧ op = f.op ∧ ty = f.ty) :
    Sound (wordV s major f) (assigned (!f.sat && !f.sx) (ok i rs)) :=
  sound_assigned fun hc => by
    rw [Bool.and_eq_true, Bool.not_eq_true', Bool.not_eq_true'] at hc
    exact sound_V hc.2 hi he fun hr => by simpa [hc.1] using h hr

/-- The words with a scalar that take no sat bit (05 R103, R106). -/
theorem sound_VS_unsaturated {vd va xs m op ty : Nat} (hf : Fits f) (hi : WellFormed i = true)
    (he : Encode.word i = some (fmtVS s major vd va xs m op ty false))
    (h : (∀ r ∈ rs, r = 0) → f.b13 = 0 ∧ vd = f.vd ∧ va = f.va ∧ xs = f.xs ∧ m = f.m ∧ op = f.op ∧ ty = f.ty) :
    Sound (wordV s major f) (assigned (!f.sat && f.sx) (ok i rs)) :=
  sound_assigned fun hc => by
    rw [Bool.and_eq_true, Bool.not_eq_true'] at hc
    exact sound_VS hf hc.2 hi he fun hr => by simpa [hc.1] using h hr

theorem vop_sound (hf : Fits f) : Sound (wordV s 0x20 f) (Decode.vop s f) := by
  unfold Decode.vop
  split
  next => exact sound_error
  next t ht =>
    dsimp only
    split
    case h_6 | h_7 => exact sound_un hf ht ‹f.op = _› (fun _ h => h) rfl (by simp)
    case h_9 => exact sound_un hf ht ‹f.op = _› (fun h _ => h) rfl (by simp)
    case h_17 => exact sound_error
    all_goals exact sound_bin hf ht ‹f.op = _› id id rfl rfl (by simp)

theorem vfma_sound (hf : Fits f) : Sound (wordV s 0x21 f) (Decode.vfma s f) := by
  unfold Decode.vfma
  split
  next => exact sound_error
  next t ht =>
    have htc := tyCode_of_ty ht
    dsimp only
    split
    case h_6 => exact sound_fma hf (fun h => by rw [← htc, of_decide_eq_true h]; rfl) ‹f.op = _› (fun _ => rfl) (fun _ => rfl) rfl rfl
    case h_7 => exact sound_error
    all_goals exact sound_fma hf (fun _ => htc) ‹f.op = _› id id rfl rfl

theorem vcmp_sound (hf : Fits f) : Sound (wordV s 0x22 f) (Decode.vcmp s f) := by
  unfold Decode.vcmp
  split
  next t c ht hcc =>
    refine sound_assigned fun hc => ?_
    simp only [Bool.and_eq_true, Bool.not_eq_true', decide_eq_true_eq] at hc
    obtain ⟨⟨⟨hc, hsat⟩, h1⟩, h3⟩ := hc
    have hd : (mr f.vd).val = f.vd := by rw [val_mr]; omega
    have hm : (decide (mr f.vd ≠ 0)) = true := decide_eq_true (Fin.val_ne_iff.1 (by rw [hd]; exact Nat.ne_of_gt h1))
    have hwf : (WellFormed.vcmp t c && decide (mr f.vd ≠ 0)) = true := by rw [hc, hm]; rfl
    split
    next hx =>
      exact sound_VS hf hx hwf rfl fun h => by simp at h; simp [hd, hf.va, hf.xs, hf.m, vcondCode_of_vcond hcc, tyCode_of_ty ht, hsat, h]
    next hx =>
      rw [Bool.not_eq_true] at hx
      exact sound_V hx hwf rfl fun h => by simp at h; simp [hd, hf.va, hf.vb, hf.m, vcondCode_of_vcond hcc, tyCode_of_ty ht, hsat, h]
  next => exact sound_error

theorem vred_sound (hf : Fits f) : Sound (wordV s 0x23 f) (Decode.vred s f) := by
  unfold Decode.vred
  split
  next => exact sound_error
  next t ht =>
    have htc := tyCode_of_ty ht
    dsimp only
    split
    case h_7 hop => exact sound_V_unsaturated rfl rfl fun h => by simp at h; simp [hf.vd, hf.va, hf.vb, hf.m, hop, htc, h]
    case h_8 hop => exact sound_VS_unsaturated hf rfl rfl fun h => by simp at h; simp [hf.vd, hf.va, hf.xs, hf.m, hop, htc, h]
    case h_9 => exact sound_error
    all_goals exact sound_un hf ht ‹f.op = _› (fun h _ => h) rfl (by simp)

/-- Where a conversion does not narrow, the field vb is reserved (05 R104). -/
theorem vb_eq_zero {k : CvtKind} (hf : Fits f) (hr : ∀ r ∈ if k = .narrow then [f.vc] else [f.vb, f.vc], r = 0) : k = .narrow ∨ vr f.vb = 0 := by
  by_cases hk : k = .narrow
  · exact .inl hk
  · rw [if_neg hk] at hr
    exact .inr (Fin.ext (hf.vb.trans (hr f.vb (by simp))))

theorem vcvt_sound (hf : Fits f) : Sound (wordV s 0x24 f) (Decode.vcvt s f) := by
  unfold Decode.vcvt
  split
  next src dst hsrc hdst =>
    dsimp only
    split
    next => exact sound_error
    next k hk =>
      refine sound_assigned fun hc => sound_of_reserved fun hr => ?_
      rw [Bool.and_eq_true, Bool.not_eq_true'] at hc
      obtain ⟨hc, hx⟩ := hc
      have hop : 2 * tyCode dst + bit (decide (f.op % 2 = 1)) = f.op := by rw [tyCode_of_ty hdst, bit_mod]; omega
      have hvc : f.vc = 0 := hr _ (by split <;> simp)
      have hwf : WellFormed.vcvt src dst (decide (f.op % 2 = 1)) f.sat (vr f.vb) = true := by
        simpa [WellFormed.vcvt, hk, vb_eq_zero hf hr] using hc
      exact sound_V hx hwf rfl fun _ => by simp [hf.vd, hf.va, hf.vb, hf.m, hop, tyCode_of_ty hsrc, hvc]
  next => exact sound_error

theorem vmov_sound (hf : Fits f) : Sound (wordV s 0x26 f) (Decode.vmov s f) := by
  unfold Decode.vmov
  dsimp only
  split
  case h_1 hop => exact sound_V_unsaturated rfl rfl fun h => by simp at h; simp [hf.vd, hf.va, hf.m, hop, h]
  case h_2 hop =>
    split
    next t ht => exact sound_V_unsaturated rfl rfl fun h => by simp at h; simp [hf.vd, hf.va, hf.vb, hf.m, hop, tyCode_of_ty ht, h]
    next => exact sound_error
  case h_3 hop =>
    split
    next t ht => exact sound_VS_unsaturated hf rfl rfl fun h => by simp at h; simp [hf.vd, hf.xs, hf.m, hop, tyCode_of_ty ht, h]
    next => exact sound_error
  case h_4 hop =>
    split
    next t ht => exact sound_VS_unsaturated hf rfl rfl fun h => by simp at h; simp [hf.va, hf.xs, hf.m, hop, tyCode_of_ty ht, h]
    next => exact sound_error
  case h_5 hop => exact sound_VS_unsaturated hf rfl rfl fun h => by simp at h; simp [hf.xs, hf.m, hop, h]
  case h_6 hop =>
    refine sound_assigned fun hc => ?_
    simp only [Bool.and_eq_true, Bool.not_eq_true', decide_eq_true_eq] at hc
    obtain ⟨⟨hsat, hx⟩, hm⟩ := hc
    have hwf : decide (mr f.m ≠ 0) = true := decide_eq_true (Fin.val_ne_iff.1 (by rw [hf.m]; exact hm))
    exact sound_VS hf hx hwf rfl fun h => by simp at h; simp [hf.xs, hf.m, hop, hsat, h]
  case h_7 hop => exact sound_V_unsaturated rfl rfl fun h => by simp at h; simp [hf.vd, hf.m, hop, h]
  case h_8 => exact sound_error

end

/-! ### The other formats, and the major map -/

theorem fld_lt (w hi lo : Nat) : fld w hi lo < 2 ^ (hi + 1 - lo) := Nat.mod_lt _ (Nat.two_pow_pos _)

/-- The bits down from hi are a field and the bits below it. -/
theorem fld_cut (w hi lo k : Nat) (h : lo = k + 1 ∧ k < hi := by decide) : fld w hi 0 = fld w hi lo * 2 ^ lo + fld w k 0 := by
  obtain ⟨rfl, h⟩ := h
  have hpow : 2 ^ (hi + 1) = 2 ^ (k + 1) * 2 ^ (hi + 1 - (k + 1)) := by rw [← pow_add]; congr 1; omega
  simp only [fld, Nat.pow_zero, Nat.div_one, Nat.sub_zero]
  rw [hpow, Nat.mod_mul, Nat.add_comm, Nat.mul_comm]

section
variable (hw : w < 2 ^ 32)
include hw

/-- A word is its switch marker, its major and the 25 bits of its format (02 R33). -/
theorem word_eq {major : Nat} (hm : fld w 30 25 = major) : w = bit (decide (fld w 31 31 = 1)) * 2 ^ 31 + major * 2 ^ 25 + fld w 24 0 := by
  have h31 : fld w 31 0 = w := by rw [fld, Nat.pow_zero, Nat.div_one]; exact Nat.mod_eq_of_lt hw
  have := fld_cut w 31 31 30
  have := fld_cut w 30 25 24
  rw [bit_fld]
  omega

theorem fmtA_fields {major : Nat} (hm : fld w 30 25 = major) :
    fmtA (decide (fld w 31 31 = 1)) major (fld w 24 20) (fld w 19 15) (fld w 14 10) (fld w 9 0) = w := by
  have := word_eq hw hm
  have := fld_cut w 24 20 19
  have := fld_cut w 19 15 14
  have := fld_cut w 14 10 9
  rw [fmtA]
  omega

theorem wordV_vfields {major : Nat} (hm : fld w 30 25 = major) : wordV (decide (fld w 31 31 = 1)) major (vfields w) = w := by
  have := word_eq hw hm
  have := fld_cut w 24 22 21
  have := fld_cut w 21 19 18
  have := fld_cut w 18 16 15
  have := fld_cut w 15 13 12
  have := fld_cut w 12 11 10
  have := fld_cut w 10 5 4
  have := fld_cut w 4 2 1
  have := fld_cut w 1 1 0
  simp only [wordV, fmtV, vfields, bit_fld w 1, bit_fld w 0]
  omega

theorem fmtI_fields {major : Nat} (hm : fld w 30 25 = major) :
    fmtI (decide (fld w 31 31 = 1)) major (xr (fld w 24 20)) (xr (fld w 19 15)) (BitVec.ofNat 15 (fld w 14 0)).toNat = w := by
  have := word_eq hw hm
  have := fld_cut w 24 20 19
  have := fld_cut w 19 15 14
  simp (disch := exact fld_lt ..) only [fmtI, val_xr, BitVec.toNat_ofNat, Nat.mod_eq_of_lt]
  omega

theorem fmtL_fields {major : Nat} (hm : fld w 30 25 = major) :
    fmtL (decide (fld w 31 31 = 1)) major (xr (fld w 24 20)) (BitVec.ofNat 20 (fld w 19 0)).toNat = w := by
  have := word_eq hw hm
  have := fld_cut w 24 20 19
  simp (disch := exact fld_lt ..) only [fmtL, val_xr, BitVec.toNat_ofNat, Nat.mod_eq_of_lt]
  omega

theorem fmtM_fields {major : Nat} (hm : fld w 30 25 = major) :
    fmtM (decide (fld w 31 31 = 1)) major (xr (fld w 24 20)) (xr (fld w 19 15)) (size (fld w 14 13)) (decide (fld w 12 12 = 1)) (ord (fld w 11 10))
      (BitVec.ofNat 10 (fld w 9 0)).toNat = w := by
  have := word_eq hw hm
  have := fld_cut w 24 20 19
  have := fld_cut w 19 15 14
  have := fld_cut w 14 13 12
  have := fld_cut w 12 12 11
  have := fld_cut w 11 10 9
  simp (disch := exact fld_lt ..) only [fmtM, val_xr, sizeCode_size, ordCode_ord, bit_fld w 12, BitVec.toNat_ofNat, Nat.mod_eq_of_lt]
  omega

theorem fmtVM_fields (hm : fld w 30 25 = 0x25) :
    fmtVM (decide (fld w 31 31 = 1)) (vr (fld w 24 22)) (mr (fld w 21 20)) (xr (fld w 19 15)) (fld w 14 12) (ord (fld w 11 10))
      (BitVec.ofNat 10 (fld w 9 0)).toNat = w := by
  have := word_eq hw hm
  have := fld_cut w 24 22 21
  have := fld_cut w 21 20 19
  have := fld_cut w 19 15 14
  have := fld_cut w 14 12 11
  have := fld_cut w 11 10 9
  simp (disch := exact fld_lt ..) only [fmtVM, val_xr, val_vr, val_mr, ordCode_ord, BitVec.toNat_ofNat, Nat.mod_eq_of_lt]
  omega

/-- A word is a word of format A with the fields that the decoder reads out of it. -/
theorem sound_of_A {major : Nat} {sub : Bool → Nat → Nat → Nat → Nat → Except DecodeFault Instr} (hm : fld w 30 25 = major)
    (h : ∀ s (d a b : XReg) (fn : Fin 1024), Sound (fmtA s major d a b fn) (sub s d a b fn)) :
    Sound w (sub (decide (fld w 31 31 = 1)) (fld w 24 20) (fld w 19 15) (fld w 14 10) (fld w 9 0)) := by
  have := h (decide (fld w 31 31 = 1)) ⟨_, fld_lt w 24 20⟩ ⟨_, fld_lt w 19 15⟩ ⟨_, fld_lt w 14 10⟩ ⟨_, fld_lt w 9 0⟩
  rwa [fmtA_fields hw hm] at this

/-- A word is a word of format V with the fields that `vfields` reads out of it. -/
theorem sound_of_V {major : Nat} {sub : Bool → VFields → Except DecodeFault Instr} (hm : fld w 30 25 = major)
    (h : ∀ {s f}, Fits f → Sound (wordV s major f) (sub s f)) : Sound w (sub (decide (fld w 31 31 = 1)) (vfields w)) := by
  have := h (s := decide (fld w 31 31 = 1)) (fits_vfields w)
  rwa [wordV_vfields hw hm] at this

theorem cmpi_sound (hm : fld w 30 25 = 0x06) : Sound w (Decode.cmpi (decide (fld w 31 31 = 1)) w) := by
  unfold Decode.cmpi
  split
  next c hc =>
    refine sound_ok rfl rfl fun _ => ?_
    have := fmtI_fields hw hm
    have := fld_cut w 14 11 10
    simp (disch := exact fld_lt ..) only [fmtI, condCode_of_cond hc, val_xr, BitVec.toNat_ofNat, Nat.mod_eq_of_lt] at *
    omega
  next => exact sound_error

theorem br_sound (hm : fld w 30 25 = 0x08) : Sound w (Decode.br (decide (fld w 31 31 = 1)) w) := by
  unfold Decode.br
  split
  next c hc =>
    refine sound_assigned fun hwf => sound_ok hwf rfl fun _ => ?_
    have := word_eq hw hm
    have := fld_cut w 24 21 20
    have := fld_cut w 20 16 15
    simp (disch := exact fld_lt ..) only [condCode_of_cond hc, val_xr, BitVec.toNat_ofNat, Nat.mod_eq_of_lt]
    omega
  next => exact sound_error

theorem hint_sound (hm : fld w 30 25 = 0x3F) : Sound w (Decode.hint (decide (fld w 31 31 = 1)) w) := by
  have := word_eq hw hm
  have := fld_cut w 24 23 22
  have hlt := fld_lt w 24 23
  obtain hk | hk | hk | hk : fld w 24 23 = 0 ∨ fld w 24 23 = 1 ∨ fld w 24 23 = 2 ∨ fld w 24 23 = 3 := by omega
  all_goals
    rw [Decode.hint, hk]
    refine sound_ok rfl rfl fun _ => ?_
    simp (disch := exact fld_lt ..) only [BitVec.toNat_ofNat, Nat.mod_eq_of_lt]
    omega

theorem ld_sound (hm : fld w 30 25 = 0x10) : Sound w (ldst (decide (fld w 31 31 = 1)) true w) :=
  sound_assigned fun hwf => sound_ok hwf rfl fun _ => fmtM_fields hw hm

theorem st_sound (hm : fld w 30 25 = 0x11) : Sound w (ldst (decide (fld w 31 31 = 1)) false w) :=
  sound_assigned fun hc => by
    rw [Bool.and_eq_true, Bool.not_eq_true'] at hc
    exact sound_ok hc.2 rfl fun _ => by simpa only [hc.1] using fmtM_fields hw hm

theorem vmem_sound (hm : fld w 30 25 = 0x25) : Sound w (Decode.vmem (decide (fld w 31 31 = 1)) w) := by
  unfold Decode.vmem
  dsimp only
  split
  case h_5 => exact sound_error
  all_goals
    next hk => exact sound_assigned fun hwf => sound_ok hwf rfl fun _ => by simpa only [hk] using fmtVM_fields hw hm

theorem sys_sound (hm : fld w 30 25 = 0x38) : Sound w (sys (decide (fld w 31 31 = 1)) w) := by
  have := word_eq hw hm
  have := fld_cut w 24 20 19
  unfold sys
  dsimp only
  split
  case h_1 | h_2 =>
    split
    next n hn =>
      refine sound_ok rfl rfl fun _ => ?_
      have := fld_cut w 19 8 7
      simp (disch := exact fld_lt ..) only [val_xr, sregCode_of_sreg hn, Nat.mod_eq_of_lt]
      omega
    next => exact sound_error
  case h_9 => exact sound_error
  all_goals
    refine sound_ok rfl rfl fun h => ?_
    have := fld_cut w 19 15 14
    have := fld_cut w 14 10 9
    have := fld_cut w 9 8 7
    simp at h
    simp (disch := exact fld_lt ..) only [fmtA, val_xr, Nat.mod_eq_of_lt]
    omega

/-- The major map of 02 R39. -/
theorem word_sound : Sound w (Decode.word w) := by
  unfold Decode.word
  dsimp only
  split
  case h_1 => exact sound_error
  case h_2 hm => exact sound_of_A hw hm alu_sound
  case h_3 hm | h_4 hm | h_5 hm | h_6 hm => exact sound_ok rfl rfl fun _ => fmtI_fields hw hm
  case h_7 hm => exact cmpi_sound hw hm
  case h_8 hm => exact sound_ok rfl rfl fun _ => fmtL_fields hw hm
  case h_9 hm => exact br_sound hw hm
  case h_10 hm => exact sound_ok rfl rfl fun _ => fmtL_fields hw hm
  case h_11 hm => exact sound_ok rfl rfl fun _ => fmtI_fields hw hm
  case h_12 hm => exact ld_sound hw hm
  case h_13 hm => exact st_sound hw hm
  case h_14 hm => exact sound_of_A hw hm idx_sound
  case h_15 hm => exact sound_of_A hw hm amo_sound
  case h_16 hm => exact sound_of_A hw hm rwl_sound
  case h_17 hm => exact sound_of_A hw hm fence_sound
  case h_18 hm => exact sound_of_A hw hm msg_sound
  case h_19 hm => exact sound_of_A hw hm bar_sound
  case h_20 hm => exact sound_of_A hw hm vf_sound
  case h_21 hm => exact sound_of_V hw hm vop_sound
  case h_22 hm => exact sound_of_V hw hm vfma_sound
  case h_23 hm => exact sound_of_V hw hm vcmp_sound
  case h_24 hm => exact sound_of_V hw hm vred_sound
  case h_25 hm => exact sound_of_V hw hm vcvt_sound
  case h_26 hm => exact vmem_sound hw hm
  case h_27 hm => exact sound_of_V hw hm vmov_sound
  case h_28 hm => exact sound_of_A hw hm pat_sound
  case h_29 hm | h_30 hm | h_31 hm | h_33 hm => exact sound_of_A (sub := (engines · _)) hw hm (engines_sound · _)
  case h_32 hm => exact sound_of_A hw hm work_sound
  case h_34 hm => exact sound_of_A hw hm gang_sound
  case h_35 hm | h_36 hm | h_37 hm | h_38 hm => exact sound_of_A (sub := (crossing · _)) hw hm (crossing_sound · _)
  case h_39 hm => exact sys_sound hw hm
  case h_40 hm => exact hint_sound hw hm
  case h_41 => exact sound_error

end

end Sys2Proof.Laws

/-- Settles O59: what the decoder answers for a word is sound, format by format. -/
theorem decodedInstructionEncodes : Obligations.DecodedInstructionEncodes := by
  intro i w h
  obtain ⟨hwf, he⟩ := Sys2Proof.Laws.word_sound w.isLt i h
  exact ⟨hwf, by rw [Sys2Proof.encode, he, Option.map_some, BitVec.ofNat_toNat, BitVec.setWidth_eq]⟩
end

section
/-! SUPPORT. A contribution that would start a chunk's accumulator at the root, where the die lists its trees out of order (09 R229; 14 R303). -/

open Sys2Proof Sys2Proof.Machine

namespace Sys2Proof.Machine

/-- A good contribution of the current step reaches the root: its tree is marked as fresh, and it is merged. -/
theorem exec_contributionArrival_root {s : State} {c : Contribution} {t : Tree} (ht : kget c.slot (s.die c.die).trees = some t) (hgood : c.good = true)
    (hstep : c.step = t.step % 2 ^ 20) (port : Nat) :
    exec (.contributionArrival t.root port c) s = .next ((s.modTree c.die c.slot (fun t => { t with fresh := true })).rootMerge c t) := by
  change execContributionArrival t.root port c s = _
  simp [execContributionArrival, ht, hgood, hstep]

/-- A contribution that would start an accumulator while the root holds 64 of them comes again in the next core cycle. -/
theorem State.rootMerge_no_room {s : State} {c : Contribution} {t : Tree} (hstep : c.step = t.step % 2 ^ 20) (hpending : (chunkIn t.chunks c.chunk).state = 0)
    (hacc : (chunkIn t.chunks c.chunk).acc = none) (hroom : 64 ≤ (s.die c.die).accumulators t.root) :
    s.rootMerge c t = s.post (s.cycle + 1) (.contributionArrival t.root 0 c) := by
  simp [State.rootMerge, TreeChunk.full, hstep, hpending, hacc, hroom]

/-- Tree 5 with an accumulator for each of the chunks 2 to 33, and none for chunk 1. -/
def busyTree : Tree := { tr with chunks := (List.range 32).map (fun i => (i + 2, { TreeChunk.start with acc := some (con 0) })) }

/-- Die 0 lists tree 5 behind tree 7. -/
def unorderedTrees : State := w0.modDie 0 (fun d => { d with trees := [(7, tr), (5, busyTree)] })

/-- The state in which tree 5 is marked as fresh: `kset` puts the changed tree before tree 7 and leaves the old one behind it. -/
def markedTwice : State := unorderedTrees.modTree 0 5 (fun t => { t with fresh := true })

theorem unorderedTrees_accumulators : (unorderedTrees.die 0).accumulators busyTree.root = 32 := by decide

theorem markedTwice_accumulators : (markedTwice.die 0).accumulators busyTree.root = 64 := by decide

theorem markedTwice_tree : kget 5 (markedTwice.die 0).trees = some { busyTree with fresh := true } := rfl

theorem busyTree_chunk : kget 1 busyTree.chunks = none := by decide

/-- The root finds no room for the accumulator of chunk 1. -/
theorem unorderedTrees_defers (hgood : (con 0).good = true) :
    exec (.contributionArrival busyTree.root 0 (con 0)) unorderedTrees = .next (markedTwice.post (markedTwice.cycle + 1) (.contributionArrival busyTree.root 0 (con 0))) := by
  have htree : kget (con 0).slot (unorderedTrees.die (con 0).die).trees = some busyTree := rfl
  have hroom : 64 ≤ (markedTwice.die (con 0).die).accumulators busyTree.root := markedTwice_accumulators.ge
  rw [exec_contributionArrival_root htree hgood rfl 0]
  exact congrArg Host.Outcome.next (State.rootMerge_no_room rfl rfl rfl hroom)

end Sys2Proof.Machine

/-- Refutes O49: the clause on a contribution that starts its chunk's accumulator does not say that the die lists its trees in ascending order, on which `kset`
relies. Where it does not, marking the tree as fresh lists it twice, and the root, which counts its accumulators after that, takes 32 of them for 64: the
contribution starts none, and comes again in the next core cycle (14 R303). -/
theorem not_ringAndTreeEvents : ¬ Obligations.RingAndTreeEvents := by
  intro h
  have hgood : (con 0).good = true := witness_RingAndTreeEvents_forward.1
  have hroom : (unorderedTrees.die 0).accumulators busyTree.root < 64 := by rw [unorderedTrees_accumulators]; decide
  obtain ⟨arrival, -⟩ := h unorderedTrees unorderedTrees 0 5 1 busyTree (con 0) rfl
  obtain ⟨starts, -⟩ := arrival busyTree.root 0 rfl rfl rfl
  obtain ⟨u, r', hu, htree, hchunk, -⟩ := starts hgood rfl rfl rfl rfl hroom
  rw [unorderedTrees_defers hgood] at hu
  cases hu
  cases markedTwice_tree.symm.trans htree
  cases busyTree_chunk.symm.trans hchunk
end

section
/-! SUPPORT. The values of the scalar words (04 R82 to R84): the model's functions on words against those of integers and bits. -/

open Sys2Proof Sys2Proof.Machine

namespace Sys2Proof.Machine

/-! ### Conditions (04 R82) -/

theorem condHolds_iff (A B : Word) :
    (condHolds .eq A B ↔ A = B) ∧ (condHolds .ne A B ↔ A ≠ B) ∧ (condHolds .lt A B ↔ A.toInt < B.toInt) ∧ (condHolds .ge A B ↔ B.toInt ≤ A.toInt)
      ∧ (condHolds .gt A B ↔ B.toInt < A.toInt) ∧ (condHolds .le A B ↔ A.toInt ≤ B.toInt) ∧ (condHolds .ltu A B ↔ A.toNat < B.toNat)
      ∧ (condHolds .geu A B ↔ B.toNat ≤ A.toNat) ∧ (condHolds .gtu A B ↔ B.toNat < A.toNat) ∧ (condHolds .leu A B ↔ A.toNat ≤ B.toNat)
      ∧ (condHolds .any A B ↔ A &&& B ≠ 0) ∧ (condHolds .none A B ↔ A &&& B = 0) := by
  simp [condHolds, BitVec.slt_iff_toInt_lt, BitVec.ult_iff_lt, BitVec.lt_def, ← Bool.not_eq_true]

/-! ### Single-cycle words (04 R83) -/

section
variable (A B : Word)

theorem minS_eq : (if A.slt B then A else B) = BitVec.ofInt 64 (min A.toInt B.toInt) := by
  rcases lt_or_ge A.toInt B.toInt with h | h
  · rw [if_pos (BitVec.slt_iff_toInt_lt.2 h), min_eq_left h.le, BitVec.ofInt_toInt]
  · rw [if_neg (by rwa [BitVec.slt_iff_toInt_lt, not_lt]), min_eq_right h, BitVec.ofInt_toInt]

theorem maxS_eq : (if A.slt B then B else A) = BitVec.ofInt 64 (max A.toInt B.toInt) := by
  rcases lt_or_ge A.toInt B.toInt with h | h
  · rw [if_pos (BitVec.slt_iff_toInt_lt.2 h), max_eq_right h.le, BitVec.ofInt_toInt]
  · rw [if_neg (by rwa [BitVec.slt_iff_toInt_lt, not_lt]), max_eq_left h, BitVec.ofInt_toInt]

theorem minU_eq : (if A.ult B then A else B) = BitVec.ofNat 64 (min A.toNat B.toNat) := by
  rcases lt_or_ge A.toNat B.toNat with h | h
  · rw [if_pos (BitVec.ult_iff_lt.2 h), min_eq_left h.le, BitVec.ofNat_toNat, BitVec.setWidth_eq]
  · rw [if_neg (by simpa [BitVec.ult] using h), min_eq_right h, BitVec.ofNat_toNat, BitVec.setWidth_eq]

theorem maxU_eq : (if A.ult B then B else A) = BitVec.ofNat 64 (max A.toNat B.toNat) := by
  rcases lt_or_ge A.toNat B.toNat with h | h
  · rw [if_pos (BitVec.ult_iff_lt.2 h), max_eq_right h.le, BitVec.ofNat_toNat, BitVec.setWidth_eq]
  · rw [if_neg (by simpa [BitVec.ult] using h), max_eq_left h, BitVec.ofNat_toNat, BitVec.setWidth_eq]

theorem sra_eq (n : Nat) : A.sshiftRight n = BitVec.ofInt 64 (A.toInt / 2 ^ n) := by
  rw [BitVec.sshiftRight, Int.shiftRight_eq_div_pow]
  norm_cast

theorem bitLength_le_iff (n k : Nat) : bitLength n ≤ k ↔ n < 2 ^ k := by
  unfold bitLength
  split_ifs with h
  · simp [h]
  · rw [Nat.succ_le_iff, Nat.log2_lt h]

theorem toNat_lzc : (lzc A).toNat = 64 - bitLength A.toNat := by
  rw [lzc, BitVec.toNat_ofNat, Nat.mod_eq_of_lt (by omega)]

theorem lzc_spec : (lzc A).toNat ≤ 64 ∧ A.toNat < 2 ^ (64 - (lzc A).toNat) ∧ ((lzc A).toNat < 64 → 2 ^ (63 - (lzc A).toNat) ≤ A.toNat) := by
  have hle : bitLength A.toNat ≤ 64 := (bitLength_le_iff _ _).2 A.isLt
  rw [toNat_lzc]
  refine ⟨by omega, (bitLength_le_iff _ _).1 (by omega), fun h => ?_⟩
  rw [← not_lt, ← bitLength_le_iff]
  omega

theorem toNat_tzc : (tzc A).toNat = (List.range 64).findIdx (fun i => A.getLsbD i) := by
  have : (List.range 64).findIdx (fun i => A.getLsbD i) ≤ 64 := List.findIdx_le_length.trans_eq List.length_range
  rw [tzc, BitVec.toNat_ofNat, Nat.mod_eq_of_lt (by omega)]

theorem tzc_spec : (tzc A).toNat ≤ 64 ∧ (∀ i < (tzc A).toNat, A.getLsbD i = false) ∧ ((tzc A).toNat < 64 → A.getLsbD (tzc A).toNat = true) := by
  rw [toNat_tzc]
  refine ⟨List.findIdx_le_length.trans_eq List.length_range, fun i hi => ?_, fun h => ?_⟩
  · simpa using List.not_of_lt_findIdx hi
  · simpa using List.findIdx_getElem (w := h.trans_eq List.length_range.symm)

theorem toNat_onesOf : (onesOf A).toNat = ((List.range 64).filter (fun i => A.getLsbD i)).length := by
  have : (List.range 64).countP (fun i => A.getLsbD i) ≤ 64 := List.countP_le_length.trans_eq List.length_range
  rw [onesOf, BitVec.toNat_ofNat, Nat.mod_eq_of_lt (by omega), List.countP_eq_length_filter]

theorem zx32_eq : (A.setWidth 32).setWidth 64 = BitVec.ofNat 64 (A.toNat % 2 ^ 32) := by
  rw [← BitVec.toNat_setWidth, BitVec.ofNat_toNat]

/-! ### Multiplies and divides (04 R84) -/

theorem highProduct_toNat : highProduct A.toNat B.toNat = BitVec.ofNat 64 (A.toNat * B.toNat / 2 ^ 64) := by
  rw [highProduct, ← BitVec.ofInt_natCast]
  norm_cast

/-- The only quotient that does not fit, -2^63 by -1, wraps to the dividend that R84 gives. -/
theorem quoS_eq : quoS A B = if B = 0 then BitVec.allOnes 64 else BitVec.ofInt 64 (A.toInt.tdiv B.toInt) := by
  unfold quoS
  split_ifs with h0 h
  · rfl
  · obtain ⟨rfl, rfl⟩ : A = BitVec.intMin 64 ∧ B = BitVec.allOnes 64 := by simpa using h
    decide
  · rfl

/-- That quotient leaves no remainder. -/
theorem rmdS_eq : rmdS A B = if B = 0 then A else BitVec.ofInt 64 (A.toInt.tmod B.toInt) := by
  unfold rmdS
  split_ifs with h0 h
  · rfl
  · obtain ⟨rfl, rfl⟩ : A = BitVec.intMin 64 ∧ B = BitVec.allOnes 64 := by simpa using h
    decide
  · rw [Int.tmod_def]

end

section
variable {s : State} {sw : Bool} {d a b : XReg} {i : Instr} {v : Word}

theorem alu2_gives {f : Word → Word → Word} (h : s.Clear [.x a, .x b] [.x d]) (hh : s.NoHints) (hv : f ((s.ctx s.who).getX a) ((s.ctx s.who).getX b) = v) :
    alu2 i sw d a b f s = .next (s.afterWord sw (fun c => c.setX d v)) := hv ▸ alu2_clear i f h hh

theorem alu1_gives {f : Word → Word} {P : Word → Prop} (h : s.Clear [.x a] [.x d]) (hh : s.NoHints) (hv : P (f ((s.ctx s.who).getX a))) :
    ∃ v, P v ∧ alu1 i sw d a f s = .next (s.afterWord sw (fun c => c.setX d v)) := ⟨_, hv, alu1_clear i f h hh⟩

theorem aluMulOp_gives {f : Word → Word → Word} (h : s.Clear [.x a, .x b] [.x d]) (hh : s.NoHints) (hv : f ((s.ctx s.who).getX a) ((s.ctx s.who).getX b) = v) :
    aluMulOp i sw d a b f s = .next (s.afterScalar sw 3 .unit d v) := hv ▸ aluMulOp_clear i f h hh

/-- A divide-family word with the divider idle, and with the divider busy. -/
theorem aluDivOp_gives {f : Word → Word → Word} (h : s.Clear [.x a, .x b] [.x d]) (hh : s.NoHints) (hv : f ((s.ctx s.who).getX a) ((s.ctx s.who).getX b) = v) :
    ((s.core s.who.core).divBusy ≤ s.cycle → aluDivOp i sw d a b f s
        = .next ((s.modCore s.who.core (fun k => { k with divBusy := s.cycle + 21 })).afterScalar sw 20 .unit d v))
      ∧ (s.cycle < (s.core s.who.core).divBusy → aluDivOp i sw d a b f s = .next { s with stalled := true }) :=
  ⟨fun hb => hv ▸ aluDivOp_clear i f h hh hb, aluDivOp_busy i f h⟩

end

end Sys2Proof.Machine

/-- Settles O1: the words with two operands are `alu2`, the others `alu1`, and each has its function's value. -/
theorem singleCycleAluResult : Obligations.SingleCycleAluResult := by
  refine ⟨fun s sw d a b h hh => ?_, fun s sw d a h hh => ?_, condHolds_iff⟩
  all_goals dsimp only [exec]
  · exact ⟨alu2_gives h hh rfl, alu2_gives h hh rfl, alu2_gives h hh rfl, alu2_gives h hh rfl, alu2_gives h hh rfl, alu2_gives h hh rfl,
      alu2_gives h hh rfl, alu2_gives h hh rfl, alu2_gives h hh (sra_eq ..), alu2_gives h hh rfl, alu2_gives h hh (minS_eq ..),
      alu2_gives h hh (maxS_eq ..), alu2_gives h hh (minU_eq ..), alu2_gives h hh (maxU_eq ..), alu2_gives h hh rfl, alu2_gives h hh rfl,
      alu2_gives h hh rfl, alu2_gives h hh rfl, fun c => alu2_gives h hh rfl⟩
  · exact ⟨alu1_gives h hh (lzc_spec _), alu1_gives h hh (tzc_spec _), alu1_gives h hh (toNat_onesOf _), alu1_gives h hh rfl, alu1_gives h hh rfl,
      alu1_gives h hh rfl, alu1_gives h hh (zx32_eq _)⟩

/-- Settles O2: four multiplies and four divides; the corner values are those of `quoS_eq` and `rmdS_eq`. -/
theorem multiplyAndDivideResult : Obligations.MultiplyAndDivideResult := by
  intro s sw d a b h hh
  dsimp only [exec]
  exact ⟨aluMulOp_gives h hh rfl, aluMulOp_gives h hh rfl, aluMulOp_gives h hh (highProduct_toNat ..), aluMulOp_gives h hh rfl,
    aluDivOp_gives h hh (quoS_eq ..), aluDivOp_gives h hh rfl, aluDivOp_gives h hh (rmdS_eq ..), aluDivOp_gives h hh rfl⟩
end

section
/-! SUPPORT. Immediates as hint groups widen them (02 R38, 04 R89), and control transfers (04 R91 to R94). -/

open Sys2Proof Sys2Proof.Machine

namespace Sys2Proof.Machine

/-! ### Immediates -/

theorem sintN_toNat {n : Nat} (hn : 0 < n) (x : BitVec n) : sintN n x.toNat = x.toInt := by
  rw [sintN_eq_toInt hn, BitVec.ofNat_toNat, BitVec.setWidth_eq]

/-- What is put above a field counts in units of the field's range. -/
theorem toNat_append_eq {m n : Nat} (x : BitVec m) (y : BitVec n) : (x ++ y).toNat = x.toNat * 2 ^ n + y.toNat := by
  rw [BitVec.toNat_append, ← Nat.shiftLeft_add_eq_or_of_lt y.isLt, Nat.shiftLeft_eq]

section
variable {n : Nat} (h : Hints) (f : BitVec n)

theorem widen_fst : (widen h f.toNat n).1 = h.unsigned f := by
  unfold widen Hints.unsigned
  cases h.imm with
  | none => rfl
  | some i =>
    cases h.imx with
    | none => simp only [toNat_append_eq]
    | some j => simp only [toNat_append_eq, Nat.add_comm 23 n, Nat.add_assoc]

theorem sintN_widen (hn : 0 < n) : sintN (widen h f.toNat n).2 (widen h f.toNat n).1 = h.signed f := by
  rw [widen_fst]
  unfold widen Hints.unsigned Hints.signed
  cases h.imm with
  | none => exact sintN_toNat hn f
  | some i =>
    cases h.imx with
    | none => exact (congrArg (sintN · _) (Nat.add_comm n 23)).trans (sintN_toNat (by omega) (i ++ f))
    | some j => exact (congrArg (sintN · _) (show n + 46 = 23 + (23 + n) by omega)).trans (sintN_toNat (by omega) (j ++ (i ++ f)))

theorem immS_eq (hn : 0 < n) (scale : Int) : immS h f.toNat n scale = BitVec.ofInt 64 (h.signed f * scale) := by
  rw [immS, sintN_widen h f hn]

theorem immS_one (hn : 0 < n) : immS h f.toNat n 1 = BitVec.ofInt 64 (h.signed f) := by
  rw [immS_eq h f hn, mul_one]

theorem immZ_eq : immZ h f.toNat n = BitVec.ofNat 64 (h.unsigned f) := by
  rw [immZ, widen_fst]

end

section
variable {s : State} {sw : Bool} {d a : XReg} {i : Instr} {v : Word}

theorem immOp_gives {f : Hints → Word → Word} (h : s.Clear [.x a] [.x d]) (hh : s.ImmHints) (hv : f (s.ctx s.who).hints ((s.ctx s.who).getX a) = v) :
    immOp i sw d a f s = .next (s.afterWord sw (fun c => c.setX d v)) := hv ▸ immOp_clear i f h hh

/-! ### Control transfers -/

/-- An immediate form that is clear to issue runs its body on its operands. -/
theorem issue_imm {srcs dests : List Dest} (body : List Word → State → Body) (h : s.Clear srcs dests) (hh : s.ImmHints) :
    issue (Form.imm i sw srcs dests) body s
      = .next ((Form.imm i sw srcs dests).finish s s.who [] [] (body (xvals (s.ctx s.who) srcs) s)) := by
  obtain ⟨hmod, hreg, himx⟩ := hh
  exact issue_clear body h (Form.checks_imm rfl hmod hreg himx rfl rfl rfl) rfl

/-- A target that fails its checks traps, and no link is written (01 R15). -/
theorem finish_transfer_trap {f : Form} {link : Option XReg} {target : Word} {s' : State} {t : Trap} (hc : s.checkTarget s.who.core target true = (s', some t)) :
    f.finish s s.who [] [] (transfer s link target) = s'.raise s.who t := by
  simp only [transfer, hc, Form.finish_trap]

/-- A branch to a target that passes its checks goes there. -/
theorem finish_transfer_branch {f : Form} {target : Word} {s' : State} (hl : (s.core s.who.core).leads s.who = false)
    (hc : s.checkTarget s.who.core target true = (s', none)) :
    f.finish s s.who [] [] (transfer s none target) = s'.retire s.who f.sw target := by
  simp only [transfer, hc, Form.finish_jump hl]

/-- A jump to a target that passes its checks writes the link and goes there. -/
theorem finish_transfer_link {f : Form} {target : Word} {s' : State} (hl : (s.core s.who.core).leads s.who = false)
    (hp : (s.core s.who.core).isPort d = false) (hc : s.checkTarget s.who.core target true = (s', none)) :
    f.finish s s.who [] [] (transfer s (some d) target) = (s'.modCtx s.who (fun c => c.setX d (seqNext c.pc))).retire s.who f.sw target := by
  have hsame : s.Same s' := by
    have := State.Same.checkTarget s s.who.core target true
    rwa [hc] at this
  have hp' : (s'.core s.who.core).isPort d = false := by rwa [hsame.core]
  simp only [transfer, hc, Form.finish_jump hl, State.writeX_eq _ hp']
  rfl

/-- Where a jump that is clear to issue goes: to a target that passes its checks, with the link written, and else into the trap of the check that fails. -/
theorem jump_goes {srcs : List Dest} {body : List Word → State → Body} {target : Word} (h : s.Clear srcs [.x d]) (hh : s.ImmHints)
    (hb : body (xvals (s.ctx s.who) srcs) s = transfer s (some d) target) :
    (∀ s', s.checkTarget s.who.core target true = (s', none) → issue (Form.imm i sw srcs [.x d]) body s
        = .next ((s'.modCtx s.who (fun c => c.setX d (seqNext c.pc))).retire s.who sw target))
      ∧ (∀ s' t, s.checkTarget s.who.core target true = (s', some t) → issue (Form.imm i sw srcs [.x d]) body s = .next (s'.raise s.who t)) := by
  rw [issue_imm body h hh, hb]
  exact ⟨fun s' hc => congrArg _ (finish_transfer_link h.noLead (h.noPort d (by simp)) hc), fun s' t hc => congrArg _ (finish_transfer_trap hc)⟩

/-- When a branch is taken (04 R82, R91): its condition compares x[a] with 0, and `any` and `none` stand for odd and even. -/
def brTaken (cond : Cond) (A : Word) : Prop :=
  match cond with
  | .eq => A = 0 | .ne => A ≠ 0 | .lt => A.toInt < 0 | .ge => 0 ≤ A.toInt | .gt => 0 < A.toInt | .le => A.toInt ≤ 0
  | .any => A.getLsbD 0 = true | _ => A.getLsbD 0 = false

theorem brHolds_iff {cond : Cond} (hwf : WellFormed.br cond = true) (A : Word) : brHolds cond A = true ↔ brTaken cond A := by
  cases cond with
  | ltu | geu | gtu | leu => simp [WellFormed.br] at hwf
  | any | none => simp [brHolds, brTaken]
  | eq | ne => simp [brHolds, brTaken, condHolds]
  | lt | gt => simp [brHolds, brTaken, condHolds, BitVec.slt_iff_toInt_lt]
  | ge | le => simp [brHolds, brTaken, condHolds, BitVec.slt_iff_toInt_lt, ← Bool.not_eq_true]

end

end Sys2Proof.Machine

/-- Settles O4: each immediate word is an `immOp` or `lim`, on the field as the hint group widens it. -/
theorem immediateResult : Obligations.ImmediateResult := by
  intro s sw d a imm imm11 imm20 c hh
  dsimp only [exec]
  refine ⟨fun h => ?_, fun h => ?_⟩
  · exact ⟨immOp_gives h hh (congrArg _ (immS_one _ _ (by decide))), immOp_gives h hh (congrArg _ (immZ_eq ..)), immOp_gives h hh (congrArg _ (immZ_eq ..)),
      immOp_gives h hh (congrArg _ (immZ_eq ..)), immOp_gives h hh (by rw [immS_one _ _ (by decide)]; rfl)⟩
  · rw [lim_clear imm20 h hh, immS_one _ _ (by decide)]

/-- Settles O5: a branch whose condition fails only goes on; every other transfer is as the checks of its target answer. -/
theorem controlTransferOutcome : Obligations.ControlTransferOutcome := by
  refine ⟨fun s sw a cond disp hh h hwf => ?_, fun s sw d a imm20 imm hh => ⟨fun h => ?_, fun h => ?_⟩⟩
  · have htaken := brHolds_iff hwf ((s.ctx s.who).getX a)
    have hexec : exec (.br sw cond a disp) s = _ := issue_imm _ h hh
    simp only [xvals_x, xvals_nil, op0, List.headD_cons, immS_eq _ _ (show 0 < 16 by decide)] at hexec
    refine ⟨fun ht => ?_, fun ht s' hc => ?_, fun ht s' t hc => ?_⟩
    · rw [hexec, if_neg (mt htaken.1 ht)]
      exact congrArg _ (Form.finish_done h.noLead)
    · rw [hexec, if_pos (htaken.2 ht), finish_transfer_branch h.noLead hc]
      rfl
    · rw [hexec, if_pos (htaken.2 ht), finish_transfer_trap hc]
  · exact jump_goes h hh (by rw [← immS_eq _ _ (by decide)])
  · exact jump_goes h hh (by rw [← immS_eq _ _ (by decide)]; rfl)
end

section
/-! SUPPORT. Queue ports as operands (04 R86; 06 R116, R137; 14 R297, R299): what a pop and a push change, and when a word between two ports is ready. -/

open Sys2Proof Sys2Proof.Machine

namespace Sys2Proof.Machine

/-! ### The agenda -/

theorem mem_agendaInsert {due : Nat} {i : Instr} {e : Nat × Instr} {l : List (Nat × Instr)} : e ∈ agendaInsert due i l ↔ e = (due, i) ∨ e ∈ l := by
  induction l with
  | nil => simp [agendaInsert]
  | cons x l ih =>
    obtain ⟨d, j⟩ := x
    unfold agendaInsert
    split_ifs
    · simp [ih, or_left_comm]
    · simp

namespace State

theorem mem_post {s : State} {due : Nat} {i : Instr} : (due, i) ∈ (s.post due i).agenda := mem_agendaInsert.2 (.inl rfl)

/-- The difference lies beside the cores, and nothing that is due is lost (`State.Same` says nothing of the agenda). -/
structure Beside (s t : State) : Prop where
  cores : t.cores = s.cores
  cycle : t.cycle = s.cycle
  agenda : ∀ e ∈ s.agenda, e ∈ t.agenda

namespace Beside

theorem refl (s : State) : s.Beside s := ⟨rfl, rfl, fun _ => id⟩
theorem trans {s t u : State} (h : s.Beside t) (k : t.Beside u) : s.Beside u :=
  ⟨k.cores.trans h.cores, k.cycle.trans h.cycle, fun e he => k.agenda e (h.agenda e he)⟩
theorem core {s t : State} (h : s.Beside t) (c : Nat) : t.core c = s.core c := by rw [State.core, h.cores, State.core]
theorem ctx {s t : State} (h : s.Beside t) (w : CtxId) : t.ctx w = s.ctx w := by rw [State.ctx, h.core, State.ctx]

theorem post (s : State) (due : Nat) (i : Instr) : s.Beside (s.post due i) := ⟨rfl, rfl, fun _ he => mem_agendaInsert.2 (.inr he)⟩
theorem drew (s : State) : s.Beside s.drew := ⟨rfl, rfl, fun _ => id⟩
theorem setDie (s : State) (d : Nat) (k : Die) : s.Beside (s.setDie d k) := ⟨rfl, rfl, fun _ => id⟩
theorem modDie (s : State) (d : Nat) (f : Die → Die) : s.Beside (s.modDie d f) := setDie ..

theorem foldl {α : Type} {f : State → α → State} (h : ∀ (s : State) (a : α), s.Beside (f s a)) (s : State) (l : List α) : s.Beside (l.foldl f s) := by
  induction l generalizing s with
  | nil => exact refl s
  | cons a l ih => exact (h s a).trans (ih _)

theorem writeMem (s : State) (key : Nat) (bytes : List Byte) : s.Beside (s.writeMem key bytes) := by
  unfold State.writeMem writeMemAfter
  refine trans ?_ ((foldl (fun _ _ => post ..) _ _).trans (foldl (fun _ _ => post ..) _ _))
  exact ⟨rfl, rfl, fun _ => id⟩

/-! ### Translation (21 R370 to R384) -/

theorem sendRequest (s : State) (home : Nat) (r : PageRequest) : s.Beside (s.sendRequest home r).1 := by
  unfold State.sendRequest
  dsimp only
  split_ifs
  · exact (setDie ..).trans (writeMem ..)
  · exact refl s

theorem requestPage (s : State) (home asker tenant : Nat) (kind : AccessKind) (va : Nat) : s.Beside (s.requestPage home asker tenant kind va) :=
  iteInduction (fun _ => refl s) (fun _ => (sendRequest ..).trans (modDie ..))

theorem logDirty (s : State) (home tenant va : Nat) : s.Beside (s.logDirty home tenant va) :=
  iteInduction (fun _ => iteInduction (fun _ => writeMem ..) (fun _ => (writeMem ..).trans (writeMem ..))) (fun _ => refl s)

theorem setAD (s : State) (home tenant va : Nat) (write : Bool) (leaf : Nat) (e : LookEntry) : s.Beside (s.setAD home tenant va write leaf e) := by
  refine iteInduction (fun _ => refl s) (fun _ => ?_)
  have hlog : s.Beside (if write && !bitAt e.raw 63 then s.logDirty home tenant va else s) := iteInduction (fun _ => logDirty ..) (fun _ => refl s)
  exact (hlog.trans (writeMem ..)).trans (modDie ..)

theorem lookup (s : State) (home asker tenant : Nat) (kind : AccessKind) (va : Nat) : s.Beside (s.lookup home asker tenant kind va).1 := by
  unfold State.lookup
  dsimp only
  repeat' split
  exacts [refl s, setDie .., setDie .., setDie .., refl s, refl s, requestPage .., refl s, setDie ..]

theorem enter (s : State) (home tenant : Nat) (kind : AccessKind) (va : Nat) (e : LookEntry) : s.Beside (s.enter home tenant kind va e).1 := by
  unfold State.enter
  split
  · exact refl s
  · cases e.leaf with
    | none => exact refl s
    | some leaf => exact setAD ..

theorem ruling (s : State) (home asker tenant : Nat) (kind : AccessKind) (va : Nat) : s.Beside (s.ruling home asker tenant kind va).1 := by
  have h := lookup s home asker tenant kind va
  unfold State.ruling
  split <;> rename_i heq <;> rw [heq] at h
  · exact h
  · split_ifs
    · exact (h.trans (modDie ..)).trans (lookup (dropPages _ home tenant va) ..)
    · exact h

theorem translateFrom (s : State) (asker tenant : Nat) (kind : AccessKind) (va : Nat) : s.Beside (s.translateFrom asker tenant kind va).1 := by
  have h := ruling s (homeDie va) asker tenant kind va
  unfold State.translateFrom
  split_ifs
  · exact refl s
  · split <;> rename_i heq <;> rw [heq] at h
    · exact h
    · exact h.trans (enter ..)

theorem countAccess (s : State) (home tenant stack : Nat) (e : LookEntry) : s.Beside (s.countAccess home tenant stack e) :=
  iteInduction (fun _ => refl s) (fun _ => iteInduction (fun _ => ((modDie ..).trans (setDie ..)).trans (drew _)) (fun _ => modDie ..))

theorem resolve (s : State) (core : Nat) (kind : AccessKind) (va : Word) (n : Nat) : s.Beside (s.resolve core kind va n).1 := by
  have h := translateFrom s (dieOf core) (s.tenantOf core) kind va.toNat
  unfold State.resolve
  dsimp only
  split_ifs
  · exact refl s
  · repeat' split
    all_goals exact refl s
  · split <;> rename_i heq <;> rw [heq] at h
    · exact h
    · exact h.trans (countAccess ..)

/-! ### The overflow area (14 R292, R299; 23 R416, R417) -/

theorem ringFault (s : State) (die : Nat) (r : FaultRecord) : s.Beside (s.ringFault die r) :=
  iteInduction (fun _ => setDie ..) (fun _ => (setDie ..).trans (writeMem ..))

theorem logProgramFault (s : State) (core : Nat) (cause : Cause) (va : Nat) : s.Beside (s.logProgramFault core cause va) := by
  unfold State.logProgramFault logFault
  dsimp only
  split
  · exact setDie ..
  · exact (setDie ..).trans (ringFault ..)

theorem foldlFst {α β : Type} {f : State × β → α → State × β} (h : ∀ (acc : State × β) (a : α), acc.1.Beside (f acc a).1) (acc : State × β) (l : List α) :
    acc.1.Beside (l.foldl f acc).1 := by
  induction l generalizing acc with
  | nil => exact refl _
  | cons a l ih => exact (h acc a).trans (ih _)

theorem spillAccess (s : State) (core : Nat) (kind : AccessKind) (lines : List Nat) : s.Beside (s.spillAccess core kind lines).1 := by
  refine foldlFst (fun acc l => ?_) (s, true) lines
  have h := resolve acc.1 core kind (BitVec.ofNat 64 (bits (acc.1.core core).spillOvf.toNat 47 12 * 4096 + 64 * l)) 64
  split_ifs
  · exact refl _
  · dsimp only
    split <;> rename_i heq <;> rw [heq] at h
    · exact h
    · exact h.trans (logProgramFault ..)

theorem refillFifo (s : State) (core : Nat) (q : Port) : s.Beside (s.refillFifo core q) := iteInduction (fun _ => refl s) (fun _ => spillAccess ..)

end Beside

theorem refillFifo_eq {s : State} {core : Nat} {q : Port} (h : q.fifo.length ≤ 8) : s.refillFifo core q = s := if_pos h

/-! ### Entries and credits on their way (14 R297) -/

/-- What one core sends to another arrives no earlier than its delay, and perhaps later, behind what was sent before. -/
theorem postLink_eq (s : State) (src dst due : Nat) (credit : Bool) (i : Instr) : ∃ n, due ≤ n ∧ s.postLink src dst due credit i = s.post n i := by
  unfold postLink postOrdered
  split_ifs
  · exact ⟨due, le_rfl, rfl⟩
  · refine ⟨_, ?_, rfl⟩
    generalize s.agenda = l
    induction l generalizing due with
    | nil => exact le_rfl
    | cons e l ih =>
      rw [List.foldl_cons]
      exact le_trans (by split_ifs <;> omega) (ih _)

theorem le_linkDelay (s : State) (a b : Nat) : Sys2Proof.Machine.linkDelay a b ≤ s.linkDelay a b := Nat.le_add_right ..

/-- What a port sends to its peer, if it has one. -/
structure Sends (s t : State) (paired : Bool) (due : Nat) (i : Instr) : Prop extends s.Beside t where
  mem : t.mem = s.mem
  sent : paired = true → ∃ n, due ≤ n ∧ (n, i) ∈ t.agenda

theorem sends_postLink (s : State) (src dst from_ : Nat) (credit paired : Bool) (i : Instr) :
    s.Sends (if paired then (s.postLink src dst (from_ + s.linkDelay src dst + 1) credit i).drew else s) paired
      (from_ + Sys2Proof.Machine.linkDelay src dst + 1) i := by
  obtain ⟨n, hn, heq⟩ := s.postLink_eq src dst (from_ + s.linkDelay src dst + 1) credit i
  have hd := s.le_linkDelay src dst
  cases paired with
  | false => exact { Beside.refl s with mem := rfl, sent := nofun }
  | true =>
    rw [if_pos rfl, heq]
    exact ⟨(Beside.post ..).trans (.drew _), rfl, fun _ => ⟨n, by omega, mem_post⟩⟩

/-! ### Pops and pushes -/

theorem ctx_setPort (s : State) (core : Nat) (f : Core → Port) (p : Fin 8) (w : CtxId) : (s.modCore core (fun k => k.setPort p (f k))).ctx w = s.ctx w := by
  by_cases hw : w.core = core
  · simp [ctx, hw, Core.setPort]
  · simp [ctx, core_modCore_ne s hw]

/-- A pop takes the oldest entry and returns a credit; where a spilled entry takes its place, that is read from its line (14 R299). -/
structure Pops (s t : State) (n : Nat) (p : Fin 8) (A : Port) : Prop where
  core : t.core n = (s.core n).setPort p { A with fifo := A.fifo.tail }
  ctx : ∀ w, t.ctx w = s.ctx w
  agenda : ∀ e ∈ s.agenda, e ∈ t.agenda
  credit : A.paired = true → ∃ due, s.cycle + Sys2Proof.Machine.linkDelay n A.peerCore + 1 ≤ due ∧ (due, Instr.creditReturn A.peerCore A.peerPort) ∈ t.agenda
  mem : A.fifo.length ≤ 8 → t.mem = s.mem

theorem pops_popPort (s : State) (core : Nat) (p : Fin 8) : s.Pops (s.popPort core p) core p ((s.core core).ports.get p) := by
  unfold popPort
  dsimp only
  set A := (s.core core).ports.get p
  have hb := Beside.refillFifo s core A
  set s1 := (s.refillFifo core A).modCore core (fun k => k.setPort p { A with fifo := A.fifo.tail })
  have hs : s1.Sends (s1.sendCredit core A) A.paired (s1.cycle + Sys2Proof.Machine.linkDelay core A.peerCore + 1) (.creditReturn A.peerCore A.peerPort) :=
    s1.sends_postLink core A.peerCore s1.cycle true A.paired _
  have hcycle : s1.cycle = s.cycle := hb.cycle
  rw [hcycle] at hs
  exact {
    core := by rw [hs.core, core_modCore, hb.core]
    ctx := fun w => by rw [hs.ctx, ctx_setPort, hb.ctx]
    agenda := fun e he => hs.agenda e (hb.agenda e he)
    credit := hs.sent
    mem := fun h => by rw [hs.mem, modCore_mem, refillFifo_eq h] }

/-- A push takes a credit and sends the value to the peer. -/
structure Pushes (s t : State) (n : Nat) (q : Fin 8) (D : Port) (v : Word) : Prop where
  core : t.core n = (s.core n).setPort q { D with credits := D.credits - 1 }
  ctx : ∀ w, t.ctx w = s.ctx w
  cycle : t.cycle = s.cycle
  mem : t.mem = s.mem
  entry : D.paired = true → ∃ due, s.cycle + Sys2Proof.Machine.linkDelay n D.peerCore + 1 ≤ due ∧ (due, Instr.queueEntryArrival D.peerCore D.peerPort v) ∈ t.agenda

end State

@[simp] theorem Core.ports_setPort_same (k : Core) (p : Fin 8) (v : Port) : (k.setPort p v).ports.get p = v := Vector.getElem_set_self _

theorem Core.ports_setPort_ne (k : Core) {p q : Fin 8} (h : q ≠ p) (v : Port) : (k.setPort p v).ports.get q = k.ports.get q :=
  Vector.getElem_set_ne p.isLt q.isLt (fun e => h (Fin.ext e.symm))

theorem Core.isPort_eq {k : Core} {r : XReg} {p : Fin 8} (h : portOf r = some p) : k.isPort r = (k.ports.get p).bound := by
  rw [Core.isPort, h]

theorem State.pushes_writeX {s : State} {w : CtxId} {d : XReg} {q : Fin 8} (hd : portOf d = some q) (hb : ((s.core w.core).ports.get q).bound = true) (v : Word) :
    s.Pushes (s.writeX w d v) w.core q ((s.core w.core).ports.get q) v := by
  set D := (s.core w.core).ports.get q with hD
  have htake : (s.takeCredit w.core q).core w.core = (s.core w.core).setPort q { D with credits := D.credits - 1 } := core_modCore ..
  have hs := (s.takeCredit w.core q).sends_postLink w.core D.peerCore s.cycle false D.paired (.queueEntryArrival D.peerCore D.peerPort v)
  have hport : (s.core w.core).isPort d = true := (Core.isPort_eq hd).trans hb
  have heq : s.writeX w d v = (s.takeCredit w.core q).sendPort w.core q s.cycle v := by simp only [State.writeX, hport, hd, if_true]
  simp only [State.sendPort, htake, Core.ports_setPort_same] at heq
  rw [heq]
  exact {
    core := by rw [hs.core, htake]
    ctx := fun w' => by rw [hs.ctx]; exact s.ctx_setPort w.core _ q w'
    cycle := hs.cycle
    mem := hs.mem
    entry := hs.sent }

/-! ### A word from one port to another (04 R86) -/

section
variable {i : Instr} {sw : Bool} {d a : XReg} {p q : Fin 8} {k : Core} {c : Ctx}
  (ha : portOf a = some p) (hd : portOf d = some q) (hp : (k.ports.get p).bound = true) (hq : (k.ports.get q).bound = true)

include ha hp in
theorem Form.pops_port : (Form.imm i sw [.x a] [.x d]).pops k = [p] := by
  simp [Form.pops, Form.imm, Form.of, Core.isPort_eq ha, hp, ha]

include hd hq in
theorem Form.pushes_port : (Form.imm i sw [.x a] [.x d]).pushes k = [q] := by
  simp [Form.pushes, Form.imm, Form.of, Core.isPort_eq hd, hq, hd]

include ha hp in
theorem Form.operands_port : (Form.imm i sw [.x a] [.x d]).operands k c = [(k.ports.get p).fifo.headD 0] := by
  simp [List.headD_eq_head?_getD, List.head?_eq_getElem?, Form.operands, Form.imm, Form.of, Core.isPort_eq ha, hp, ha]

include ha hd hp hq in
/-- A port awaits no result: its window is no hazard. -/
theorem Form.hazard_port : (Form.imm i sw [.x a] [.x d]).hazard k c = none := by
  simp [Form.hazard, Form.imm, Form.of, Core.isPort_eq ha, Core.isPort_eq hd, hp, hq]

include ha hd hp hq in
theorem Form.ready_port (ho : ∀ o ∈ c.outstanding, o.by_ ≠ .patch) :
    (Form.imm i sw [.x a] [.x d]).ready k c = true ↔ (k.ports.get p).fifo ≠ [] ∧ 0 < (k.ports.get q).credits := by
  have hpatch : (c.outstanding.any fun o => decide (o.dest = .x a) && decide (o.by_ = .patch)) = false := by
    simp only [List.any_eq_false, Bool.and_eq_true, decide_eq_true_eq, not_and]
    exact fun o hmem _ => ho o hmem
  simp only [Form.ready, Form.pops_port ha hp, Form.pushes_port hd hq]
  simp [Form.imm, Form.of, hpatch, Nat.one_le_iff_ne_zero, List.length_eq_zero_iff]

end

section
variable {s : State} {i : Instr} {sw : Bool} {d a : XReg} {p q : Fin 8} {f : Hints → Word → Word} (hh : s.NoHints) (hl : (s.core s.who.core).leads s.who = false)
  (ha : portOf a = some p) (hd : portOf d = some q) (hp : ((s.core s.who.core).ports.get p).bound = true) (hq : ((s.core s.who.core).ports.get q).bound = true)
  (ho : ∀ o ∈ (s.ctx s.who).outstanding, o.by_ ≠ .patch)
include ha hd hp hq ho

/-- With nothing to pop, or no credit for the push, the word waits; its group's watchdog may hear of it (14 R298). -/
theorem immOp_port_waits (hw : ((s.core s.who.core).ports.get p).fifo = [] ∨ ((s.core s.who.core).ports.get q).credits = 0) :
    ∃ t, immOp i sw d a f s = .next t ∧ t.stalled = true ∧ t.cores = s.cores ∧ t.mem = s.mem ∧ t.agenda = s.agenda := by
  have hr : (Form.imm i sw [.x a] [.x d]).ready (s.core s.who.core) (s.ctx s.who) = false := by
    rw [Bool.eq_false_iff, ne_eq, Form.ready_port ha hd hp hq ho]
    rintro ⟨hfifo, hcredits⟩
    rcases hw with hw | hw
    · exact hfifo hw
    · omega
  refine ⟨s.notReady (Form.imm i sw [.x a] [.x d]), by simp [immOp, issue, hr], rfl, ?_, ?_, ?_⟩ <;>
    · simp only [State.notReady]
      split_ifs <;> rfl

include hh hl

/-- Else it pushes its result, retires and pops its operand. -/
theorem immOp_port_issues {v : Word} {rest : List Word} (hfifo : ((s.core s.who.core).ports.get p).fifo = v :: rest)
    (hcredits : 0 < ((s.core s.who.core).ports.get q).credits) :
    ∃ u, s.Pushes u s.who.core q ((s.core s.who.core).ports.get q) (f (s.ctx s.who).hints v)
      ∧ immOp i sw d a f s = .next ((u.retire s.who sw (seqNext (u.ctx s.who).pc)).popPort s.who.core p) := by
  have hr := (Form.ready_port (i := i) (sw := sw) ha hd hp hq ho).2 ⟨by simp [hfifo], hcredits⟩
  obtain ⟨hmod, hreg, himx⟩ := hh.immHints
  have hc : (Form.imm i sw [.x a] [.x d]).checks (s.core s.who.core) (s.ctx s.who) = none := Form.checks_imm rfl hmod hreg himx rfl rfl rfl
  refine ⟨_, State.pushes_writeX hd hq _, ?_⟩
  simp only [immOp, issue, hr, State.gangFull_eq hl, hc, Form.run, Body.waits, Form.hazard_port ha hd hp hq, Form.pops_port ha hp, Form.operands_port ha hp]
  simp [Form.finish, Form.close, Form.restore, State.forward_eq hl, hfifo, op0, Form.imm, Form.of]

end

/-- An immediate with no hint word pending is its field alone. -/
theorem immS_noHints {s : State} (hh : s.NoHints) {n : Nat} (hn : 0 < n) (imm : BitVec n) : immS (s.ctx s.who).hints imm.toNat n 1 = imm.signExtend 64 := by
  simp only [State.NoHints, Hints.pending, Bool.or_eq_false_iff, Option.isSome_eq_false_iff, Option.isNone_iff_eq_none] at hh
  obtain ⟨⟨⟨himm, -⟩, -⟩, -⟩ := hh
  rw [immS_one _ _ hn, Hints.signed, himm]
  rfl

theorem exec_addi (s : State) (sw : Bool) (d a : XReg) (imm : BitVec 15) :
    exec (.addi sw d a imm) s = immOp (.addi sw d a imm) sw d a (fun h A => A + immS h imm.toNat 15 1) s := rfl

end Sys2Proof.Machine

/-- Settles O17: a word between two ports waits, or pushes, retires and pops; what the push sends stays due while the pop refills the FIFO. -/
theorem portsAsOperands : Obligations.PortsAsOperands := by
  intro s sw imm d a p q hh hl ha hd hpq core A D word ho hA hD
  simp only [word, exec_addi]
  refine ⟨immOp_port_waits ha hd hA hD ho, fun v rest hfifo hcredits => ?_⟩
  obtain ⟨u, hpush, hexec⟩ := immOp_port_issues (i := .addi sw d a imm) (sw := sw) (f := fun h A => A + immS h imm.toNat 15 1) hh hl ha hd hA hD ho hfifo hcredits
  set r := u.retire s.who sw (seqNext (u.ctx s.who).pc) with hr
  have hports : (r.core core).ports = (u.core core).ports := by rw [hr, State.retire, State.core_modCtx]
  have hAr : (r.core core).ports.get p = A := by rw [hports, hpush.core, Core.ports_setPort_ne _ hpq]
  have hpop := r.pops_popPort core p
  rw [hAr] at hpop
  refine ⟨_, hexec, ?_, ?_, fun hp => ?_, fun hp => ?_, ?_, fun h8 => ?_⟩
  · rw [hpop.core, Core.ports_setPort_same, hfifo]
    rfl
  · rw [hpop.core, Core.ports_setPort_ne _ hpq.symm, hports, hpush.core, Core.ports_setPort_same]
  · obtain ⟨due, hdue, hmem⟩ := hpush.entry hp
    rw [immS_noHints hh (by decide)] at hmem
    exact ⟨due, hdue, hpop.agenda _ hmem⟩
  · obtain ⟨due, hdue, hmem⟩ := hpop.credit hp
    rw [hr, State.retire, State.modCtx_cycle, hpush.cycle] at hdue
    exact ⟨due, hdue, hmem⟩
  · rw [hpop.ctx, hr, State.retire, State.ctx_modCtx, hpush.ctx, hpush.cycle]
  · rw [hpop.mem h8, hr, State.retire, State.modCtx_mem, hpush.mem]
end

section
/-! SUPPORT. What updates of other parts leave of a cluster and of a core's slice (07 R168), and the issue of the words of the engines (08 R193). -/

open Sys2Proof Sys2Proof.Machine

namespace Sys2Proof.Machine

@[simp] theorem op0_cons (x : Word) (l : List Word) : op0 (x :: l) = x := rfl
@[simp] theorem op1_cons (x y : Word) (l : List Word) : op1 (x :: y :: l) = y := rfl

namespace State

variable (s : State)

/-! ### Clusters beside other parts -/

@[simp] theorem cluster_modCore (c n : Nat) (f : Core → Core) : (s.modCore c f).cluster n = s.cluster n := rfl
@[simp] theorem cluster_modCtx (w : CtxId) (n : Nat) (f : Ctx → Ctx) : (s.modCtx w f).cluster n = s.cluster n := rfl
@[simp] theorem cluster_post (due n : Nat) (i : Instr) : (s.post due i).cluster n = s.cluster n := rfl
@[simp] theorem cluster_drew (n : Nat) : s.drew.cluster n = s.cluster n := rfl

/-! ### Slices -/

@[simp] theorem slice_modSlice (c : Nat) (f : Slice → Slice) : ((s.modSlice c f).core c).slice = f (s.core c).slice := by
  rw [modSlice, core_modCore]

@[simp] theorem slice_modCtx (w : CtxId) (f : Ctx → Ctx) (n : Nat) : ((s.modCtx w f).core n).slice = (s.core n).slice := by
  by_cases h : n = w.core
  · rw [h, core_modCtx]
  · rw [core_modCtx_ne s h]

@[simp] theorem slice_afterWord (sw : Bool) (f : Ctx → Ctx) (n : Nat) : ((s.afterWord sw f).core n).slice = (s.core n).slice := slice_modCtx ..

@[simp] theorem role_afterWord (sw : Bool) : ((s.afterWord sw id).ctx s.who).role = (s.ctx s.who).role := by
  rw [afterWord, after, ctx_modCtx]
  rfl

end State

/-! ### Issue -/

section
variable {s t : State}

/-- A word whose form asks no more than that it stand outside ordered tasks. -/
theorem issue_outsideTasks {f : Form} (body : List Word → State → Body) (h : s.Clear f.srcs f.dests) (hh : s.NoHints) (hm : f.monitor = false)
    (ht : f.inTask = true ∨ s.NoTask) (hf : f.trap = none) (hb : f.held = false) :
    issue f body s = .next (f.finish s s.who [] [] (body (xvals (s.ctx s.who) f.srcs) s)) :=
  issue_clear body h (Form.checks_eq_none hh (by simp [hm]) (fun hi => ht.resolve_left (by simp [hi])) hf) hb

/-- A word parks in the state that its reads have left. -/
theorem Form.finish_parkedIn {f : Form} (h : s.Same t) (hl : (s.core s.who.core).leads s.who = false) (p : Park) :
    f.finish s s.who [] [] (.park t p) = t.parkedIn p := by
  rw [Form.finish_park hl, State.parkedIn, h.who]

end

end Sys2Proof.Machine
end

section
/-! SUPPORT. The words of the event crossbar (07 R172, R174). -/

open Sys2Proof Sys2Proof.Machine

namespace Sys2Proof.Machine

section
variable {s : State} {sw : Bool} {i : Instr} {srcs dests : List Dest}

/-- An xbar word outside ordered tasks (08 R193) runs its body. -/
theorem issue_xbar (body : List Word → State → Body) (h : s.Clear srcs dests) (hh : s.NoHints) (ht : s.NoTask) :
    issue (Form.xbar i sw srcs dests) body s = .next ((Form.xbar i sw srcs dests).finish s s.who [] [] (body (xvals (s.ctx s.who) srcs) s)) :=
  issue_outsideTasks body h hh rfl (.inr ht) rfl rfl

/-- A word that only changes a cluster. -/
theorem Form.finish_modCluster {f : Form} (h : (s.core s.who.core).leads s.who = false) (cl : Nat) (g : Cluster → Cluster) :
    f.finish s s.who [] [] (.done (s.modCluster cl g)) = (s.modCluster cl g).afterWord f.sw id :=
  Form.finish_done h

end

/-- The bits of a word from `n` on are zero exactly where its value lies below 2^n. -/
theorem bits_high_eq_zero_iff (y : Word) {n : Nat} (hn : n ≤ 63) : bits y.toNat 63 n = 0 ↔ y.toNat < 2 ^ n := by
  have hy : y.toNat < 2 ^ (63 + 1 - n) * 2 ^ n := by
    rw [← pow_add, show 63 + 1 - n + n = 64 by omega]
    exact y.isLt
  rw [bits, Nat.mod_eq_of_lt (Nat.div_lt_of_lt_mul (by rwa [Nat.mul_comm])), Nat.div_eq_zero_iff]
  simp

theorem ofNat_bits_low (y n : Nat) : BitVec.ofNat (n + 1) (bits y n 0) = BitVec.ofNat (n + 1) y := BitVec.eq_of_toNat_eq (by simp [bits])

/-- What `xbar.cnt` writes to a counter (07 R174). -/
def counterOf (y : Nat) : XCounter :=
  { src := BitVec.ofNat 16 y, thresh := y / 2 ^ 16 % 2 ^ 16, auto := y / 2 ^ 32 % 2 == 1, count := 0, fired := decide (y / 2 ^ 16 % 2 ^ 16 = 0) }

theorem XCounter.word_eq (x : XCounter) : x.word = BitVec.ofNat 64 ((if x.thresh ≤ x.count then 2 ^ 49 else 0) + (if x.auto then 2 ^ 48 else 0)
    + x.src.toNat * 2 ^ 32 + x.thresh * 2 ^ 16 + x.count) := by
  simp [XCounter.word, bitIf, XCounter.fires]

/-- What `xbar.clr` leaves of the counters (07 R174). -/
def Cluster.clearCounts (k : Cluster) (mask : Word) : Cluster :=
  { k with counters := Vector.ofFn (fun (c : Fin 16) =>
      let x := k.counters.get c
      if mask.getLsbD c.val then { x with count := 0, fired := decide (x.thresh = 0) } else x) }

theorem Cluster.clearCounts_keeps (k : Cluster) (mask : Word) : (k.clearCounts mask).terms = k.terms ∧ (k.clearCounts mask).pulses = k.pulses
    ∧ (k.clearCounts mask).jobs = k.jobs ∧ (k.clearCounts mask).sets = k.sets ∧ (k.clearCounts mask).vars = k.vars := by
  simp only [Cluster.clearCounts, and_self]

theorem Cluster.counters_clearCounts (k : Cluster) (mask : Word) (c : Fin 16) : (k.clearCounts mask).counters.get c =
    if mask.getLsbD c.val then { k.counters.get c with count := 0, fired := decide ((k.counters.get c).thresh = 0) } else k.counters.get c := by
  simp [Cluster.clearCounts, Vector.get_eq_getElem]

section
variable {s : State} {sw : Bool} {a b d : XReg} (hh : s.NoHints) (ht : s.NoTask)
include hh ht

theorem exec_xbarCnt (h : s.Clear [.x a, .x b] []) : exec (.xbarCnt sw a b) s =
    if ((s.ctx s.who).getX b).toNat < 2 ^ 33 then
      .next ((s.modCluster (clusterOf s.who.core) (fun k => k.setCounter (num16 ((s.ctx s.who).getX a)) (counterOf ((s.ctx s.who).getX b).toNat))).afterWord sw id)
    else .next (s.raise s.who { cause := .illegal, val := (s.ctx s.who).getX b }) := by
  refine (issue_xbar _ h hh ht).trans ?_
  simp only [xvals_x, xvals_nil, op0_cons, op1_cons, ne_eq, bits_high_eq_zero_iff _ (show 33 ≤ 63 by decide), ite_not]
  split_ifs
  · rw [Form.finish_modCluster h.noLead]
    simp only [ofNat_bits_low]
    simp [counterOf, bits, bitAt, XCounter.fires, Form.xbar, Form.of]
  · rw [Form.finish_trap]

theorem exec_xbarTerm (h : s.Clear [.x a, .x b] []) : exec (.xbarTerm sw a b) s =
    if ((s.ctx s.who).getX b).toNat < 2 ^ 16 then
      .next ((s.modCluster (clusterOf s.who.core) (fun k => { k with
        terms := k.terms.set (num16 ((s.ctx s.who).getX a)).val (BitVec.ofNat 16 ((s.ctx s.who).getX b).toNat) (num16 ((s.ctx s.who).getX a)).isLt })).afterWord sw id)
    else .next (s.raise s.who { cause := .illegal, val := (s.ctx s.who).getX b }) := by
  refine (issue_xbar _ h hh ht).trans ?_
  simp only [xvals_x, xvals_nil, op0_cons, op1_cons, ne_eq, bits_high_eq_zero_iff _ (show 16 ≤ 63 by decide), ite_not]
  split_ifs
  · rw [Form.finish_modCluster h.noLead]
    rfl
  · rw [Form.finish_trap]

theorem exec_xbarRdc (h : s.Clear [.x a] [.x d]) : exec (.xbarRdc sw d a) s =
    .next (s.afterScalar sw 2 .unit d ((s.cluster (clusterOf s.who.core)).counters.get (num16 ((s.ctx s.who).getX a))).word) := by
  refine (issue_xbar _ h hh ht).trans ?_
  rw [Form.finish_done h.noLead, State.retire_laterX (h.noPort d (by simp))]
  rfl

theorem exec_xbarPulse (h : s.Clear [.x a] []) : exec (.xbarPulse sw a) s =
    .next ((s.modCluster (clusterOf s.who.core) (fun k => { k with pulses := k.pulses ||| ((s.ctx s.who).getX a).setWidth 16 })).afterWord sw id) := by
  refine (issue_xbar _ h hh ht).trans ?_
  rw [Form.finish_modCluster h.noLead]
  rfl

theorem exec_xbarClr (h : s.Clear [.x a] []) : exec (.xbarClr sw a) s =
    .next ((s.modCluster (clusterOf s.who.core) (fun k => k.clearCounts ((s.ctx s.who).getX a))).afterWord sw id) := by
  refine (issue_xbar _ h hh ht).trans ?_
  rw [Form.finish_modCluster h.noLead]
  rfl

end

end Sys2Proof.Machine

/-- Settles O34, word by word. -/
theorem crossbarWords : Obligations.CrossbarWords := by
  intro s sw d a b hh ht c n y cl k changes
  refine ⟨fun h => ⟨fun hy => ?_, fun hy => ?_, fun hy => ?_, fun hy => ?_⟩, fun h => ?_, fun h => ⟨?_, ?_⟩⟩
  · exact (exec_xbarCnt hh ht h).trans (if_pos hy)
  · exact (exec_xbarCnt hh ht h).trans (if_neg (Nat.not_lt.2 hy))
  · exact (exec_xbarTerm hh ht h).trans (if_pos hy)
  · exact (exec_xbarTerm hh ht h).trans (if_neg (Nat.not_lt.2 hy))
  · exact (exec_xbarRdc hh ht h).trans (by rw [XCounter.word_eq]; rfl)
  · exact exec_xbarPulse hh ht h
  · exact ⟨fun k => k.clearCounts (c.getX a), exec_xbarClr hh ht h, k.counters_clearCounts _, k.clearCounts_keeps _⟩
end

section
/-! SUPPORT. The words of the job queue and of the matrix engine (07 R157, R160, R164, R169, R171), and the reading of a block by a parked word. -/

open Sys2Proof Sys2Proof.Machine

namespace Sys2Proof.Machine

/-! ### Bits of the arrivals -/

theorem getLsbD_bitSet (b : BitVec 8) (i p : Fin 8) : (bitSet b i true).getLsbD p.val = (b.getLsbD p.val || decide (p = i)) := by
  have hp := p.isLt
  simp only [bitSet, if_true, BitVec.getLsbD_or, BitVec.getLsbD_shiftLeft, BitVec.getLsbD_one, hp, decide_true, Bool.true_and, Fin.ext_iff]
  congr 1
  grind

theorem bitSet_eq_allOnes {b : BitVec 8} {i : Fin 8} (h : ∀ p : Fin 8, b.getLsbD p.val = true ∨ p = i) : bitSet b i true = BitVec.allOnes 8 := by
  refine BitVec.eq_of_getLsbD_eq fun p hp => ?_
  rw [getLsbD_bitSet b i ⟨p, hp⟩, BitVec.getLsbD_allOnes, decide_eq_true hp, Bool.or_eq_true, decide_eq_true_eq]
  exact h ⟨p, hp⟩

theorem posOf_lt (core : Nat) : posOf core < 8 := by unfold posOf; omega

/-! ### State operations -/

section
variable {s t : State}

theorem State.reserveX_eq {w : CtxId} {d : XReg} (h : (s.core w.core).isPort d = false) : s.reserveX w d = s := by
  simp [State.reserveX, h]

theorem State.Same.readOwn (s : State) (w : CtxId) (va : Word) (n : Nat) : s.Same (s.readOwn w va n).1 := by
  have h := State.Same.resolve s w.core .read va n
  unfold State.readOwn
  split <;> rename_i heq <;> rw [heq] at h
  · exact h
  · simp only [Bool.false_eq_true, if_false]
    split
    · exact h
    · split <;> exact h

theorem State.gangArrive_cycle (core : Nat) (op : Option MatrixOp) (due : Nat) : (s.gangArrive core op due).cycle = s.cycle := by
  unfold State.gangArrive
  exact iteInduction (motive := fun t : State => t.cycle = s.cycle) (fun _ => rfl) (fun _ => rfl)

theorem State.gangArrive_arrivals (core : Nat) (op : Option MatrixOp) (due : Nat) : ((s.gangArrive core op due).cluster (clusterOf core)).gangArrivals
    = bitSet (s.cluster (clusterOf core)).gangArrivals (Fin.ofNat 8 (posOf core)) true := by
  unfold State.gangArrive
  dsimp only
  split_ifs
  · rw [State.cluster_post, State.cluster_modCore, State.cluster_setCluster]
  · rw [State.cluster_modCore, State.cluster_setCluster]

/-- The eighth arrival has the wired barrier consume them all. -/
theorem State.gangArrive_last {core : Nat} (op : Option MatrixOp) (due : Nat)
    (h : bitSet (s.cluster (clusterOf core)).gangArrivals (Fin.ofNat 8 (posOf core)) true = BitVec.allOnes 8) :
    (due, Instr.gangBarrierConsume (clusterOf core)) ∈ (s.gangArrive core op due).agenda := by
  unfold State.gangArrive
  simp only [h, if_true]
  exact State.mem_post

end

/-! ### The reading of a block (07 R171) -/

section
variable {s t : State} {w : CtxId} {va x : Word} {n from_ lat : Nat} {got : List Word} {acc : Access} (hn : got.length < n)
  (hr : (s.resolve w.core .read (va + BitVec.ofNat 64 (8 * got.length)) 8).2 = .ok acc) (hp : acc.port w.core = none)
include hn hr hp

theorem State.readCard_early (h : s.cycle < from_ + got.length) : s.readCard w va n from_ got = (s, .ok got) := by
  simp [State.readCard, Nat.not_le.2 hn, hr, hp, h]

theorem State.readCard_ok (h : from_ + got.length ≤ s.cycle) (hv : s.readScalar w (va + BitVec.ofNat 64 (8 * got.length)) .d false = (t, .ok (acc, x, lat))) :
    s.readCard w va n from_ got = (t, .ok (got ++ [x])) := by
  simp [State.readCard, Nat.not_le.2 hn, hr, hp, Nat.not_lt.2 h, hv]

theorem State.readCard_error {e : Cause} (h : from_ + got.length ≤ s.cycle) (hv : s.readScalar w (va + BitVec.ofNat 64 (8 * got.length)) .d false = (t, .error e)) :
    s.readCard w va n from_ got = (t, .error { cause := e, val := va }) := by
  simp [State.readCard, Nat.not_le.2 hn, hr, hp, Nat.not_lt.2 h, hv]

end

/-! ### Words that park -/

section
variable {s t : State} {sw : Bool} {a d : XReg} (hh : s.NoHints) (h : s.Clear [.x a] [.x d])
include hh h

theorem exec_jobSub_parks (ht : s.NoTask) (hal : ((s.ctx s.who).getX a).toNat % 32 = 0) (hown : ((s.ctx s.who).getX a).toNat + 32 ≤ 0x18000)
    (hr : s.readOwn s.who ((s.ctx s.who).getX a) 32 = (t, none)) :
    exec (.jobSub sw d a) s = .next (t.parkedIn (.jobSub ((s.ctx s.who).getX a) (s.cycle + 2) [] d sw)) := by
  have hs : s.Same t := by simpa only [hr] using State.Same.readOwn s s.who ((s.ctx s.who).getX a) 32
  have hport : (t.core t.who.core).isPort d = false := by rw [State.core, hs.cores, hs.who]; exact h.noPort d (by simp)
  refine (issue_outsideTasks (f := { Form.of (.jobSub sw d a) sw [.x a] [.x d] with inTask := false }) _ h hh rfl (.inr ht) rfl rfl).trans ?_
  simp only [Form.of, xvals_x, xvals_nil, op0_cons, cardBody, hal, ne_eq, not_true_eq_false, if_false, inOwn, hown, decide_true, Bool.not_true, Bool.false_eq_true,
    hr, State.reserveX_eq hport, hs.cycle, Form.finish_parkedIn hs h.noLead]

theorem exec_jobPoll : exec (.jobPoll sw d a) s =
    .next (s.afterScalar sw 2 .unit d ((s.cluster (clusterOf s.who.core)).statusOf (((s.ctx s.who).getX a).setWidth 16)).2) := by
  refine (issue_outsideTasks (f := Form.of (.jobPoll sw d a) sw [.x a] [.x d]) _ h hh rfl (.inl rfl) rfl rfl).trans ?_
  rw [Form.finish_done h.noLead, State.retire_laterX (h.noPort d (by simp))]
  rfl

theorem exec_jobWait : exec (.jobWait sw d a) s =
    if ((s.cluster (clusterOf s.who.core)).statusOf (((s.ctx s.who).getX a).setWidth 16)).1 then
      .next (s.afterScalar sw 2 .unit d ((s.cluster (clusterOf s.who.core)).statusOf (((s.ctx s.who).getX a).setWidth 16)).2)
    else .next (s.parkedIn (.jobWait (((s.ctx s.who).getX a).setWidth 16) d sw)) := by
  refine (issue_outsideTasks (f := Form.of (.jobWait sw d a) sw [.x a] [.x d]) _ h hh rfl (.inl rfl) rfl rfl).trans ?_
  have hport : (s.core s.who.core).isPort d = false := h.noPort d (by simp)
  simp only [Form.of, xvals_x, xvals_nil, op0_cons, State.reserveX_eq hport]
  split_ifs
  · rw [Form.finish_done h.noLead, State.retire_laterX hport]
  · rw [Form.finish_parkedIn (.refl s) h.noLead]

variable (ht : s.NoTask) (hg : s.gangHeld s.who.core = false)
include ht hg

theorem exec_mxGang_reads (hp : posOf s.who.core = 0) (hal : ((s.ctx s.who).getX a).toNat % 64 = 0)
    (hlo : inClusterWindow s.who.core ((s.ctx s.who).getX a).toNat = true) (hhi : inClusterWindow s.who.core (((s.ctx s.who).getX a).toNat + 71) = true)
    (hr : s.readOwn s.who ((s.ctx s.who).getX a) 72 = (t, none)) :
    exec (.mxGang sw d a) s = .next (t.parkedIn (.mxRead ((s.ctx s.who).getX a)
      (s.cycle + t.windowLat s.who.core ((s.ctx s.who).getX a).toNat + 1) [] d sw)) := by
  have hs : s.Same t := by simpa only [hr] using State.Same.readOwn s s.who ((s.ctx s.who).getX a) 72
  have hport : (t.core s.who.core).isPort d = false := by rw [State.core, hs.cores]; exact h.noPort d (by simp)
  refine (issue_outsideTasks (f := { Form.of (.mxGang sw d a) sw [.x a] [.x d] with inTask := false, held := s.gangHeld s.who.core })
    _ h hh rfl (.inr ht) rfl hg).trans ?_
  simp only [Form.of, xvals_x, xvals_nil, op0_cons, hp, hal, hlo, hhi, hr, ne_eq, not_true_eq_false, if_false, Bool.not_true, Bool.or_self, Bool.false_eq_true,
    State.reserveX_eq hport, hs.cycle, Form.finish_parkedIn hs h.noLead]

theorem exec_mxGang_arrives (hp : posOf s.who.core ≠ 0) : exec (.mxGang sw d a) s =
    .next ((s.gangArrive s.who.core none (s.cycle + 1)).modCtx s.who (fun c => { c with park := .mxGang d false sw, parkedAt := s.cycle })) := by
  refine (issue_outsideTasks (f := { Form.of (.mxGang sw d a) sw [.x a] [.x d] with inTask := false, held := s.gangHeld s.who.core })
    _ h hh rfl (.inr ht) rfl hg).trans ?_
  simp only [if_pos hp, State.reserveX_eq (h.noPort d (by simp)), Form.finish_park h.noLead, State.gangArrive_cycle]

end

/-! ### The row of a drain-row helper (07 R164) -/

/-- The row that leaves the helper, due once its write's latency is over. -/
def rowLeaving (s : State) (row : Nat) (job : BitVec 16) (addr outf : Nat) : DrainRow :=
  { row := row, job := job, addr := addr, outf := outf, vals := rowOfRegs (s.ctx s.who), age := s.cycle, held := false, handler := true
    due := some (s.cycle + s.rowLat (s.ctx s.who).origin addr + 1), paged := false }

/-- The row of `s.who` is on its way from its core's drain path to C, and its buffer is free. -/
def State.rowHanded (s : State) (row : Nat) (job : BitVec 16) (addr outf : Nat) : State :=
  let home := (s.ctx s.who).origin
  ((s.modSlice home (fun sl => { sl.freeRow row job with buffers := (sl.freeRow row job).buffers ++ [rowLeaving s row job addr outf] })).modCtx s.who
    (fun c => { c with role := .drainRow row job addr outf true })).post (s.cycle + s.rowLat home addr + 1) (.drainPathWrite (clusterOf home) (Fin.ofNat 8 (posOf home)))

section
variable {s : State} {sw : Bool} (hh : s.NoHints) (h : s.Clear [.v 0, .v 1, .v 2, .v 3] [])
include hh h

theorem exec_mxRowout_elsewhere (hr : ∀ row job addr outf, (s.ctx s.who).role ≠ .drainRow row job addr outf false) :
    exec (.mxRowout sw) s = .next (s.raise s.who { cause := .illegal, val := wordOf (.mxRowout sw) }) := by
  refine (issue_outsideTasks (f := Form.of (.mxRowout sw) sw [.v 0, .v 1, .v 2, .v 3] []) _ h hh rfl (.inl rfl) rfl rfl).trans ?_
  dsimp only
  split
  · exact absurd ‹_› (hr _ _ _ _)
  · rw [Form.finish_trap]

theorem exec_mxRowout_hands {row addr outf : Nat} {job : BitVec 16} (hr : (s.ctx s.who).role = .drainRow row job addr outf false) :
    exec (.mxRowout sw) s = .next ((s.rowHanded row job addr outf).afterWord sw id) := by
  refine (issue_outsideTasks (f := Form.of (.mxRowout sw) sw [.v 0, .v 1, .v 2, .v 3] []) _ h hh rfl (.inl rfl) rfl rfl).trans ?_
  simp only [hr, Form.finish_done h.noLead]
  rfl

end

section
variable (s : State) (row : Nat) (job : BitVec 16) (addr outf : Nat)

theorem State.rowHanded_role : ((s.rowHanded row job addr outf).ctx s.who).role = .drainRow row job addr outf true := by
  rw [State.rowHanded, State.ctx_post, State.ctx_modCtx]

theorem State.rowHanded_buffers : rowLeaving s row job addr outf ∈ ((s.rowHanded row job addr outf).core (s.ctx s.who).origin).slice.buffers := by
  rw [State.rowHanded, State.core_post, State.slice_modCtx, State.slice_modSlice]
  exact List.mem_append_right _ (List.mem_singleton_self _)

end

end Sys2Proof.Machine

/-- Settles O33: each word by its lemma; a row that is handed over stands in its drain path. -/
theorem engineWords : Obligations.EngineWords := by
  intro s t sw d a hh w c va k status
  refine ⟨fun h => ⟨?_, exec_jobPoll hh h, fun hst => ?_, fun hst => ?_, fun ht hg => ⟨?_, fun hp => ?_⟩⟩, fun h => ⟨fun row job addr outf hr => ?_, ?_⟩, ?_⟩
  · exact exec_jobSub_parks hh h
  · exact (exec_jobWait hh h).trans (if_pos hst)
  · exact (exec_jobWait hh h).trans (if_neg (ne_true_of_eq_false hst))
  · exact exec_mxGang_reads hh h ht hg
  · have harr (p : Fin 8) : (p.val = posOf w.core) ↔ p = Fin.ofNat 8 (posOf w.core) := by
      rw [Fin.ext_iff, Fin.val_ofNat, Nat.mod_eq_of_lt (posOf_lt w.core)]
    refine ⟨_, exec_mxGang_arrives hh h ht hg hp, congrArg Ctx.park (State.ctx_modCtx ..), fun p => ?_, fun hall => ?_⟩
    · rw [State.cluster_modCtx, State.gangArrive_arrivals, getLsbD_bitSet]
      simp only [harr]
      rfl
    · rw [State.modCtx_agenda]
      exact State.gangArrive_last none _ (bitSet_eq_allOnes fun p => (hall p).imp_right (harr p).1)
  · refine ⟨_, s.rowLat c.origin addr, exec_mxRowout_hands hh h hr, ?_, ⟨rowLeaving s row job addr outf, ?_, rfl, rfl, rfl, rfl, rfl, rfl⟩, ?_⟩
    · exact ((s.rowHanded row job addr outf).role_afterWord sw).trans (s.rowHanded_role row job addr outf)
    · rw [State.slice_afterWord]
      exact s.rowHanded_buffers row job addr outf
    · exact State.mem_post
  · exact exec_mxRowout_elsewhere hh h
  · intro v p n from_ lat got x acc hn at_ hr hp
    exact ⟨State.readCard_early hn hr hp, State.readCard_ok hn hr hp, fun e => State.readCard_error hn hr hp⟩
end

section
/-! SUPPORT. What a translation looks at (21 R369 to R385): memory, the dies, the core cycle and the counter of free values, and of the cores no more than
their launches, protection regions and carve-outs. -/

open Sys2Proof Sys2Proof.Machine

namespace Sys2Proof.Machine

namespace State

theorem Same.tenantOf {s t : State} (h : s.Same t) (core : Nat) : t.tenantOf core = s.tenantOf core := by
  simp only [State.tenantOf, State.launchOf, State.launch, State.core, h.launches, h.cores]

/-- The parts of two states that a translation looks at are the same. -/
structure SamePages (s t : State) : Prop where
  cycle : t.cycle = s.cycle
  free : t.free = s.free
  mem : t.mem = s.mem
  dies : t.dies = s.dies

/-- Two answers are the same, in states with the same pages. -/
def SameAnswer {α : Type} (p q : State × α) : Prop := p.1.SamePages q.1 ∧ q.2 = p.2

theorem SameAnswer.ite {α : Type} {c : Prop} [Decidable c] {p q p' q' : State × α} (h : SameAnswer p q) (h' : SameAnswer p' q') :
    SameAnswer (if c then p else p') (if c then q else q') := by
  split_ifs
  · exact h
  · exact h'

namespace SamePages

variable {s t : State}

theorem refl (s : State) : s.SamePages s := ⟨rfl, rfl, rfl, rfl⟩

theorem trans {u : State} (h : s.SamePages t) (k : t.SamePages u) : s.SamePages u :=
  ⟨k.cycle.trans h.cycle, k.free.trans h.free, k.mem.trans h.mem, k.dies.trans h.dies⟩

theorem symm (h : s.SamePages t) : t.SamePages s := ⟨h.cycle.symm, h.free.symm, h.mem.symm, h.dies.symm⟩

theorem post (s : State) (due : Nat) (i : Instr) : s.SamePages (s.post due i) := ⟨rfl, rfl, rfl, rfl⟩

/-- What comes into the agenda is not looked at. -/
theorem posts {α : Type} {f : State → α → State} (hf : ∀ (s : State) a, s.SamePages (f s a)) (s : State) (l : List α) : s.SamePages (l.foldl f s) := by
  induction l generalizing s with
  | nil => exact refl s
  | cons a l ih => exact (hf s a).trans (ih _)

section
variable (h : s.SamePages t)
include h

/-! ### Reads -/

theorem die (d : Nat) : t.die d = s.die d := by rw [State.die, State.die, h.dies]
theorem peek (key n : Nat) : t.peek key n = s.peek key n := by rw [State.peek, State.peek, h.mem]
theorem tenantWord (die tenant i : Nat) : t.tenantWord die tenant i = s.tenantWord die tenant i := by simp only [State.tenantWord, h.peek, h.die]
theorem tenantOk (die tenant : Nat) : t.tenantOk die tenant = s.tenantOk die tenant := by simp only [State.tenantOk, h.tenantWord, h.die]
theorem logging (die tenant : Nat) : t.logging die tenant = s.logging die tenant := by simp only [State.logging, h.tenantWord, h.die]

theorem walk (va table fuel : Nat) : t.walk va table fuel = s.walk va table fuel := by
  induction fuel generalizing table with
  | zero => rfl
  | succ fuel ih => simp only [State.walk, h.peek, ih]

theorem rangeAt (tenant home pa : Nat) : t.rangeAt tenant home pa = s.rangeAt tenant home pa := by simp only [State.rangeAt, h.peek]
theorem findRange (home tenant va : Nat) : t.findRange home tenant va = s.findRange home tenant va := by simp only [State.findRange, h.tenantWord, h.rangeAt]
theorem freeFrame (stack : Nat) : t.freeFrame stack = s.freeFrame stack := by simp only [State.freeFrame, h.free]
theorem frameEmpty (frame : Nat) : t.frameEmpty frame = s.frameEmpty frame := by simp only [State.frameEmpty, h.mem]
theorem leafMoved (write : Bool) (e : LookEntry) : t.leafMoved write e = s.leafMoved write e := by simp only [State.leafMoved, h.peek]
theorem handedOver (pa : Nat) : t.handedOver pa = s.handedOver pa := by simp only [State.handedOver, h.dies]

/-! ### Changes -/

theorem setDie (d : Nat) (k : Die) : (s.setDie d k).SamePages (t.setDie d k) := ⟨h.cycle, h.free, h.mem, by simp only [State.setDie, h.dies]⟩
theorem modDie (d : Nat) (f : Die → Die) : (s.modDie d f).SamePages (t.modDie d f) := by
  simp only [State.modDie, h.die]
  exact h.setDie ..
theorem drew : s.drew.SamePages t.drew := ⟨h.cycle, congrArg (· + 1) h.free, h.mem, h.dies⟩

/-- A write leaves the pages that it leaves in memory; what it posts is not looked at. -/
theorem writeMem (key : Nat) (bytes : List Byte) : (s.writeMem key bytes).SamePages (t.writeMem key bytes) := by
  have hwrite (u : State) : ({ u with mem := Memory.writeBytes u.mem key bytes } : State).SamePages (u.writeMem key bytes) := by
    unfold State.writeMem writeMemAfter
    refine trans ?_ ((posts (fun _ _ => post ..) _ _).trans (posts (fun _ _ => post ..) _ _))
    exact ⟨rfl, rfl, rfl, rfl⟩
  have hmem : ({ s with mem := Memory.writeBytes s.mem key bytes } : State).SamePages { t with mem := Memory.writeBytes t.mem key bytes } :=
    ⟨h.cycle, h.free, congrArg (Memory.writeBytes · key bytes) h.mem, h.dies⟩
  exact (hwrite s).symm.trans (hmem.trans (hwrite t))

theorem sendRequest (home : Nat) (r : PageRequest) : SameAnswer (s.sendRequest home r) (t.sendRequest home r) := by
  simp only [State.sendRequest, h.die]
  exact .ite ⟨(h.setDie ..).writeMem .., rfl⟩ ⟨h, rfl⟩

theorem requestPage (home asker tenant : Nat) (kind : AccessKind) (va : Nat) : (s.requestPage home asker tenant kind va).SamePages (t.requestPage home asker tenant kind va) := by
  have hr (r : PageRequest) := (h.sendRequest home r).2
  simp only [State.requestPage, h.die, hr]
  split_ifs
  · exact h
  · exact (h.sendRequest home _).1.modDie ..

theorem logDirty (home tenant va : Nat) : (s.logDirty home tenant va).SamePages (t.logDirty home tenant va) := by
  simp only [State.logDirty, h.logging, h.die, h.tenantWord]
  split_ifs
  · exact h.writeMem ..
  · exact (h.writeMem ..).writeMem ..
  · exact h

theorem setAD (home tenant va : Nat) (write : Bool) (leaf : Nat) (e : LookEntry) :
    (s.setAD home tenant va write leaf e).SamePages (t.setAD home tenant va write leaf e) := by
  unfold State.setAD
  dsimp only
  split_ifs
  · exact h
  · exact ((h.logDirty ..).writeMem ..).modDie ..
  · exact (h.writeMem ..).modDie ..

theorem lookup (home asker tenant : Nat) (kind : AccessKind) (va : Nat) : SameAnswer (s.lookup home asker tenant kind va) (t.lookup home asker tenant kind va) := by
  simp only [State.lookup, h.tenantOk, h.logging, h.die, h.findRange, h.walk, h.tenantWord]
  refine .ite ⟨h, rfl⟩ ?_
  split
  · exact ⟨h.setDie .., rfl⟩
  split
  · exact ⟨h.setDie .., rfl⟩
  split
  · exact ⟨h.setDie .., rfl⟩
  split
  · exact ⟨h, rfl⟩
  refine .ite ⟨h, rfl⟩ (.ite (.ite ⟨h.requestPage .., rfl⟩ ⟨h, rfl⟩) ⟨h.setDie .., rfl⟩)

theorem ruling (home asker tenant : Nat) (kind : AccessKind) (va : Nat) : SameAnswer (s.ruling home asker tenant kind va) (t.ruling home asker tenant kind va) := by
  obtain ⟨hs, hr⟩ := h.lookup home asker tenant kind va
  unfold State.ruling
  rcases hp : s.lookup home asker tenant kind va with ⟨s', r⟩
  rcases hq : t.lookup home asker tenant kind va with ⟨t', r'⟩
  rw [hp, hq] at hs hr
  dsimp only at hs hr
  subst hr
  cases r' with
  | error c => exact ⟨hs, rfl⟩
  | ok e =>
    simp only [hs.leafMoved]
    exact .ite ((hs.modDie ..).lookup ..) ⟨hs, rfl⟩

theorem enter (home tenant : Nat) (kind : AccessKind) (va : Nat) (e : LookEntry) : SameAnswer (s.enter home tenant kind va e) (t.enter home tenant kind va e) := by
  unfold State.enter
  split
  · exact ⟨h, rfl⟩
  · cases e.leaf with
    | none => exact ⟨h, by simp only [h.handedOver]⟩
    | some leaf =>
      have hs := h.setAD home tenant va kind.writes leaf e
      exact ⟨hs, by simp only [hs.handedOver]⟩

theorem translateFrom (asker tenant : Nat) (kind : AccessKind) (va : Nat) :
    SameAnswer (s.translateFrom asker tenant kind va) (t.translateFrom asker tenant kind va) := by
  obtain ⟨hs, hr⟩ := h.ruling (homeDie va) asker tenant kind va
  unfold State.translateFrom
  refine .ite ⟨h, rfl⟩ ?_
  rcases hp : s.ruling (homeDie va) asker tenant kind va with ⟨s', r⟩
  rcases hq : t.ruling (homeDie va) asker tenant kind va with ⟨t', r'⟩
  rw [hp, hq] at hs hr
  dsimp only at hs hr
  subst hr
  cases r' with
  | error c => exact ⟨hs, rfl⟩
  | ok e => exact hs.enter ..

theorem countAccess (home tenant stack : Nat) (e : LookEntry) : (s.countAccess home tenant stack e).SamePages (t.countAccess home tenant stack e) := by
  have hs := h.modDie home (fun d => { d with counters := countPage tenant (e.base / 4096) stack d.counters })
  simp only [State.countAccess, hs.tenantWord, hs.die, hs.freeFrame, hs.frameEmpty, hs.cycle]
  split_ifs
  · exact h
  · exact (hs.setDie ..).drew
  · exact hs

theorem translatedLat (core va key : Nat) (forwarded : Bool) : t.translatedLat core va key forwarded = s.translatedLat core va key forwarded := by
  simp only [State.translatedLat, h.cycle, h.free]

theorem resolve (core : Nat) (kind : AccessKind) (va : Word) (n : Nat) (hl : t.launches = s.launches)
    (hc : ∀ c, (t.core c).lid = (s.core c).lid ∧ (t.core c).prot = (s.core c).prot ∧ (t.core c).spillBase = (s.core c).spillBase) :
    SameAnswer (s.resolve core kind va n) (t.resolve core kind va n) := by
  have hlaunch : t.launchOf core = s.launchOf core := by rw [State.launchOf, State.launchOf, State.launch, hl, (hc core).1, State.launch]
  have htenant : t.tenantOf core = s.tenantOf core := by rw [State.tenantOf, State.tenantOf, hlaunch]
  have hberth (c : Nat) : t.inBerth core c = s.inBerth core c := by rw [State.inBerth, State.inBerth, hlaunch]
  have hcarve (c off n : Nat) : (t.core c).inCarveOut off n = (s.core c).inCarveOut off n := by rw [Core.inCarveOut, Core.inCarveOut, (hc c).2.2]
  have hprot (c : Nat) (rd wr : Bool) (off n : Nat) : protCheck (t.core c) rd wr off n = protCheck (s.core c) rd wr off n := by
    simp only [protCheck, protCause, protTile, protRegion, (hc c).2.1]
  unfold State.resolve
  refine .ite ⟨h, rfl⟩ (.ite ?_ ?_)
  · split
    · exact ⟨h, rfl⟩
    · exact ⟨h, rfl⟩
    · rw [hberth, hcarve, hprot]
      refine .ite ⟨h, rfl⟩ ?_
      split <;> exact ⟨h, rfl⟩
  · obtain ⟨hs, hr⟩ := h.translateFrom (dieOf core) (s.tenantOf core) kind va.toNat
    rw [htenant]
    rcases hp : s.translateFrom (dieOf core) (s.tenantOf core) kind va.toNat with ⟨s', r⟩
    rcases hq : t.translateFrom (dieOf core) (s.tenantOf core) kind va.toNat with ⟨t', r'⟩
    rw [hp, hq] at hs hr
    dsimp only at hs hr
    subst hr
    cases r' with
    | error c => exact ⟨hs, rfl⟩
    | ok r =>
      obtain ⟨key, e⟩ := r
      have hs' : s'.tenantOf core = s.tenantOf core := by simpa only [hp] using (State.Same.translateFrom s (dieOf core) (s.tenantOf core) kind va.toNat).tenantOf core
      have ht' : t'.tenantOf core = s.tenantOf core := by
        simpa only [hq, htenant] using (State.Same.translateFrom t (dieOf core) (s.tenantOf core) kind va.toNat).tenantOf core
      have hcount := hs.countAccess (homeDie va.toNat) (s.tenantOf core) (dieOf core / 2) e
      dsimp only
      rw [hs', ht', hcount.translatedLat]
      exact ⟨hcount, rfl⟩

end

end SamePages

/-- A change of a slice is none for a translation. -/
theorem SamePages.modSlice (s : State) (core : Nat) (f : Slice → Slice) : s.SamePages (s.modSlice core f) := ⟨rfl, rfl, rfl, rfl⟩

theorem storeCell_modSlice (s : State) (n : Nat) (f : Slice → Slice) (core va : Nat) : (s.modSlice n f).storeCell core va = s.storeCell core va := by
  have hc (c : Nat) : ((s.modSlice n f).core c).lid = (s.core c).lid ∧ ((s.modSlice n f).core c).prot = (s.core c).prot
      ∧ ((s.modSlice n f).core c).spillBase = (s.core c).spillBase := by
    by_cases h : c = n
    · rw [h, modSlice, core_modCore]
      exact ⟨rfl, rfl, rfl⟩
    · rw [modSlice, core_modCore_ne s h]
      exact ⟨rfl, rfl, rfl⟩
  rw [storeCell, storeCell, ((SamePages.modSlice s n f).resolve core .read (BitVec.ofNat 64 va) 1 rfl hc).2]

theorem rowStall_modSlice (s : State) (n : Nat) (f : Slice → Slice) (core : Nat) (op : MatrixOp) (i : Nat) :
    (s.modSlice n f).rowStall core op i = s.rowStall core op i := by
  simp only [rowStall, storeCell_modSlice]
  rfl

end State

end Sys2Proof.Machine
end

section
/-! SUPPORT. What the events of the engines change of a cluster, of its cores' slices and of memory (07 R153, R160 to R172; 12 R263). -/

open Sys2Proof Sys2Proof.Machine

namespace Sys2Proof.Machine

/-! ### The cores of a cluster and of a group (00 R3) -/

theorem nodup_coresOfCluster (cl : Nat) : (coresOfCluster cl).Nodup := by
  refine List.Nodup.map_on (fun p hp q hq h => ?_) List.nodup_range
  rw [List.mem_range] at hp hq
  simp only [coreOfCluster, coreAt] at h
  omega

theorem coreOfGroup_eq_add (g c p : Nat) : coreOfGroup g c p = coreOfGroup g 0 0 + coreOfGroup 0 c p := by
  simp only [coreOfGroup, coreAt]
  omega

theorem nodup_coresOfGroup (g : Nat) : (coresOfGroup g).Nodup := by
  have hplaces : coresOfGroup g = (coresOfGroup 0).map (coreOfGroup g 0 0 + ·) := by
    rw [coresOfGroup, coresOfGroup, List.map_map]
    exact List.map_congr_left fun i _ => coreOfGroup_eq_add ..
  rw [hplaces]
  exact List.Nodup.map (add_right_injective _) (by decide)

theorem coreOfCluster_posOf (core : Nat) : coreOfCluster (clusterOf core) (posOf core) = core := by
  unfold coreOfCluster coreAt clusterOf posOf dieOf rowOf colOf
  omega

theorem mem_coresOfCluster (core : Nat) : core ∈ coresOfCluster (clusterOf core) :=
  List.mem_map.2 ⟨posOf core, List.mem_range.2 (posOf_lt core), coreOfCluster_posOf core⟩

namespace State

/-- Each core of a list is changed, and no other. -/
theorem core_foldl_modCore (f : Core → Core) {l : List Nat} (hl : l.Nodup) (s : State) (n : Nat) :
    (l.foldl (fun s c => s.modCore c f) s).core n = if n ∈ l then f (s.core n) else s.core n := by
  induction l generalizing s with
  | nil => rfl
  | cons c l ih =>
    obtain ⟨hc, hl⟩ := List.nodup_cons.1 hl
    rw [List.foldl_cons, ih hl]
    by_cases h : n = c
    · subst h
      simp [hc]
    · simp [h, core_modCore_ne s h]

/-! ### What lies outside the cores and the agenda -/

/-- The difference lies in the cores, the agenda and the free values drawn: clusters, groups and memory are the same. -/
structure InCores (s t : State) : Prop where
  clusters : t.clusters = s.clusters
  groups : t.groups = s.groups
  mem : t.mem = s.mem
  cycle : t.cycle = s.cycle

namespace InCores

variable {s t : State}

theorem refl (s : State) : s.InCores s := ⟨rfl, rfl, rfl, rfl⟩
theorem trans {u : State} (h : s.InCores t) (k : t.InCores u) : s.InCores u :=
  ⟨k.clusters.trans h.clusters, k.groups.trans h.groups, k.mem.trans h.mem, k.cycle.trans h.cycle⟩

theorem cluster (h : s.InCores t) (n : Nat) : t.cluster n = s.cluster n := by rw [State.cluster, State.cluster, h.clusters]

theorem modCore (s : State) (c : Nat) (f : Core → Core) : s.InCores (s.modCore c f) := ⟨rfl, rfl, rfl, rfl⟩
theorem modSlice (s : State) (c : Nat) (f : Slice → Slice) : s.InCores (s.modSlice c f) := ⟨rfl, rfl, rfl, rfl⟩
theorem modCtx (s : State) (w : CtxId) (f : Ctx → Ctx) : s.InCores (s.modCtx w f) := ⟨rfl, rfl, rfl, rfl⟩
theorem post (s : State) (due : Nat) (i : Instr) : s.InCores (s.post due i) := ⟨rfl, rfl, rfl, rfl⟩
theorem drew (s : State) : s.InCores s.drew := ⟨rfl, rfl, rfl, rfl⟩

theorem foldl {α : Type} {f : State → α → State} (h : ∀ (s : State) (a : α), s.InCores (f s a)) (s : State) (l : List α) : s.InCores (l.foldl f s) := by
  induction l generalizing s with
  | nil => exact refl s
  | cons a l ih => exact (h s a).trans (ih _)

theorem postLink (s : State) (src dst due : Nat) (credit : Bool) (i : Instr) : s.InCores (s.postLink src dst due credit i) :=
  iteInduction (fun _ => post ..) (fun _ => post ..)

theorem sendCredit (s : State) (core : Nat) (q : Port) : s.InCores (s.sendCredit core q) :=
  iteInduction (fun _ => (postLink ..).trans (drew _)) (fun _ => refl s)

theorem sendPort (s : State) (core : Nat) (p : Fin 8) (from_ : Nat) (v : Word) : s.InCores (s.sendPort core p from_ v) :=
  iteInduction (fun _ => (postLink ..).trans (drew _)) (fun _ => refl s)

theorem markOut (s : State) (w : CtxId) (d : Dest) (by_ : Producer) : s.InCores (s.markOut w d by_) :=
  iteInduction (fun _ => refl s) (fun _ => modCtx ..)

theorem answerX (s : State) (w : CtxId) (d : XReg) (at_ : Nat) (v : Word) : s.InCores (s.answerX w d at_ v) := by
  refine iteInduction (fun _ => ?_) (fun _ => modCtx ..)
  split
  · exact iteInduction (fun _ => sendPort ..) (fun _ => (markOut ..).trans (post ..))
  · exact refl s

theorem returnCredits (s : State) (w : CtxId) : s.InCores (s.returnCredits w) :=
  iteInduction (fun _ => refl s) (fun _ => (modCtx ..).trans (foldl (fun _ _ => sendCredit ..) _ _))

theorem finishPark (s : State) (w : CtxId) (sw : Bool) (from_ : Nat) : s.InCores (s.finishPark w sw from_) := (returnCredits s w).trans (modCtx ..)

theorem completeX (s : State) (w : CtxId) (d : XReg) (v : Word) (sw : Bool) (from_ : Nat) : s.InCores (s.completeX w d v sw from_) :=
  (answerX s w d (from_ - 1) v).trans (finishPark ..)

/-- A wakened context takes its job's status; the job stands as it did (07 R169). -/
theorem wakeJob (s : State) (cl : Nat) (ident : BitVec 16) (from_ : Nat) : s.InCores (s.wakeJob cl ident from_) := by
  refine foldl (fun s core => foldl (fun s c => ?_) s _) s _
  dsimp only
  split
  · exact iteInduction (fun _ => completeX ..) (fun _ => refl s)
  · exact refl s

theorem restSlice (s : State) (core : Nat) : s.InCores (s.restSlice core) := modCore ..

theorem drained (s : State) (core : Nat) (job : BitVec 16) (at_ : Nat) : s.InCores (s.drained core job at_) :=
  iteInduction (fun _ => iteInduction (fun _ => (modCore ..).trans (post ..)) (fun _ => modCore ..)) (fun _ => refl s)

end InCores

end State

/-! ### Jobs (07 R154, R165, R166, R171) -/

@[simp] theorem Cluster.jobs_modJob (k : Cluster) (slot : Fin 32) (f : JobSlot → JobSlot) : (k.modJob slot.val f).jobs.get slot = f (k.jobs.get slot) := by
  have hslot : Fin.ofNat 32 slot.val = slot := Fin.ext (Nat.mod_eq_of_lt slot.isLt)
  simp only [Cluster.modJob, hslot]
  exact Vector.getElem_set_self _

/-- The tag line that a slot pulses as its job ends in a state (07 R165). -/
def JobSlot.endPulse (j : JobSlot) (state : Nat) : BitVec 16 :=
  match j.job with
  | some job => if state = 2 then job.pulse else 0
  | none => 0

/-- The cause and the address that the status of a failed job gives (07 R166). -/
def faultCause : Option EngineFault → Nat
  | some (c, _) => causeCode c
  | none => 0
def faultVa : Option EngineFault → Nat
  | some (_, v) => v.toNat % 2 ^ 48
  | none => 0

/-- A slot as `State.endJob` leaves it. -/
def JobSlot.ended (j : JobSlot) (state : Nat) (fault : Option EngineFault) : JobSlot :=
  { j with taken := false, state := state, held := false, cause := faultCause fault, va := faultVa fault }

/-- A cluster as `State.endJob` leaves it. -/
def Cluster.jobEnd (k : Cluster) (slot : Fin 32) (state : Nat) (fault : Option EngineFault) : Cluster :=
  { k.modJob slot.val (·.ended state fault) with pulses := k.pulses ||| (k.jobs.get slot).endPulse state }

theorem State.endJob_eq (s : State) (cl : Nat) (slot : Fin 32) (state : Nat) (fault : Option EngineFault) : s.endJob cl slot state fault
    = (s.modCluster cl (fun k => k.jobEnd slot state fault)).wakeJob cl (((s.cluster cl).jobs.get slot).ident slot.val) s.cycle := by
  cases fault <;> rfl

/-- The job of a slot has ended in a state, with a cause and an address; its tag line pulses where it is to (07 R165, R166). -/
structure Cluster.JobEnded (k k' : Cluster) (slot : Fin 32) (st cause va : Nat) : Prop where
  taken : (k'.jobs.get slot).taken = false
  state : (k'.jobs.get slot).state = st
  cause : (k'.jobs.get slot).cause = cause
  va : (k'.jobs.get slot).va = va
  gen : (k'.jobs.get slot).gen = (k.jobs.get slot).gen
  pulses : k'.pulses = k.pulses ||| (k.jobs.get slot).endPulse st

theorem Cluster.jobEnded_jobEnd {k k' : Cluster} {slot : Fin 32} (st : Nat) (fault : Option EngineFault) (hg : (k'.jobs.get slot).gen = (k.jobs.get slot).gen)
    (hj : (k'.jobs.get slot).job = (k.jobs.get slot).job) (hp : k'.pulses = k.pulses) :
    k.JobEnded (k'.jobEnd slot st fault) slot st (faultCause fault) (faultVa fault) := by
  have hget : (k'.jobEnd slot st fault).jobs.get slot = (k'.jobs.get slot).ended st fault := k'.jobs_modJob slot (·.ended st fault)
  exact {
    taken := by rw [hget, JobSlot.ended]
    state := by rw [hget, JobSlot.ended]
    cause := by rw [hget, JobSlot.ended]
    va := by rw [hget, JobSlot.ended]
    gen := by rw [hget, JobSlot.ended, hg]
    pulses := by rw [Cluster.jobEnd, hp, JobSlot.endPulse, JobSlot.endPulse, hj] }

theorem State.cluster_endJob (s : State) (cl : Nat) (slot : Fin 32) (state : Nat) (fault : Option EngineFault) :
    (s.endJob cl slot state fault).cluster cl = (s.cluster cl).jobEnd slot state fault := by
  rw [State.endJob_eq, (State.InCores.wakeJob ..).cluster, State.cluster_modCluster]

theorem State.endJob_mem (s : State) (cl : Nat) (slot : Fin 32) (state : Nat) (fault : Option EngineFault) : (s.endJob cl slot state fault).mem = s.mem := by
  rw [State.endJob_eq, (State.InCores.wakeJob ..).mem, State.modCluster_mem]

/-! ### The gang barrier (07 R160) -/

/-- A context that has arrived is told that its arrival is consumed. -/
def Ctx.gangConsumed (c : Ctx) : Ctx :=
  match c.park with
  | .mxGang d _ sw => { c with park := .mxGang d true sw }
  | _ => c

/-- What the wired barrier leaves of a cluster. -/
def Cluster.gangOffered (k : Cluster) (cycle : Nat) : Cluster :=
  { k with gangArrivals := 0, gangOffer := k.gangOp.map (fun op => (cycle, op)), gangOp := none }

section
variable {s : State} {cl : Nat}

theorem exec_gangBarrierConsume (ho : (s.cluster cl).gangOffer = none) (ha : (s.cluster cl).gangArrivals = BitVec.allOnes 8) : exec (.gangBarrierConsume cl) s
    = .next ((coresOfCluster cl).foldl (fun s core => s.modCore core (fun k => { k with ctxs := k.ctxs.map Ctx.gangConsumed }))
        (s.setCluster cl ((s.cluster cl).gangOffered s.cycle))) := by
  show execGangBarrierConsume cl s = _
  rw [execGangBarrierConsume, ho, if_neg (by simp), if_pos ha]
  rfl

/-- Each context of the cluster is told, and nothing but the barrier's part of the cluster changes (`Ctx.gangConsumed`, `Cluster.gangOffered`). -/
theorem State.ctx_foldl_gangConsumed (t : State) {w : CtxId} (hw : clusterOf w.core = cl) :
    ((coresOfCluster cl).foldl (fun s core => s.modCore core (fun k => { k with ctxs := k.ctxs.map Ctx.gangConsumed })) t).ctx w = (t.ctx w).gangConsumed := by
  rw [State.ctx, State.core_foldl_modCore _ (nodup_coresOfCluster cl), if_pos (hw ▸ mem_coresOfCluster w.core)]
  exact Vector.getElem_map ..

theorem Ctx.gangConsumed_park {c : Ctx} {d : XReg} {b sw : Bool} (h : c.park = .mxGang d b sw) : c.gangConsumed.park = .mxGang d true sw := by
  rw [Ctx.gangConsumed, h]

theorem exec_gangBarrierConsume_waits (ho : (s.cluster cl).gangOffer ≠ none) :
    exec (.gangBarrierConsume cl) s = .next (s.post (s.cycle + 1) (.gangBarrierConsume cl)) := by
  show execGangBarrierConsume cl s = _
  rw [execGangBarrierConsume, if_pos (Option.isSome_iff_ne_none.2 ho)]

theorem exec_gangBarrierConsume_early (ho : (s.cluster cl).gangOffer = none) (ha : (s.cluster cl).gangArrivals ≠ BitVec.allOnes 8) :
    exec (.gangBarrierConsume cl) s = .next s := by
  show execGangBarrierConsume cl s = _
  rw [execGangBarrierConsume, ho, if_neg (by simp), if_neg ha]

end

/-! ### Ends of jobs (07 R165, R166, R171) -/

section
variable {s : State} {cl : Nat} {slot : Fin 32}

/-- The copy unit's running job fails. -/
theorem exec_operationFailure_copy {j : CopyJob} (h : (s.cluster cl).copyRunning = some (slot, j)) (cause : Cause) (va : Word) :
    ∃ u, exec (.operationFailure cl .copy cause va) s = .next u ∧ (s.cluster cl).JobEnded (u.cluster cl) slot 3 (causeCode cause) (va.toNat % 2 ^ 48)
      ∧ (u.cluster cl).copying = none := by
  refine ⟨(s.modCluster cl (fun k => { k with copying := none })).endJob cl slot 3 (some (cause, va)), ?_, ?_, ?_⟩
  · show execOperationFailure cl .copy cause va s = _
    simp only [execOperationFailure, h]
  · rw [State.cluster_endJob, State.cluster_modCluster]
    exact Cluster.jobEnded_jobEnd 3 (some (cause, va)) rfl rfl rfl
  · rw [State.cluster_endJob, State.cluster_modCluster]
    rfl

/-- The matrix array's running operation fails. -/
theorem State.cluster_failMatrix {op : MatrixOp} (h : (s.cluster cl).matrixRunning = some (slot, op)) (e : EngineFault) :
    (s.failMatrix cl e).cluster cl = ({ (s.cluster cl).dropMatrixWaits with running := none } : Cluster).jobEnd slot 3 (some e) := by
  simp only [State.failMatrix, h]
  rw [State.cluster_endJob, State.cluster_modCluster, (State.InCores.foldl (fun _ _ => .modSlice ..) s _).cluster]

theorem exec_operationFailure_matrix {op : MatrixOp} (h : (s.cluster cl).matrixRunning = some (slot, op)) (cause : Cause) (va : Word) :
    ∃ u, exec (.operationFailure cl .matrix cause va) s = .next u ∧ (s.cluster cl).JobEnded (u.cluster cl) slot 3 (causeCode cause) (va.toNat % 2 ^ 48)
      ∧ (u.cluster cl).running = none := by
  refine ⟨s.failMatrix cl (cause, va), rfl, ?_, ?_⟩
  · rw [State.cluster_failMatrix h]
    exact Cluster.jobEnded_jobEnd 3 (some (cause, va)) rfl rfl rfl
  · rw [State.cluster_failMatrix h]
    rfl

/-- The matrix array's running operation completes. -/
theorem exec_matrixOperationComplete {op : MatrixOp} (h : (s.cluster cl).matrixRunning = some (slot, op)) :
    ∃ u, exec (.matrixOperationComplete cl) s = .next u ∧ (s.cluster cl).JobEnded (u.cluster cl) slot 2 0 0 ∧ (u.cluster cl).running = none := by
  have hrest (t : State) : ((coresOfCluster cl).foldl (fun s c => s.restSlice c) t).cluster cl = t.cluster cl :=
    (State.InCores.foldl (fun _ _ => .restSlice ..) t _).cluster cl
  refine ⟨(coresOfCluster cl).foldl (fun s c => s.restSlice c) ((s.modCluster cl (fun k => { k with running := none })).endJob cl slot 2 none), ?_, ?_, ?_⟩
  · show execMatrixOperationComplete cl s = _
    simp only [execMatrixOperationComplete, h]
  · rw [hrest, State.cluster_endJob, State.cluster_modCluster]
    exact Cluster.jobEnded_jobEnd 2 none rfl rfl rfl
  · rw [hrest, State.cluster_endJob, State.cluster_modCluster]
    rfl

/-- The copy unit's running job completes, its bytes moved. -/
theorem exec_copyJobComplete {j : CopyJob} {done : Nat} {t : State} (h : (s.cluster cl).copyRunning = some (slot, j))
    (hp : s.copyPieces cl j j.len (j.len / 64 + 1) ((s.cluster cl).jobs.get slot).done = (t, done, none)) (ht : t.cluster cl = s.cluster cl) :
    ∃ u, exec (.copyJobComplete cl) s = .next u ∧ (s.cluster cl).JobEnded (u.cluster cl) slot 2 0 0 ∧ (u.cluster cl).copying = none ∧ u.mem = t.mem := by
  set v := t.modCluster cl (fun k => k.modJob slot.val (fun x => { x with done := done }))
  have hv : v.cluster cl = (s.cluster cl).modJob slot.val (fun x => { x with done := done }) := by rw [State.cluster_modCluster, ht]
  refine ⟨(v.modCluster cl (fun k => { k with copying := none })).endJob cl slot 2 none, ?_, ?_, ?_, ?_⟩
  · show execCopyJobComplete cl s = _
    simp only [execCopyJobComplete, h, hp]
    rfl
  · rw [State.cluster_endJob, State.cluster_modCluster, hv]
    refine Cluster.jobEnded_jobEnd 2 none ?_ ?_ rfl <;> 
    · dsimp only
      rw [Cluster.jobs_modJob]
  · rw [State.cluster_endJob, State.cluster_modCluster]
    rfl
  · rw [State.endJob_mem]
    rfl

end

end Sys2Proof.Machine
end

section
/-! SUPPORT. How jobs start, rows end and are drained, and what the crossbar and the limiter do in a step (01 R29; 07 R154 to R172). -/

open Sys2Proof Sys2Proof.Machine

namespace Sys2Proof.Machine

/-! ### Starts of jobs (07 R154, R161, R171) -/

namespace State

/-- The state in which the matrix array has taken an operation, and each slice of the cluster belongs to it (07 R161). -/
def operationTaken (s : State) (cl : Nat) (slot : Fin 32) (op : MatrixOp) (at_ : Nat) : State :=
  let ident := ((s.cluster cl).jobs.get slot).ident slot.val
  (coresOfCluster cl).foldl (fun s c => s.modSlice c (fun sl => sl.taken ident))
    (s.modCluster cl (fun k => { (k.charge (.matrix op)).modJob slot.val (fun x => { x with state := 1, held := false, started := at_ }) with
      running := some slot.val }))

theorem startMatrix_eq (s : State) (cl : Nat) (slot : Fin 32) (op : MatrixOp) (at_ : Nat) :
    s.startMatrix cl slot op at_ = (s.operationTaken cl slot op at_).raiseStarts cl op at_ := by
  rw [startMatrix, operationTaken]

end State

section
variable {s t v : State} {cl : Nat} {slot : Fin 32}

/-- Slices of a cluster's cores after a change of each. -/
theorem State.slice_foldl_modSlice (s : State) (cl : Nat) (f : Slice → Slice) {c : Nat} (hc : c ∈ coresOfCluster cl) :
    (((coresOfCluster cl).foldl (fun s c => s.modSlice c f) s).core c).slice = f (s.core c).slice := by
  have h := State.core_foldl_modCore (fun k => { k with slice := f k.slice }) (nodup_coresOfCluster cl) s c
  rw [if_pos hc] at h
  exact congrArg Core.slice h

/-- The core cycle in which an operation that starts now has become the running one (12 R263). -/
def State.startedAt (s : State) (cl : Nat) (slot : Fin 32) : Nat :=
  if ((s.cluster cl).jobs.get slot).accepted = s.cycle ∧ (s.cluster cl).gangReady = true then s.cycle - 1 else s.cycle

theorem exec_jobStart_matrix {op : MatrixOp} (hr : (s.cluster cl).running = none) (hn : s.nextJob cl true = some (slot, .matrix op)) :
    exec (.jobStart cl .matrix) s = .next ((s.operationTaken cl slot op (s.startedAt cl slot)).raiseStarts cl op (s.startedAt cl slot)) := by
  show execJobStart cl .matrix s = _
  rw [← State.startMatrix_eq]
  simp only [execJobStart, State.startJob, hr, hn, Option.isSome_none, Bool.false_eq_true, if_false, Bool.and_eq_true, decide_eq_true_eq, State.startedAt]

theorem exec_jobStart_copy {j : CopyJob} (hc : (s.cluster cl).copying = none) (hn : s.nextJob cl false = some (slot, .copy j)) :
    exec (.jobStart cl .copy) s = .next (s.startCopy cl slot j) := by
  show execJobStart cl .copy s = _
  simp only [execJobStart, State.startJob, hc, hn, Option.isSome_none, Bool.false_eq_true, if_false]

/-- The copy unit runs the job, to complete it no earlier than a core cycle after each 64 bytes that are left. -/
theorem State.startCopy_runs (j : CopyJob) : ((s.startCopy cl slot j).cluster cl).copying = some slot.val
    ∧ (((s.startCopy cl slot j).cluster cl).jobs.get slot).state = 1
    ∧ ∃ due, (due, Instr.copyJobComplete cl) ∈ (s.startCopy cl slot j).agenda ∧ s.cycle + (j.len - ((s.cluster cl).jobs.get slot).done + 63) / 64 ≤ due := by
  unfold State.startCopy
  dsimp only
  rw [State.cluster_drew, State.cluster_post, State.cluster_modCluster, State.drew_agenda]
  refine ⟨rfl, by rw [Cluster.jobs_modJob], _, State.mem_post, ?_⟩
  rw [State.copyTime, State.modCluster_cycle]
  dsimp only
  omega

/-- What taking an operation leaves: the job runs, and its slices have nothing of it yet. -/
theorem State.operationTaken_cluster (op : MatrixOp) (at_ : Nat) : (s.operationTaken cl slot op at_).cluster cl
    = { ((s.cluster cl).charge (.matrix op)).modJob slot.val (fun x => { x with state := 1, held := false, started := at_ }) with running := some slot.val } := by
  rw [State.operationTaken, (State.InCores.foldl (fun _ _ => .modSlice ..) _ _).cluster, State.cluster_modCluster]

theorem State.operationTaken_mem (op : MatrixOp) (at_ : Nat) : (s.operationTaken cl slot op at_).mem = s.mem := by
  rw [State.operationTaken, (State.InCores.foldl (fun _ _ => .modSlice ..) _ _).mem, State.modCluster_mem]

theorem State.operationTaken_slice (op : MatrixOp) (at_ : Nat) {c : Nat} (hc : c ∈ coresOfCluster cl) :
    ((s.operationTaken cl slot op at_).core c).slice = (s.core c).slice.taken (((s.cluster cl).jobs.get slot).ident slot.val) := by
  rw [State.operationTaken, State.slice_foldl_modSlice _ cl _ hc, State.core_modCluster]

/-- With the formats of the operands known, the row time is set and each slice asks to start, or the operation fails (07 R161, R166). -/
theorem State.raiseStarts_ok {op : MatrixOp} {at_ time : Nat} {fa fb : Attr} (ha : s.attrAt (coreOfCluster cl 0) op.abase = (t, .ok fa))
    (hb : t.attrAt (coreOfCluster cl 0) op.bbase = (v, .ok fb)) (hm : op.mode fa fb = .ok time) :
    s.raiseStarts cl op at_ = (coresOfCluster cl).foldl (fun s c => s.modSlice c (fun sl => { sl with startReq := some at_ }))
      (v.modCluster cl (fun k => { k with rowTime := time })) := by
  simp only [State.raiseStarts, ha, hb, hm]

theorem State.raiseStarts_error {op : MatrixOp} {at_ : Nat} {fa fb : Attr} {e : Cause} (ha : s.attrAt (coreOfCluster cl 0) op.abase = (t, .ok fa))
    (hb : t.attrAt (coreOfCluster cl 0) op.bbase = (v, .ok fb)) (hm : op.mode fa fb = .error e) :
    s.raiseStarts cl op at_ = v.failMatrix cl (e, BitVec.ofNat 64 op.bbase) := by
  simp only [State.raiseStarts, ha, hb, hm]

end

/-! ### Rows and the drain path (07 R161, R163, R164) -/

namespace State

variable (s : State) (core : Nat)

@[simp] theorem slice_restSlice : ((s.restSlice core).core core).slice
    = { (s.core core).slice with state := if (s.core core).slice.state = 3 then 3 else (s.cluster (clusterOf core)).restState core } := by
  rw [restSlice, core_modCore]

/-- How long the next row of a slice takes from a core cycle on, its reads' stalls with it. -/
def rowSpan (op : Option (Fin 32 × MatrixOp)) : Nat :=
  (s.cluster (clusterOf core)).rowTime + (op.map (fun o => s.rowStall core o.2 (8 * posOf core + (s.core core).slice.rows))).getD 0

theorem rowSpan_some (slot : Fin 32) (op : MatrixOp) : s.rowSpan core (some (slot, op))
    = (s.cluster (clusterOf core)).rowTime + s.rowStall core op (8 * posOf core + (s.core core).slice.rows) := by
  rw [rowSpan, Option.map_some, Option.getD_some]

@[simp] theorem slice_beginRow : ((s.beginRow core).core core).slice
    = { (s.core core).slice with rowEnd := some (s.cycle + s.rowSpan core (s.cluster (clusterOf core)).matrixRunning - 1) } := by
  unfold beginRow rowSpan
  dsimp only
  rw [core_post, slice_modSlice]
  cases (s.cluster (clusterOf core)).matrixRunning <;> rfl

theorem rowSpan_modSlice (f : Slice → Slice) (hf : ∀ sl, (f sl).rows = sl.rows) (op : Option (Fin 32 × MatrixOp)) :
    (s.modSlice core f).rowSpan core op = s.rowSpan core op := by
  simp only [rowSpan, rowStall_modSlice, slice_modSlice, hf]
  rfl

/-- A slice whose request is granted computes its next row from now on (01 R29). -/
theorem sliceStart_slice : ((s.sliceStart core).core core).slice.state = 2 ∧ ((s.sliceStart core).core core).slice.startReq = none
    ∧ ((s.sliceStart core).core core).slice.rowEnd = some (s.cycle + s.rowSpan core (s.cluster (clusterOf core)).matrixRunning - 1) := by
  rw [sliceStart, slice_beginRow, slice_modSlice]
  refine ⟨rfl, rfl, ?_⟩
  dsimp only
  rw [rowSpan_modSlice]
  · rfl
  · exact fun _ => rfl

/-- The row that a slice has computed, as it enters a drain buffer. -/
def rowEntering (op : MatrixOp) (vals : List (BitVec 32)) : DrainRow :=
  let i := 8 * posOf core + (s.core core).slice.rows
  let addr := op.cbase + i * op.cstride
  { row := i, job := (s.core core).slice.jobId, addr := addr, outf := op.outf, vals := vals, age := s.cycle - 1, held := true
    handler := false, due := if op.drain then none else some (s.cycle + s.rowLat core addr + 1), paged := false }

/-- A slice that rests after its last row, or begins its next one, keeps its rows. -/
theorem rows_goOn (last : Bool) : ((if last then s.restSlice core else s.beginRow core).core core).slice.rows = (s.core core).slice.rows
    ∧ ((if last then s.restSlice core else s.beginRow core).core core).slice.buffers = (s.core core).slice.buffers := by
  cases last
  · rw [if_neg (by simp), slice_beginRow]
    exact ⟨rfl, rfl⟩
  · rw [if_pos rfl, slice_restSlice]
    exact ⟨rfl, rfl⟩

theorem enterRow_slice (op : MatrixOp) (vals : List (BitVec 32)) : ((s.enterRow core op vals).core core).slice.rows = (s.core core).slice.rows + 1
    ∧ ((s.enterRow core op vals).core core).slice.buffers = (s.core core).slice.buffers ++ [s.rowEntering core op vals] := by
  have hpost (t : State) (due : Nat) (i : Instr) : (if op.drain then t else t.post due i).core core = t.core core := by split_ifs <;> rfl
  unfold enterRow
  dsimp only
  rw [hpost, (rows_goOn ..).1, (rows_goOn ..).2, slice_modSlice]
  exact ⟨rfl, rfl⟩

end State

section
variable {s t : State} {cl : Nat} {p : Fin 8}

theorem exec_rowEnd {e : Nat} {slot : Fin 32} {op : MatrixOp} {vals : List (BitVec 32)} (he : (s.core (coreOfCluster cl p.val)).slice.rowEnd = some e)
    (hlt : e < s.cycle) (hm : (s.cluster cl).matrixRunning = some (slot, op))
    (hb : ((s.core (coreOfCluster cl p.val)).slice.buffers.filter (·.held)).length < 2) (hcl : clusterOf (coreOfCluster cl p.val) = cl)
    (hp : posOf (coreOfCluster cl p.val) = p.val)
    (hv : s.computeRow (coreOfCluster cl p.val) op (8 * p.val + (s.core (coreOfCluster cl p.val)).slice.rows) = (t, .ok vals)) :
    exec (.rowEnd cl p) s = .next (t.enterRow (coreOfCluster cl p.val) op vals) := by
  have hbuffer : (s.core (coreOfCluster cl p.val)).slice.hasBuffer = true := decide_eq_true hb
  show execRowEnd cl p s = _
  simp only [execRowEnd, he, if_pos (show e + 1 ≤ s.cycle from hlt), State.endRow, hcl, hm, hp, hv, hbuffer, if_true]

theorem exec_drainPathWrite {b : DrainRow} (hd : (s.core (coreOfCluster cl p.val)).slice.dueRow s.cycle = some b)
    (hw : s.engineWrite (coreOfCluster cl p.val) b.addr (rowOut b.outf b.vals) = (t, none)) :
    exec (.drainPathWrite cl p) s = .next ((t.modSlice (coreOfCluster cl p.val) (fun sl => sl.freeRow b.row b.job)).drained (coreOfCluster cl p.val) b.job t.cycle) := by
  show execDrainPathWrite cl p s = _
  simp only [execDrainPathWrite, hd, hw]

end

/-! ### The crossbar (07 R172) -/

theorem Cluster.termNow_iff (k : Cluster) (n : Fin 16) :
    k.termNow n = true ↔ k.terms.get n ≠ 0 ∧ ∀ i : Fin 16, (k.terms.get n).getLsbD i.val = true → (k.counters.get i).fired = true := by
  simp [Cluster.termNow, List.all_eq_true, imp_iff_not_or]

/-- One bit for each index that passes. -/
theorem getLsbD_foldl_or (f : Fin 16 → Bool) (l : List (Fin 16)) (b : BitVec 16) (n : Fin 16) :
    (l.foldl (fun b t => if f t then b ||| (1#16 <<< t.val) else b) b).getLsbD n.val = true ↔ b.getLsbD n.val = true ∨ (n ∈ l ∧ f n = true) := by
  induction l generalizing b with
  | nil => simp
  | cons t l ih =>
    have hbit : ((1#16 <<< t.val) : BitVec 16).getLsbD n.val = true ↔ n = t := by
      have hn := n.isLt
      simp only [BitVec.getLsbD_shiftLeft, BitVec.getLsbD_one, hn, Fin.ext_iff]
      grind
    rw [List.foldl_cons, ih, List.mem_cons]
    by_cases hf : f t = true
    · rw [if_pos hf, BitVec.getLsbD_or, Bool.or_eq_true, hbit]
      grind
    · rw [if_neg hf]
      grind

theorem Cluster.crossbar_termTrue (k : Cluster) (n : Fin 16) : k.crossbar.termTrue.getLsbD n.val = true ↔ k.termNow n = true := by
  rw [Cluster.crossbar, getLsbD_foldl_or]
  simp

theorem Cluster.crossbar_counters (k : Cluster) (i : Fin 16) : k.crossbar.counters.get i = (k.counters.get i).pulsed k.pulses :=
  Vector.getElem_map ..

/-! ### The limiter (01 R28, R29) -/

/-- The request of the slice of a core, with its number, as the limiter hears it at a boundary. -/
def State.requestOf (s : State) (req : Slice → Option Nat) (p : Nat × Nat) : Option (Nat × Nat × Nat) :=
  match req (s.core p.1).slice with
  | some r => if r < s.cycle && !(s.core p.1).down then some (r, p.2, p.1) else none
  | none => none

section
variable {s : State} {g : Nat} {req : Slice → Option Nat}

theorem State.requestOf_eq_none {p : Nat × Nat} (h : req (s.core p.1).slice = none) : s.requestOf req p = none := by rw [State.requestOf, h]

theorem State.slewRequests_eq (s : State) (g : Nat) (req : Slice → Option Nat) : s.slewRequests g req =
    (((coresOfGroup g).zipIdx.filterMap (s.requestOf req)).mergeSort (fun a b => decide (a.1 < b.1) || (decide (a.1 = b.1) && decide (a.2.1 ≤ b.2.1)))).map
      (fun x => x.2.2) := rfl

theorem filterMap_requestOf_eq_nil {l : List Nat} {n : Nat} (h : ∀ c ∈ l, req (s.core c).slice = none) : (l.zipIdx n).filterMap (s.requestOf req) = [] :=
  List.filterMap_eq_nil_iff.2 fun p hp => State.requestOf_eq_none (h p.1 (List.fst_mem_of_mem_zipIdx hp))

/-- With no request among the slices of a group, none is heard. -/
theorem State.slewRequests_eq_nil (h : ∀ c ∈ coresOfGroup g, req (s.core c).slice = none) : s.slewRequests g req = [] := by
  rw [State.slewRequests_eq, filterMap_requestOf_eq_nil h, List.mergeSort_nil, List.map_nil]

/-- A lone request is heard once. -/
theorem filterMap_requestOf_single {c r : Nat} (hr : req (s.core c).slice = some r) (hlt : r < s.cycle) (hd : (s.core c).down = false) {l : List Nat} (hl : l.Nodup)
    (hc : c ∈ l) (ho : ∀ c' ∈ l, c' ≠ c → req (s.core c').slice = none) (n : Nat) : ∃ i, (l.zipIdx n).filterMap (s.requestOf req) = [(r, i, c)] := by
  induction l generalizing n with
  | nil => simp at hc
  | cons a l ih =>
    obtain ⟨ha, hl⟩ := List.nodup_cons.1 hl
    have ho' : ∀ c' ∈ l, c' ≠ c → req (s.core c').slice = none := fun c' h => ho c' (List.mem_cons_of_mem _ h)
    rw [List.zipIdx_cons]
    by_cases h : a = c
    · subst h
      have hhead : s.requestOf req (a, n) = some (r, n, a) := by simp [State.requestOf, hr, hlt, hd]
      refine ⟨n, ?_⟩
      rw [List.filterMap_cons_some hhead, filterMap_requestOf_eq_nil fun c' hc' => ho' c' hc' fun e => ha (e ▸ hc')]
    · rw [List.filterMap_cons_none (State.requestOf_eq_none (ho a List.mem_cons_self h))]
      exact ih hl ((List.mem_cons.1 hc).resolve_left (Ne.symm h)) ho' _

theorem State.slewRequests_single {c r : Nat} (hr : req (s.core c).slice = some r) (hlt : r < s.cycle) (hd : (s.core c).down = false)
    (hc : c ∈ coresOfGroup g) (ho : ∀ c' ∈ coresOfGroup g, c' ≠ c → req (s.core c').slice = none) : s.slewRequests g req = [c] := by
  obtain ⟨i, hi⟩ := filterMap_requestOf_single hr hlt hd (nodup_coresOfGroup g) hc ho 0
  rw [State.slewRequests_eq, hi, List.mergeSort_singleton, List.map_singleton]

theorem one_le_rampStarts (l : Nat) : 1 ≤ rampStarts l := by
  unfold rampStarts
  split_ifs <;> decide

/-- With no stop requested, a step of the limiter starts the slices whose requests it grants. -/
theorem State.limiter_noStops (h : ∀ c ∈ coresOfGroup g, (s.core c).slice.stopReq = none) :
    s.limiter g = (((s.slewRequests g (·.startReq)).take (rampStarts (s.group g).level)).foldl (fun s c => s.sliceStart c) s).modGroup g
      (fun k => { k with level := (s.group g).level + ((s.slewRequests g (·.startReq)).take (rampStarts (s.group g).level)).length }) := by
  have hstops : s.slewRequests g (·.stopReq) = [] := State.slewRequests_eq_nil h
  unfold State.limiter
  dsimp only
  rw [List.filter_eq_nil_iff.2, List.foldl_nil, hstops, List.take_nil]
  · rfl
  · intro c hc
    simp [h c hc]

/-- With no request, the level stays. -/
theorem exec_limiterStep_idle (h : ∀ c ∈ coresOfGroup g, (s.core c).slice.startReq = none ∧ (s.core c).slice.stopReq = none) :
    exec (.limiterStep g) s = .next (s.modGroup g (fun k => { k with level := (s.group g).level })) := by
  show execLimiterStep g s = _
  rw [execLimiterStep, State.limiter_noStops fun c hc => (h c hc).2, State.slewRequests_eq_nil fun c hc => (h c hc).1, List.take_nil]
  rfl

/-- A lone start request is granted, and the level rises by 1. -/
theorem exec_limiterStep_grants {c r : Nat} (hr : (s.core c).slice.startReq = some r) (hlt : r < s.cycle) (hd : (s.core c).down = false) (hc : c ∈ coresOfGroup g)
    (ho : ∀ c' ∈ coresOfGroup g, (s.core c').slice.stopReq = none ∧ (c' ≠ c → (s.core c').slice.startReq = none)) :
    exec (.limiterStep g) s = .next ((s.sliceStart c).modGroup g (fun k => { k with level := (s.group g).level + 1 })) := by
  have htake : [c].take (rampStarts (s.group g).level) = [c] := List.take_of_length_le (one_le_rampStarts _)
  show execLimiterStep g s = _
  rw [execLimiterStep, State.limiter_noStops fun c' hc' => (ho c' hc').1, State.slewRequests_single hr hlt hd hc fun c' hc' => (ho c' hc').2, htake]
  rfl

end

end Sys2Proof.Machine

/-- Settles O46: each event by the lemma about it. -/
theorem engineEvents : Obligations.EngineEvents := by
  intro s t cl k ends
  have hends {i : Instr} {slot : Fin 32} {st cause va : Nat} {P : State → Prop} {u : State} (he : exec i s = .next u)
      (hj : k.JobEnded (u.cluster cl) slot st cause va) (hP : P u) : ends i slot st cause va (decide (st = 2)) P := by
    refine ⟨u, he, hj.taken, hj.state, hj.cause, hj.va, hj.gen, hj.pulses.trans (congrArg (k.pulses ||| ·) ?_), hP⟩
    unfold JobSlot.endPulse
    cases (k.jobs.get slot).job with
    | none => rfl
    | some job => by_cases h : st = 2 <;> cases job <;> simp [h, JobKind.pulse]
  refine ⟨?gang, exec_gangBarrierConsume_early, exec_gangBarrierConsume_waits, ?start, ?requests, ?copyFails, ?copyStarts, ?operationEnds, ?copyEnds, ?row, ?drain,
    ?crossbar, ?idle, ?grant⟩
  case gang =>
    intro ho ha
    refine ⟨_, exec_gangBarrierConsume ho ha, ?_⟩
    rw [(State.InCores.foldl (fun _ _ => .modCore ..) _ _).cluster, State.cluster_setCluster]
    refine ⟨rfl, rfl, rfl, fun w hw d b sw hp => ?_⟩
    rw [State.ctx_foldl_gangConsumed _ hw]
    exact Ctx.gangConsumed_park hp
  case start =>
    intro slot op hr hn at_
    have hat : at_ = s.startedAt cl slot := rfl
    rw [hat]
    refine ⟨s.operationTaken cl slot op (s.startedAt cl slot), exec_jobStart_matrix hr hn, ?_, ?_, State.operationTaken_mem .., fun c hc => ?_⟩
    · rw [State.operationTaken_cluster]
    · rw [State.operationTaken_cluster]
      dsimp only
      rw [Cluster.jobs_modJob]
    · rw [State.operationTaken_slice op _ hc]
      exact ⟨rfl, rfl, rfl, rfl⟩
  case requests =>
    intro op v fa fb at_ ha hb
    refine ⟨fun time hm => ?_, fun e hm => ?_⟩
    · rw [State.raiseStarts_ok ha hb hm]
      refine ⟨?_, fun c hc => ?_⟩
      · rw [(State.InCores.foldl (fun _ _ => .modSlice ..) _ _).cluster, State.cluster_modCluster]
      · rw [State.slice_foldl_modSlice _ cl _ hc]
    · rw [State.raiseStarts_error ha hb hm]
      rfl
  case copyFails =>
    intro slot j hrun cause va
    obtain ⟨u, hu, hj, hc⟩ := exec_operationFailure_copy hrun cause va
    exact hends hu hj hc
  case copyStarts =>
    intro slot j hc hn
    obtain ⟨hcopying, hstate, due, hdue, hle⟩ := s.startCopy_runs (cl := cl) (slot := slot) j
    exact ⟨_, due, exec_jobStart_copy hc hn, hcopying, hstate, hdue, hle⟩
  case operationEnds =>
    intro slot op hrun
    refine ⟨?_, fun cause va => ?_⟩
    · obtain ⟨u, hu, hj, hr⟩ := exec_matrixOperationComplete hrun
      exact hends hu hj hr
    · obtain ⟨u, hu, hj, hr⟩ := exec_operationFailure_matrix hrun cause va
      exact hends hu hj hr
  case copyEnds =>
    intro slot j done u' hrun hp hu'
    obtain ⟨u, hu, hj, hc⟩ := exec_copyJobComplete hrun hp hu'
    exact hends hu hj hc
  case row =>
    intro p slot op vals e core sl he hlt hrun hb hcl hp hv hcores
    have hsl : (t.core core).slice = sl := by rw [State.core, hcores]; rfl
    obtain ⟨hrows, hbuffers⟩ := t.enterRow_slice core op vals
    refine ⟨_, t.rowEntering core op vals, exec_rowEnd he hlt hrun hb hcl hp hv, ?_, ?_, ?_, rfl, ?_, rfl, ?_⟩
    · rw [hrows, hsl]
    · rw [hbuffers, hsl]
    · rw [← hp, ← hsl]; rfl
    · rw [← hp, ← hsl]; rfl
    · unfold State.rowEntering
      cases op.drain <;> simp
  case drain =>
    intro p b core hd hw
    refine ⟨_, exec_drainPathWrite hd hw, ?_⟩
    rw [(State.InCores.drained ..).mem, (State.InCores.modSlice ..).mem]
  case crossbar =>
    have hu : (s.modCluster cl Cluster.crossbar).cluster cl = k.crossbar := State.cluster_modCluster ..
    refine ⟨s.modCluster cl Cluster.crossbar, rfl, ?_⟩
    rw [hu]
    refine ⟨rfl, k.crossbar_counters, fun n => ?_, rfl, rfl⟩
    rw [Cluster.crossbar_termTrue, Cluster.termNow_iff]
  case idle =>
    intro g h
    refine ⟨_, exec_limiterStep_idle h, ?_, rfl, rfl⟩
    rw [State.group_modGroup]
  case grant =>
    intro g c r hc hr hlt hd ho
    obtain ⟨hstate, hreq, hend⟩ := s.sliceStart_slice c
    refine ⟨_, exec_limiterStep_grants hr hlt hd hc ho, ?_, ?_, ?_, ?_⟩
    · rw [State.group_modGroup]
    · rw [State.core_modGroup, hstate]
    · rw [State.core_modGroup, hreq]
    · intro slot op hrun stall
      have hstall : s.rowStall c op (8 * posOf c + (s.core c).slice.rows) = stall := rfl
      rw [State.core_modGroup, hend, hrun, State.rowSpan_some, hstall]
end

section
/-! SUPPORT. What a fetch looks at (01 R14, R16; 21 R370 to R376): the pages, the words replaced in code lines and the poison, and of its core the launch
and the lines that it holds. A started context changes none of it, so that its entry passes as it passed before. -/

open Sys2Proof Sys2Proof.Machine

namespace Sys2Proof.Machine

namespace State

/-- A fetch finds the same pages, the same words replaced and the same poison. -/
structure SameCode (s t : State) : Prop extends s.SamePages t where
  overwritten : t.overwritten = s.overwritten
  poison : t.poison = s.poison

/-- Nothing is replaced or poisoned. -/
structure KeepsCode (s t : State) : Prop where
  overwritten : t.overwritten = s.overwritten
  poison : t.poison = s.poison

namespace KeepsCode

theorem refl (s : State) : s.KeepsCode s := ⟨rfl, rfl⟩
theorem trans {s t u : State} (h : s.KeepsCode t) (k : t.KeepsCode u) : s.KeepsCode u := ⟨k.overwritten.trans h.overwritten, k.poison.trans h.poison⟩

theorem post (s : State) (due : Nat) (i : Instr) : s.KeepsCode (s.post due i) := ⟨rfl, rfl⟩

theorem posts {α : Type} {f : State → α → State} (hf : ∀ (s : State) a, s.KeepsCode (f s a)) (s : State) (l : List α) : s.KeepsCode (l.foldl f s) := by
  induction l generalizing s with
  | nil => exact refl s
  | cons a l ih => exact (hf s a).trans (ih _)

/-- A lookup that finds an entry only puts it into a lookaside. -/
theorem lookup {s t : State} {home asker tenant va : Nat} {kind : AccessKind} {e : LookEntry} (h : s.lookup home asker tenant kind va = (t, .ok e)) : s.KeepsCode t := by
  unfold State.lookup at h
  dsimp only at h
  repeat' split at h
  all_goals cases h
  all_goals exact ⟨rfl, rfl⟩

theorem ruling {s t : State} {home asker tenant va : Nat} {kind : AccessKind} {e : LookEntry} (h : s.ruling home asker tenant kind va = (t, .ok e)) : s.KeepsCode t := by
  unfold State.ruling at h
  split at h
  · cases h
  · rename_i u e' hu
    split_ifs at h
    · exact (lookup hu).trans (.trans (t := u.dropPages home tenant va) ⟨rfl, rfl⟩ (lookup h))
    · cases h
      exact lookup hu

end KeepsCode

namespace SameCode

variable {s t : State}

/-- What a write replaces and clears depends on no more than memory and the core cycle. -/
theorem writeMem_code (s : State) (key : Nat) (bytes : List Byte) :
    ({ s with overwritten := s.overwritten ++ s.replacedWords key bytes.length
              poison := s.poison.filter (fun g => !(decide (key ≤ g.1) && decide (g.1 + g.2 ≤ key + bytes.length))) } : State).KeepsCode (s.writeMem key bytes) := by
  unfold State.writeMem writeMemAfter
  refine .trans ?_ ((KeepsCode.posts (fun _ _ => .post ..) _ _).trans (KeepsCode.posts (fun _ _ => .post ..) _ _))
  exact ⟨rfl, rfl⟩

section
variable (h : s.SameCode t)
include h

theorem writeMem (key : Nat) (bytes : List Byte) : (s.writeMem key bytes).SameCode (t.writeMem key bytes) := by
  have hwords : t.replacedWords key bytes.length = s.replacedWords key bytes.length := by simp only [State.replacedWords, h.peek, h.cycle]
  refine ⟨h.toSamePages.writeMem key bytes, ?_, ?_⟩
  · rw [(writeMem_code t key bytes).overwritten, (writeMem_code s key bytes).overwritten, hwords, h.overwritten]
  · rw [(writeMem_code t key bytes).poison, (writeMem_code s key bytes).poison, h.poison]

theorem modDie (d : Nat) (f : Die → Die) : (s.modDie d f).SameCode (t.modDie d f) := ⟨h.toSamePages.modDie d f, h.overwritten, h.poison⟩

/-- A fetch sets A of its leaf (21 R376). -/
theorem setA (home tenant va leaf : Nat) (e : LookEntry) : (s.setAD home tenant va false leaf e).SameCode (t.setAD home tenant va false leaf e) := by
  unfold State.setAD
  simp only [Bool.false_and, Bool.false_eq_true, if_false]
  split_ifs
  · exact h
  · exact (h.writeMem ..).modDie ..

theorem enter {home tenant va : Nat} {e : LookEntry} {s' : State} {r : Nat × LookEntry} (hs : s.enter home tenant .fetch va e = (s', .ok r)) :
    ∃ t', t.enter home tenant .fetch va e = (t', .ok r) ∧ s'.SameCode t' := by
  unfold State.enter at hs ⊢
  cases hc : e.cause .fetch va with
  | some c => simp [hc] at hs
  | none =>
    rw [hc] at hs
    cases hl : e.leaf with
    | none =>
      simp only [hl] at hs ⊢
      cases hs
      exact ⟨_, by rw [h.handedOver], h⟩
    | some leaf =>
      simp only [hl] at hs ⊢
      cases hs
      have hset := h.setA home tenant va leaf e
      exact ⟨_, by simp only [AccessKind.writes, hset.handedOver], hset⟩

theorem translateFrom {asker tenant va : Nat} {s' : State} {r : Nat × LookEntry} (hs : s.translateFrom asker tenant .fetch va = (s', .ok r)) :
    ∃ t', t.translateFrom asker tenant .fetch va = (t', .ok r) ∧ s'.SameCode t' := by
  obtain ⟨hpages, hanswer⟩ := h.toSamePages.ruling (homeDie va) asker tenant .fetch va
  unfold State.translateFrom at hs ⊢
  split_ifs at hs ⊢
  · cases hs
  rcases hp : s.ruling (homeDie va) asker tenant .fetch va with ⟨s1, a⟩
  rcases hq : t.ruling (homeDie va) asker tenant .fetch va with ⟨t1, b⟩
  rw [hp, hq] at hpages hanswer
  rw [hp] at hs
  dsimp only at hpages hanswer
  subst hanswer
  cases b with
  | error c => cases hs
  | ok e =>
    have ks := KeepsCode.ruling hp
    have kt := KeepsCode.ruling hq
    have h1 : s1.SameCode t1 := ⟨hpages, by rw [kt.overwritten, ks.overwritten, h.overwritten], by rw [kt.poison, ks.poison, h.poison]⟩
    exact h1.enter hs

omit h in
theorem launchOf_eq {core : Nat} (hl : t.launches = s.launches) (hlid : (t.core core).lid = (s.core core).lid) : t.launchOf core = s.launchOf core := by
  simp only [State.launchOf, State.launch, hl, hlid]

variable {core : Nat} (hl : t.launches = s.launches) (hlid : (t.core core).lid = (s.core core).lid) (hlines : (t.core core).lines = (s.core core).lines)
include hl hlid

theorem resolveFetch {target : Word} {s' : State} {key : Nat} (hs : s.resolveFetch core target = (s', .ok key)) :
    ∃ t', t.resolveFetch core target = (t', .ok key) ∧ s'.SameCode t' := by
  have htenant : t.tenantOf core = s.tenantOf core := by rw [State.tenantOf, State.tenantOf, launchOf_eq hl hlid]
  unfold State.resolveFetch State.fetchEntry at hs ⊢
  dsimp only at hs ⊢
  split_ifs at hs ⊢
  · cases hs
  · cases hs
  rw [htenant]
  split at hs
  · cases hs
  · rename_i heq
    cases hs
    obtain ⟨t', ht, hst⟩ := h.translateFrom heq
    exact ⟨t', by rw [ht], hst⟩

include hlines

theorem codeWord (line key i : Nat) : (s.codeWord core line key i).1.SameCode (t.codeWord core line key i).1
    ∧ (t.codeWord core line key i).2 = (s.codeWord core line key i).2 := by
  have hissued (n : Nat) : t.issuedBy core n = s.issuedBy core n := by rw [State.issuedBy, State.issuedBy, launchOf_eq hl hlid]
  unfold State.codeWord
  simp only [h.peek, hlines, h.overwritten, hissued, h.free]
  split
  · exact ⟨h, rfl⟩
  · exact ⟨⟨h.toSamePages.drew, h.overwritten, h.poison⟩, rfl⟩

/-- A target that passes where the fetch looks at the same, passes (01 R14). -/
theorem checkTarget {target : Word} {all : Bool} {u : State} (hs : s.checkTarget core target all = (u, none)) : ∃ v, t.checkTarget core target all = (v, none) := by
  unfold State.checkTarget at hs ⊢
  split_ifs at hs ⊢
  · cases hs
  split at hs
  · cases hs
  rename_i s1 key heq
  obtain ⟨t1, ht, h1⟩ := h.resolveFetch hl hlid heq
  have hs1 : s.Same s1 := by simpa only [heq] using Same.resolveFetch s core target
  have ht1 : t.Same t1 := by simpa only [ht] using Same.resolveFetch t core target
  obtain ⟨hcode, hword⟩ := h1.codeWord (core := core) (by rw [ht1.launches, hs1.launches, hl]) (by rw [ht1.core, hs1.core, hlid]) (by rw [ht1.core, hs1.core, hlines])
    (target.toNat / 128 * 128) key 0
  rw [ht]
  dsimp only at hs ⊢
  have hpoison (c n : Nat) : (t1.codeWord core (target.toNat / 128 * 128) key 0).1.poisoned c n = (s1.codeWord core (target.toNat / 128 * 128) key 0).1.poisoned c n := by
    rw [State.poisoned, State.poisoned, hcode.poison]
  rw [hpoison, hword]
  split_ifs at hs ⊢
  iterate 4 cases hs
  exact ⟨_, rfl⟩

end

end SameCode

end State

end Sys2Proof.Machine
end

section
/-! SUPPORT. `work.start` and `work.fork` (08 R176 to R179): the lowest free slot, and the entry state of a started context. -/

open Sys2Proof Sys2Proof.Machine

namespace Sys2Proof.Machine

@[simp] theorem op2_cons (x y z : Word) (l : List Word) : op2 (x :: y :: z :: l) = z := rfl

/-- The first element of an ascending list that has a property is the least one that has it. -/
theorem find?_least {α : Type} [LinearOrder α] {l : List α} {p : α → Bool} {a : α} (hl : l.Pairwise (· < ·)) (ha : a ∈ l) (hp : p a = true)
    (hmin : ∀ b < a, p b = false) : l.find? p = some a := by
  induction l with
  | nil => cases ha
  | cons b l ih =>
    obtain ⟨hb, hl⟩ := List.pairwise_cons.1 hl
    rcases List.mem_cons.1 ha with rfl | ha
    · exact List.find?_cons_of_pos hp
    · rw [List.find?_cons_of_neg (by simp [hmin b (hb a ha)]), ih hl ha]

/-! ### Free slots (13 R268, R269) -/

section
variable (s : State) (core : Nat)

/-- A slot that a start other than a drain row's may take now. -/
def State.TakesStart (n : CtxNo) : Prop := 1 ≤ n.val ∧ ¬(n = 10 ∧ s.slotReserved core = true) ∧ (s.core core).slotFree n s.cycle = true

theorem State.takesStart_iff (n : CtxNo) : (openSlot (s.slotReserved core) n && (s.core core).slotFree n s.cycle) = true ↔ s.TakesStart core n := by
  simp only [openSlot, State.TakesStart, Bool.and_eq_true, Bool.not_eq_true', decide_eq_true_eq, Bool.and_eq_false_iff, decide_eq_false_iff_not]
  grind

variable {s core}

theorem State.freeSlot_eq_none (h : ∀ n, ¬s.TakesStart core n) : s.freeSlot core = none :=
  List.find?_eq_none.2 fun n _ => mt (s.takesStart_iff core n).1 (h n)

theorem State.freeSlot_eq_some {n : CtxNo} (h : s.TakesStart core n) (hmin : ∀ i < n, ¬s.TakesStart core i) : s.freeSlot core = some n :=
  find?_least (List.sortedLT_finRange 11).pairwise (List.mem_finRange n) ((s.takesStart_iff core n).2 h)
    fun i hi => Bool.eq_false_iff.2 (mt (s.takesStart_iff core i).1 (hmin i hi))

theorem State.takesStart_of_freeSlot {n : CtxNo} (h : s.freeSlot core = some n) : s.TakesStart core n := by
  have hp := List.find?_some h
  exact (s.takesStart_iff core n).1 hp

end

/-! ### The entry state (08 R177) -/

/-- A context as a start leaves it: its entry, its arguments in x10 and x11, and nothing else. -/
structure Ctx.Started (x : Ctx) (entry arg0 arg1 : Word) (src : BitVec 4) (role : Role) (from_ : Nat) (trap : Word × Bool) : Prop where
  live : x.live = true
  pc : x.pc = entry
  arg0 : x.getX 10 = arg0
  arg1 : x.getX 11 = arg1
  others : ∀ r : XReg, r ≠ 10 → r ≠ 11 → x.getX r = 0
  src : x.src = src
  role : x.role = role
  readyAt : x.readyAt = from_
  park : x.park = .none
  intrap : x.intrap = false
  outstanding : x.outstanding = []
  trapVec : x.trapVec = trap.1
  whtrap : x.whtrap = trap.2

theorem Ctx.getX_reset (r : XReg) : Ctx.reset.getX r = 0 := by
  unfold Ctx.getX
  split_ifs
  · rfl
  · exact Vector.getElem_replicate r.isLt

theorem State.started_entryState (s : State) (core : Nat) (entry a b : Word) (src : BitVec 4) (role : Role) (from_ n : Nat) :
    Ctx.Started { s.entryState core entry a b src role from_ with serial := n } entry a b src role from_ (s.launchTrap core) where
  live := rfl
  pc := rfl
  arg0 := rfl
  arg1 := rfl
  others := fun r h10 h11 => ((Ctx.getX_setX_ne _ h11 b).trans (Ctx.getX_setX_ne _ h10 a)).trans (Ctx.getX_reset r)
  src := rfl
  role := rfl
  readyAt := rfl
  park := rfl
  intrap := rfl
  outstanding := rfl
  trapVec := rfl
  whtrap := rfl

section
variable {s u : State} {w : CtxId} {c : Ctx}

/-- The state in which a started context stands in its slot, its entry still to be checked. -/
def State.seated (s : State) (w : CtxId) (c : Ctx) : State := { s with serials := s.serials + 1 }.setCtx w { c with serial := s.serials + 1 }

theorem State.placed_eq : s.placed w c = (s.seated w c).checkTarget w.core c.pc true := by rw [State.placed, State.seated]

@[simp] theorem State.ctx_seated : (s.seated w c).ctx w = { c with serial := s.serials + 1 } := State.ctx_setCtx ..

theorem State.ctx_seated_ne {v : CtxId} (h : v ≠ w) : (s.seated w c).ctx v = s.ctx v := (State.ctx_setCtx_ne _ h _).trans rfl

/-- Nothing of a core but one of its contexts differs. -/
theorem State.core_seated (n : Nat) : ∃ l, (s.seated w c).core n = { s.core n with ctxs := l } := by
  by_cases h : n = w.core
  · subst h
    exact ⟨_, State.core_setCtx ..⟩
  · exact ⟨_, State.core_setCtx_ne _ h _⟩

/-- A start whose entry passes its check (01 R14): the context stands in its slot. -/
theorem State.same_startIn (hc : s.checkTarget w.core c.pc true = (u, none)) : (s.seated w c).Same (s.startIn w c) := by
  obtain ⟨l, hcore⟩ := s.core_seated (w := w) (c := c) w.core
  have hcode : s.SameCode (s.seated w c) := ⟨⟨rfl, rfl, rfl, rfl⟩, rfl, rfl⟩
  obtain ⟨v, hv⟩ := hcode.checkTarget rfl (by rw [hcore]) (by rw [hcore]) hc
  have hs := State.Same.checkTarget (s.seated w c) w.core c.pc true
  rw [hv] at hs
  rw [State.startIn, State.placed_eq, hv]
  exact hs

end

/-! ### The words -/

section
variable {s t : State} {sw : Bool} {d a b : XReg}

/-- A word whose scalar result is on its way as it completes, in a state that its body has left. -/
theorem Form.finish_laterX {f : Form} (hl : (s.core s.who.core).leads s.who = false) (hw : t.who = s.who) (hp : (t.core s.who.core).isPort d = false) (lat : Nat)
    (p : Producer) (v : Word) : f.finish s s.who [] [] (.done (t.laterX s.who lat p d v)) = t.afterScalar f.sw lat p d v := by
  rw [Form.finish_done hl, ← hw]
  exact State.retire_laterX (by rw [hw]; exact hp)

variable (hh : s.NoHints) (ht : s.NoTask) (h : s.Clear [.x d, .x a, .x b] [.x d])
include hh ht h

theorem exec_workStart_helper (hw : s.who.ctx ≠ 0) :
    exec (.workStart sw d a b) s = .next (s.raise s.who { cause := .illegal, val := wordOf (.workStart sw d a b) }) := by
  refine (issue_outsideTasks (f := { Form.of (.workStart sw d a b) sw [.x d, .x a, .x b] [.x d] with inTask := false }) _ h hh rfl (.inr ht) rfl rfl).trans ?_
  simp only [hw, ne_eq, not_false_eq_true, if_true, Form.finish_trap]

theorem exec_workStart_full (hw : s.who.ctx = 0) (hf : s.freeSlot s.who.core = none) : exec (.workStart sw d a b) s = .next (s.afterScalar sw 2 .unit d 0) := by
  refine (issue_outsideTasks (f := { Form.of (.workStart sw d a b) sw [.x d, .x a, .x b] [.x d] with inTask := false }) _ h hh rfl (.inr ht) rfl rfl).trans ?_
  simp only [hw, ne_eq, not_true_eq_false, if_false, hf, Form.finish_laterX h.noLead rfl (h.noPort d (by simp))]
  rfl

/-- The state in which `work.start` has started its helper in slot n. -/
def State.helperStarted (s : State) (n : CtxNo) (d a b : XReg) : State :=
  let c := s.ctx s.who
  s.startIn { core := s.who.core, ctx := n } (s.entryState s.who.core (c.getX a) (c.getX b) (c.getX d) 1 .plain (s.cycle + 1))

theorem exec_workStart_takes {n : CtxNo} {u : State} (hw : s.who.ctx = 0) (hf : s.freeSlot s.who.core = some n)
    (hc : s.checkTarget s.who.core ((s.ctx s.who).getX a) true = (u, none)) :
    exec (.workStart sw d a b) s = .next ((s.helperStarted n d a b).afterScalar sw 2 .unit d (BitVec.ofNat 64 n.val)) := by
  have hs : (s.seated _ _).Same (s.helperStarted n d a b) := State.same_startIn hc
  obtain ⟨l, hcore⟩ := State.core_seated (s := s) s.who.core
  have hport : ((s.helperStarted n d a b).core s.who.core).isPort d = false := by
    rw [hs.core, hcore]
    exact h.noPort d (by simp)
  refine (issue_outsideTasks (f := { Form.of (.workStart sw d a b) sw [.x d, .x a, .x b] [.x d] with inTask := false }) _ h hh rfl (.inr ht) rfl rfl).trans ?_
  simp only [hw, ne_eq, not_true_eq_false, if_false, hf, Form.of, xvals_x, xvals_nil, op0_cons, op1_cons, op2_cons]
  exact congrArg _ (Form.finish_laterX h.noLead hs.who hport ..)

theorem exec_workFork : exec (.workFork sw d a b) s = .next (
    if 32 ≤ (s.core s.who.core).deque.length then s.afterScalar sw 2 .unit d 0
    else (s.modCore s.who.core (fun k => k.pushTask { entry := (s.ctx s.who).getX a, arg0 := (s.ctx s.who).getX b, arg1 := (s.ctx s.who).getX d, pushed := s.cycle })).afterScalar
      sw 2 .unit d (BitVec.ofNat 64 ((s.core s.who.core).deque.length + 1))) := by
  refine (issue_outsideTasks (f := { Form.of (.workFork sw d a b) sw [.x d, .x a, .x b] [.x d] with inTask := false }) _ h hh rfl (.inr ht) rfl rfl).trans ?_
  have hport : (s.core s.who.core).isPort d = false := h.noPort d (by simp)
  have hpush (x : DequeTask) : ((s.modCore s.who.core (fun k => k.pushTask x)).core s.who.core).isPort d = false := by
    rw [State.core_modCore]
    exact hport
  dsimp only
  split_ifs
  · exact congrArg _ (Form.finish_laterX h.noLead rfl hport ..)
  · exact congrArg _ (Form.finish_laterX h.noLead (State.modCore_who ..) (hpush _) ..)

end

end Sys2Proof.Machine

/-- Settles O35: a start by whether it may and where it finds a slot, a fork by the room in the deque. -/
theorem startAndForkResult : Obligations.StartAndForkResult := by
  intro s sw d a b h hh ht w c k free
  refine ⟨exec_workStart_helper hh ht h, fun hw hf => exec_workStart_full hh ht h hw (State.freeSlot_eq_none hf), fun hw n hn hmin u hc => ?_, fun hd => ?_, fun hd => ?_⟩
  · have hs : (s.seated _ _).Same (s.helperStarted n d a b) := State.same_startIn hc
    have hne : w ≠ { core := w.core, ctx := n } := fun e => by
      have h0 : n = 0 := (congrArg CtxId.ctx e).symm.trans hw
      have h1 := hn.1
      rw [h0] at h1
      exact absurd h1 (by decide)
    obtain ⟨hlive, hpc, harg0, harg1, hothers, hsrc, -, hready, hpark, hintrap, hout, hvec, hwh⟩ :=
      s.started_entryState w.core (c.getX a) (c.getX b) (c.getX d) 1 .plain (s.cycle + 1) (s.serials + 1)
    exact ⟨_, _, exec_workStart_takes hh ht h hw (State.freeSlot_eq_some hn hmin) hc, by rw [hs.ctx, State.ctx_seated], by rw [hs.ctx, State.ctx_seated_ne hne],
      hlive, hpc, hsrc, harg0, harg1, hready, hpark, hintrap, hout, hothers, hvec, hwh⟩
  · exact (exec_workFork hh ht h).trans (by rw [if_pos hd])
  · exact (exec_workFork hh ht h).trans (by rw [if_neg (Nat.not_le.2 hd)]; rfl)
end

section
/-! SUPPORT. The end of a context (08 R181; 10 R237): its slot is free, and nothing that is due is lost. -/

open Sys2Proof Sys2Proof.Machine

namespace Sys2Proof.Machine

namespace State

variable (s : State)

theorem ctx_endCtx (w : CtxId) (killed : Bool) : ∃ n, (s.endCtx w killed).ctx w = { Ctx.reset with readyAt := n } := by
  unfold endCtx
  dsimp only
  rw [ctx, core_modCore]
  exact ⟨_, Vector.getElem_set_self _⟩

theorem live_endCtx (w : CtxId) (killed : Bool) : ((s.endCtx w killed).ctx w).live = false := by
  obtain ⟨n, hn⟩ := s.ctx_endCtx w killed
  rw [hn]
  rfl

/-! ### The agenda: what is due stays due -/

variable {s} {e : Nat × Instr}

theorem mem_agenda_foldl {α : Type} {f : State → α → State} (hf : ∀ (s : State) (a : α), e ∈ s.agenda → e ∈ (f s a).agenda) (l : List α) (h : e ∈ s.agenda) :
    e ∈ (l.foldl f s).agenda := by
  induction l generalizing s with
  | nil => exact h
  | cons a l ih => exact ih (hf s a h)

theorem mem_agenda_post (due : Nat) (i : Instr) (h : e ∈ s.agenda) : e ∈ (s.post due i).agenda := mem_agendaInsert.2 (.inr h)

theorem mem_agenda_meshSend (core : Nat) (h : e ∈ s.agenda) : e ∈ (s.meshSend core).agenda := by
  unfold meshSend sendMesh startSweep
  dsimp only
  split_ifs <;> exact h

theorem mem_agenda_tagSend (core : Nat) (t : Fin 8) (h : e ∈ s.agenda) : e ∈ (s.tagSend core t).agenda := by
  unfold tagSend tagComplete
  dsimp only
  split_ifs
  · exact mem_agenda_post _ _ h
  · exact h
  · exact h

theorem mem_agenda_withdrawMesh (core : Nat) (arrived : Bool) (h : e ∈ s.agenda) : e ∈ (s.withdrawMesh core arrived).agenda := by
  unfold withdrawMesh
  dsimp only
  split_ifs
  · exact h
  · exact mem_agenda_meshSend _ h

theorem mem_agenda_withdrawTag (core : Nat) (arrived : Bool) (t : Fin 8) (h : e ∈ s.agenda) : e ∈ (s.withdrawTag core arrived t).agenda := by
  unfold withdrawTag
  dsimp only
  split_ifs
  · exact h
  · exact mem_agenda_tagSend _ _ h
  · exact h

theorem mem_agenda_withdraw (core : Nat) (arrivedMesh : Bool) (arrivedTags : BitVec 8) (h : e ∈ s.agenda) : e ∈ (s.withdraw core arrivedMesh arrivedTags).agenda :=
  mem_agenda_foldl (fun _ _ h => mem_agenda_withdrawTag _ _ _ h) _ (mem_agenda_withdrawMesh _ _ h)

theorem mem_agenda_withdrawCtx (w : CtxId) (h : e ∈ s.agenda) : e ∈ (s.withdrawCtx w).agenda := by
  unfold withdrawCtx
  dsimp only
  split_ifs
  · exact mem_agenda_withdraw _ _ _ h
  · exact h

theorem mem_agenda_dropArrival (w : CtxId) (h : e ∈ s.agenda) : e ∈ (s.dropArrival w).agenda := by
  unfold dropArrival withdrawGang
  split
  · dsimp only
    split_ifs <;> exact h
  · exact h

theorem mem_agenda_leaveGang (w : CtxId) (next : Word) (h : e ∈ s.agenda) : e ∈ (s.leaveGang w next).agenda := by
  unfold leaveGang
  dsimp only
  split_ifs
  · rw [modCore_agenda]
    refine mem_agenda_foldl (fun _ _ h => ?_) _ h
    exact h
  · rw [modCore_agenda]
    refine mem_agenda_foldl (fun _ _ h => ?_) _ h
    split_ifs <;> exact h
  · exact h

theorem mem_agenda_drained (core : Nat) (job : BitVec 16) (at_ : Nat) (h : e ∈ s.agenda) : e ∈ (s.drained core job at_).agenda := by
  unfold drained
  dsimp only
  split_ifs
  · exact mem_agenda_post _ _ h
  · exact h
  · exact h

theorem mem_agenda_roleEnd (w : CtxId) (killed : Bool) (h : e ∈ s.agenda) : e ∈ (s.roleEnd w killed).agenda := by
  unfold roleEnd
  dsimp only
  split
  · exact h
  · split_ifs
    · exact h
    · exact mem_agenda_drained _ _ _ h
  · exact h
  · exact h
  · split_ifs <;> exact h
  · exact h

theorem mem_agenda_endCtx (w : CtxId) (killed : Bool) (h : e ∈ s.agenda) : e ∈ (s.endCtx w killed).agenda := by
  unfold endCtx
  dsimp only
  rw [modCore_agenda]
  exact mem_agenda_withdrawCtx w (mem_agenda_roleEnd w killed (mem_agenda_leaveGang w _ (mem_agenda_dropArrival w h)))

end State

end Sys2Proof.Machine
end

section
/-! SUPPORT. The words of the work group but `work.start` and `work.fork` (08 R180 to R187; 13 R272). -/

open Sys2Proof Sys2Proof.Machine

namespace Sys2Proof.Machine

section
variable {s t : State} {w : CtxId} {a : Access}

/-! ### Accesses -/

theorem State.readScalar_reaches {sz : Size} {va : Word} (ht : s.NoTask) (h : s.Reaches .read va sz.bytes t a) (hl : t.loadPoison a sz.bytes = none) (sext : Bool) :
    s.readScalar s.who va sz sext = (t, .ok (a, extend sext sz (leValue (Memory.readBytes t.mem a.key sz.bytes)), a.lat)) := by
  have hs := State.Same.resolve s s.who.core .read va sz.bytes
  rw [h.resolves] at hs
  have hrole : ∀ n, (t.ctx s.who).role ≠ .task n := by rw [hs.ctx]; exact ht
  have hdelay : t.loadDelay s.who va.toNat a.key sz.bytes = 0 := by
    unfold State.loadDelay
    split
    · exact absurd ‹_› (hrole _)
    · rfl
  have hbytes : t.loadBytes s.who va.toNat a.key sz.bytes = Memory.readBytes t.mem a.key sz.bytes := by
    unfold State.loadBytes
    split
    · exact absurd ‹_› (hrole _)
    · rfl
  have hcheck : t.loadCheck s.who a va.toNat sz.bytes = none := by
    unfold State.loadCheck
    split
    · exact absurd ‹_› (hrole _)
    · exact hl
  simp [State.readScalar, h.aligned, h.resolves, hcheck, hbytes, hdelay, State.resolve_notControl h.resolves]

/-- A doubleword of memory is 0 where its bytes are. -/
theorem extend_doubleword_eq_zero_iff (m : Memory) (key : Nat) : extend false .d (leValue (Memory.readBytes m key 8)) = 0 ↔ leValue (Memory.readBytes m key 8) = 0 := by
  have hlt : leValue (Memory.readBytes m key 8) < 2 ^ 64 :=
    (leValue_lt _).trans_le (by rw [Memory.length_readBytes]; norm_num)
  rw [extend, if_neg (by decide), ← BitVec.toNat_inj, BitVec.toNat_ofNat, Nat.mod_eq_of_lt hlt]
  rfl

/-- An access outside ordered tasks that nothing holds back. -/
theorem withLines_withPort {core va n : Nat} {go : State → Body} (ht : ∀ m, (t.ctx w).role ≠ .task m) (hw : a.beyond = true → (t.core core).beyond < (t.core core).wn)
    (hp : t.portServes core a = true) : withLines t w va n (fun u => withPort core a u go) = go (t.served core a) := by
  rw [withLines, State.heldLines_noTask ht]
  exact withPort_served hw hp

/-- The butterfly port of an access notes its service; nothing else of a core differs. -/
theorem State.core_servePort (s : State) (core : Nat) (a : Access) (n : Nat) :
    ∃ p q, (s.servePort core a).core n = { s.core n with clusterPort := p, groupPort := q } := by
  unfold State.servePort State.modButterfly
  split
  · rename_i p _
    by_cases hn : n = p.1
    · rw [hn, State.core_modCore]
      split_ifs
      · exact ⟨_, _, rfl⟩
      · exact ⟨_, _, rfl⟩
    · rw [State.core_modCore_ne _ hn]
      exact ⟨_, _, rfl⟩
  · exact ⟨_, _, rfl⟩

theorem State.samePages_servePort (s : State) (core : Nat) (a : Access) : s.SamePages (s.servePort core a) := by
  unfold State.servePort
  split <;> exact ⟨rfl, rfl, rfl, rfl⟩

theorem State.launches_servePort (s : State) (core : Nat) (a : Access) : (s.servePort core a).launches = s.launches := by
  unfold State.servePort
  split <;> rfl

theorem State.ctx_servePort (s : State) (core : Nat) (a : Access) (w : CtxId) : (s.servePort core a).ctx w = s.ctx w := by
  obtain ⟨p, q, h⟩ := s.core_servePort core a w.core
  rw [State.ctx, State.ctx, h]

/-- The service of a port is none for a translation. -/
theorem State.resolve_servePort {core n : Nat} {kind : AccessKind} {va : Word} {b : Access} (h : s.resolve core kind va n = (t, .ok b)) (c : Nat) :
    ∃ u, (s.servePort c a).resolve core kind va n = (u, .ok b) := by
  obtain ⟨-, hanswer⟩ := (s.samePages_servePort c a).resolve core kind va n (s.launches_servePort c a) fun m => by
    obtain ⟨p, q, hm⟩ := s.core_servePort c a m
    rw [hm]
    exact ⟨rfl, rfl, rfl⟩
  rw [h] at hanswer
  exact ⟨_, Prod.ext rfl hanswer⟩

/-- A word that reads an aligned card in the own window parks while it is read (02 R433, 07 R171). -/
theorem cardBody_parks {align n : Nat} {va : Word} {d : XReg} {p : Nat → Park} (hal : va.toNat % align = 0) (hown : va.toNat + 8 * n ≤ 0x18000)
    (hp : (s.core s.who.core).isPort d = false) (hr : s.readOwn s.who va (8 * n) = (t, none)) :
    cardBody align n va s (fun u from_ => .park (u.reserveX u.who d) (p from_)) = .park t (p (s.cycle + 2)) := by
  have hs : s.Same t := by simpa only [hr] using State.Same.readOwn s s.who va (8 * n)
  have hport : (t.core t.who.core).isPort d = false := by rw [hs.core, hs.who]; exact hp
  simp only [cardBody, hal, ne_eq, not_true_eq_false, if_false, inOwn, hown, decide_true, Bool.not_true, Bool.false_eq_true, hr, State.reserveX_eq hport, hs.cycle]

theorem cardBody_misaligned {align n : Nat} {va : Word} {park : State → Nat → Body} (hal : va.toNat % align ≠ 0) :
    cardBody align n va s park = .trap s { cause := .misaligned, val := va } := if_pos hal

theorem cardBody_outside {align n : Nat} {va : Word} {park : State → Nat → Body} (hal : va.toNat % align = 0) (hown : 0x18000 < va.toNat + 8 * n) :
    cardBody align n va s park = .trap s { cause := .protection, val := va } := by
  simp [cardBody, hal, inOwn, Nat.not_le.2 hown]

end

/-! ### join -/

section
variable {s t : State} {sw : Bool} {a : XReg} {at_ : Access}

theorem exec_workJoin (hh : s.NoHints) (h : s.Clear [.x a] []) (ht : s.NoTask) (hr : s.Reaches .read ((s.ctx s.who).getX a) 8 t at_)
    (hw : inGroupWindow s.who.core ((s.ctx s.who).getX a).toNat = true) (hl : t.loadPoison at_ 8 = none) :
    exec (.workJoin sw a) s = .next (
      if leValue (Memory.readBytes t.mem at_.key 8) = 0 then (t.served s.who.core at_).afterWord sw id
      else ((t.served s.who.core at_).modCtx s.who (fun c => { c with readyAt := s.cycle + at_.lat + 1 })).parkedIn (.joining ((s.ctx s.who).getX a) at_.key sw)) := by
  have hs : s.Same t := by simpa only [hr.resolves] using State.Same.resolve s s.who.core .read ((s.ctx s.who).getX a) 8
  have hwho : (t.served s.who.core at_).who = s.who := by rw [State.served_who, hs.who]
  have hread := State.readScalar_reaches (sz := .d) ht hr hl false
  refine (issue_outsideTasks (f := Form.of (.workJoin sw a) sw [.x a] []) _ h hh rfl (.inl rfl) rfl rfl).trans ?_
  simp only [Form.of, xvals_x, xvals_nil, op0_cons, hr.aligned, ne_eq, not_true_eq_false, if_false, hw, Bool.not_true, Bool.false_eq_true, hread]
  rw [withLines_withPort (by rw [hs.ctx]; exact ht) hr.window hr.port]
  simp only [Size.bytes, extend_doubleword_eq_zero_iff]
  split_ifs
  · rw [Form.finish_done h.noLead, State.afterWord, State.after, hwho]
    rfl
  · rw [Form.finish_park h.noLead, State.parkedIn, State.modCtx_who, hwho, State.served_cycle, hs.cycle]

end

/-! ### exit -/

section
variable {s t : State} {sw : Bool} {a : XReg} {at_ : Access} (hh : s.NoHints) (h : s.Clear [.x a] [])
include hh h

/-- The counter that `work.exit` names. -/
def State.exitCounter (s : State) (a : XReg) : Option Word := if a = 0 then none else some ((s.ctx s.who).getX a)

theorem exec_workExit_waits (ho : (s.ctx s.who).outstanding ≠ []) (hr : ∀ n, (s.ctx s.who).role ≠ .exit n) :
    exec (.workExit sw a) s = .next (s.parkedIn (.exiting (s.exitCounter a))) := by
  refine (issue_outsideTasks (f := Form.of (.workExit sw a) sw [.x a] []) _ h hh rfl (.inl rfl) rfl rfl).trans ?_
  have hcounter : (if a = 0 then none else some (op0 (xvals (s.ctx s.who) [.x a]))) = s.exitCounter a := rfl
  simp only [Form.of, hcounter, List.isEmpty_iff, ho, if_false, Form.finish_parkedIn (.refl s) h.noLead]

/-- An exit helper's record leaves its set as the word issues (18 R344), and the context waits. -/
theorem exec_workExit_waits_exit {n : Nat} (ho : (s.ctx s.who).outstanding ≠ []) (hr : (s.ctx s.who).role = .exit n) :
    ∃ u, exec (.workExit sw a) s = .next u ∧ (u.ctx s.who).park = .exiting (s.exitCounter a) ∧ (u.ctx s.who).outstanding = (s.ctx s.who).outstanding := by
  refine ⟨_, issue_outsideTasks (f := Form.of (.workExit sw a) sw [.x a] []) _ h hh rfl (.inl rfl) rfl rfl, ?_⟩
  have hcounter : (if a = 0 then none else some (op0 (xvals (s.ctx s.who) [.x a]))) = s.exitCounter a := rfl
  simp only [Form.of, hcounter, List.isEmpty_iff, ho, if_false, hr]
  split_ifs
  · rw [Form.finish_park h.noLead, State.ctx_modCtx, State.ctx_modCtx, State.ctx_modCluster]
    exact ⟨rfl, rfl⟩
  · rw [Form.finish_park h.noLead, State.ctx_modCtx]
    exact ⟨rfl, rfl⟩

theorem exec_workExit_ends (ho : (s.ctx s.who).outstanding = []) (hp : (s.ctx s.who).popped = []) (ha : a = 0) :
    exec (.workExit sw a) s = .next (s.endCtx s.who false) := by
  refine (issue_outsideTasks (f := Form.of (.workExit sw a) sw [.x a] []) _ h hh rfl (.inl rfl) rfl rfl).trans ?_
  simp only [ho, List.isEmpty_nil, if_true, ha, State.exitCheck, State.doExit, State.returnCredits, hp]
  rw [Form.finish_ended h.noLead]

/-- The decrement of the counter is on its way as the context ends. -/
theorem exec_workExit_decrements (ht : s.NoTask) (hp : (s.ctx s.who).popped = []) (ho : (s.ctx s.who).outstanding = []) (ha : a ≠ 0)
    (hal : ((s.ctx s.who).getX a).toNat % 8 = 0) (hr : s.resolve s.who.core .atomic ((s.ctx s.who).getX a) 8 = (t, .ok at_))
    (hw : at_.beyond = true → (t.core s.who.core).beyond < (t.core s.who.core).wn) (hport : t.portServes s.who.core at_ = true) :
    ∃ u i, exec (.workExit sw a) s = .next (State.endCtx u s.who false) ∧ (s.cycle, Instr.amoHomeApply (exitRequest i ((s.ctx s.who).getX a) at_)) ∈ u.agenda := by
  have hs : s.Same t := by simpa only [hr] using State.Same.resolve s s.who.core .atomic ((s.ctx s.who).getX a) 8
  have hfull : (s.core s.who.core).windowFull at_ = false := by
    rw [← hs.core, Core.windowFull, Bool.and_eq_false_imp]
    exact fun hb => decide_eq_false (Nat.not_le.2 (hw hb))
  have hserves : s.portServes s.who.core at_ = true := by
    rw [← hport]
    simp only [State.portServes, hs.core, hs.deciding, hs.cycle]
  obtain ⟨u, hu⟩ := State.resolve_servePort (a := at_) hr s.who.core
  have hsu : (s.servePort s.who.core at_).Same u := by simpa only [hu] using State.Same.resolve (s.servePort s.who.core at_) s.who.core .atomic ((s.ctx s.who).getX a) 8
  have hctx : u.ctx s.who = s.ctx s.who := by rw [hsu.ctx, State.ctx_servePort]
  have hcycle : u.cycle = s.cycle := hsu.cycle.trans (s.samePages_servePort ..).cycle
  have htask (r : Role) (hr : ∀ n, r ≠ .task n) : r.isTask = false := by
    cases r with
    | task n => exact absurd rfl (hr n)
    | _ => rfl
  refine ⟨((u.modCtx s.who (fun c => { c with unacked := c.unacked + 1 })).countBeyond s.who.core at_.beyond).post s.cycle (.amoHomeApply (exitRequest
    ((u.modCtx s.who (fun c => { c with unacked := c.unacked + 1 })).issuer s.who) ((s.ctx s.who).getX a) at_)) |>.drew, _, ?_, State.mem_post⟩
  refine (issue_outsideTasks (f := Form.of (.workExit sw a) sw [.x a] []) _ h hh rfl (.inl rfl) rfl rfl).trans ?_
  simp only [Form.of, xvals_x, xvals_nil, op0_cons, ho, List.isEmpty_nil, if_true, ha, if_false, State.exitCheck, hal, ne_eq, not_true_eq_false, hr, hfull,
    Bool.false_eq_true, hserves, State.doExit, hu]
  rw [Form.finish_ended h.noLead]
  have hcredits : u.returnCredits s.who = u := by simp only [State.returnCredits, hctx, hp, List.isEmpty_nil, if_true]
  simp only [State.ctx_servePort, htask _ ht, Bool.false_eq_true, if_false, hcredits, hctx]
  split
  · exact absurd ‹_› (ht _)
  · simp only [State.modCtx_cycle, hcycle]

end

/-! ### hold, release, migrate, launch and yield -/

section
variable {s t : State} {sw : Bool} {a d : XReg} (hh : s.NoHints)
include hh

section
variable (h : s.Clear [.x a] [.x d])
include h

theorem exec_workHold : exec (.workHold sw d a) s =
    .next ((s.modCore s.who.core (fun k => { k with hold := (s.core s.who.core).hold ||| ((s.ctx s.who).getX a).setWidth 8 })).afterScalar sw 1 .unit d
      ((s.core s.who.core).hold.setWidth 64)) := by
  have hport (x : BitVec 8) : ((s.modCore s.who.core (fun k => { k with hold := k.hold ||| x })).core s.who.core).isPort d = false := by
    rw [State.core_modCore]
    exact h.noPort d (by simp)
  refine (issue_outsideTasks (f := Form.of (.workHold sw d a) sw [.x a] [.x d]) _ h hh rfl (.inl rfl) rfl rfl).trans ?_
  exact congrArg _ (Form.finish_laterX h.noLead (State.modCore_who ..) (hport _) ..)

theorem exec_workRelease : exec (.workRelease sw d a) s =
    .next ((s.modCore s.who.core (fun k => { k with hold := (s.core s.who.core).hold &&& ~~~(((s.ctx s.who).getX a).setWidth 8) })).afterScalar sw 1 .unit d
      ((s.core s.who.core).hold.setWidth 64)) := by
  have hport (x : BitVec 8) : ((s.modCore s.who.core (fun k => { k with hold := k.hold &&& ~~~x })).core s.who.core).isPort d = false := by
    rw [State.core_modCore]
    exact h.noPort d (by simp)
  refine (issue_outsideTasks (f := Form.of (.workRelease sw d a) sw [.x a] [.x d]) _ h hh rfl (.inl rfl) rfl rfl).trans ?_
  exact congrArg _ (Form.finish_laterX h.noLead (State.modCore_who ..) (hport _) ..)

variable (ht : s.NoTask)
include ht

/-- `work.migrate` (08 R187): the control context and a core outside the berth trap, the own core is the answer, and another one is waited for. -/
theorem exec_workMigrate {target : Nat} (hx : ((s.ctx s.who).getX a).toNat % 2 ^ 18 = target) : exec (.workMigrate sw d a) s = .next (
    if s.who.ctx = 0 then s.raise s.who { cause := .illegal, val := wordOf (.workMigrate sw d a) }
    else if s.inBerth s.who.core target = false then s.raise s.who { cause := .protection, val := (s.ctx s.who).getX a }
    else if target = s.who.core then s.afterScalar sw 1 .unit d (BitVec.ofNat 64 target)
    else s.parkedIn (.migrating target d sw)) := by
  have hport : (s.core s.who.core).isPort d = false := h.noPort d (by simp)
  refine (issue_outsideTasks (f := { Form.of (.workMigrate sw d a) sw [.x a] [.x d] with inTask := false }) _ h hh rfl (.inr ht) rfl rfl).trans ?_
  simp only [Form.of, xvals_x, xvals_nil, op0_cons, State.reserveX_eq hport, hx, Bool.not_eq_true']
  split_ifs
  · rw [Form.finish_trap]
  · rw [Form.finish_trap]
  · rw [Form.finish_laterX h.noLead rfl hport]
  · rw [Form.finish_parkedIn (.refl s) h.noLead]

theorem exec_workLaunch_parks (hal : ((s.ctx s.who).getX a).toNat % 32 = 0) (hown : ((s.ctx s.who).getX a).toNat + 32 ≤ 0x18000)
    (hr : s.readOwn s.who ((s.ctx s.who).getX a) 32 = (t, none)) :
    exec (.workLaunch sw d a) s = .next (t.parkedIn (.launching ((s.ctx s.who).getX a) none [] d sw)) := by
  have hs : s.Same t := by simpa only [hr] using State.Same.readOwn s s.who ((s.ctx s.who).getX a) 32
  refine (issue_outsideTasks (f := { Form.of (.workLaunch sw d a) sw [.x a] [.x d] with inTask := false }) _ h hh rfl (.inr ht) rfl rfl).trans ?_
  simp only [Form.of, xvals_x, xvals_nil, op0_cons]
  rw [cardBody_parks (n := 4) (p := fun _ => .launching ((s.ctx s.who).getX a) none [] d sw) hal hown (h.noPort d (by simp)) hr, Form.finish_parkedIn hs h.noLead]

end

theorem exec_workYield (h : s.Clear [] []) : exec (.workYield sw) s = .next (
    if s.who.ctx ≠ 0 ∧ (s.core s.who.core).inGang s.who = false ∧ s.startsWait s.who.core = true ∧ 1024 ≤ (s.core s.who.core).spillRoom then s.parkedIn (.yielding sw)
    else s.afterWord sw id) := by
  refine (issue_outsideTasks (f := Form.of (.workYield sw) sw [] []) _ h hh rfl (.inl rfl) rfl rfl).trans ?_
  simp only [Bool.and_eq_true, Bool.not_eq_true', decide_eq_true_eq, and_assoc]
  split_ifs
  · rw [Form.finish_parkedIn (.refl s) h.noLead]
  · rw [Form.finish_done h.noLead]
    rfl

end

end Sys2Proof.Machine

/-- Settles O36, word by word. -/
theorem workWords : Obligations.WorkWords := by
  intro s t at_ sw d a hh w c va low old
  refine ⟨fun h ht hr hw hl => ⟨fun h0 => ?_, fun h0 => ?_⟩, fun h ht hp => ⟨exec_workExit_waits hh h, fun n ho hr => exec_workExit_waits_exit hh h ho hr, fun ho ha => ?_,
    fun ho ha hal hr hw hport => ?_⟩, fun h => ⟨exec_workHold hh h, exec_workRelease hh h⟩,
    fun h ht => ⟨fun hc hb he => ?_, fun hc hb he => ?_, fun hc hb => ?_, fun hc => ?_, exec_workLaunch_parks hh h ht⟩, fun h => ⟨fun hno => ?_, fun hc hg hs hroom => ?_⟩⟩
  · exact (exec_workJoin hh h ht hr hw hl).trans (by rw [if_pos h0])
  · exact (exec_workJoin hh h ht hr hw hl).trans (by rw [if_neg h0])
  · exact ⟨exec_workExit_ends hh h ho hp ha, s.live_endCtx w false⟩
  · obtain ⟨u, i, hu, hmem⟩ := exec_workExit_decrements (sw := sw) hh h ht hp ho ha hal hr hw hport
    exact ⟨_, hu, u.live_endCtx w false, _, State.mem_agenda_endCtx w false hmem, rfl, rfl, rfl, rfl, rfl⟩
  · exact (exec_workMigrate hh h ht rfl).trans (by rw [if_neg hc, if_neg (Bool.not_eq_false _ ▸ hb), if_pos he])
  · exact (exec_workMigrate hh h ht rfl).trans (by rw [if_neg hc, if_neg (Bool.not_eq_false _ ▸ hb), if_neg he])
  · exact (exec_workMigrate hh h ht rfl).trans (by rw [if_neg hc, if_pos hb])
  · exact (exec_workMigrate hh h ht rfl).trans (by rw [if_pos hc])
  · refine (exec_workYield hh h).trans (congrArg _ (if_neg fun ⟨hc, hg, hs, hroom⟩ => ?_))
    rcases hno with h0 | h0 | h0 | h0
    · exact hc h0
    · exact absurd (hg.symm.trans h0) (by decide)
    · exact absurd (h0.symm.trans hs) (by decide)
    · exact absurd hroom (Nat.not_le.2 h0)
  · exact (exec_workYield hh h).trans (by rw [if_pos ⟨hc, hg, hs, hroom⟩])
end

section
/-! SUPPORT. The words of ordered tasks (08 R189 to R197): the order of tasks, the lowest free entry of a launch's table, and the card of a submission. -/

open Sys2Proof Sys2Proof.Machine
namespace Sys2Proof.Machine

/-! ### The order of tasks and the last commit (08 R190, R192) -/

theorem tsLess_iff (p q : Nat × Nat) : tsLess p q = true ↔ p.1 < q.1 ∨ p.1 = q.1 ∧ p.2 < q.2 := by simp [tsLess]

theorem Commits.passed_of_last {c : Commits} {p q : Nat × Nat} (h : c.last = some q) (hp : p.1 < q.1 ∨ p.1 = q.1 ∧ p.2 ≤ q.2) : c.passed p = true := by
  have hq : ¬ tsLess q p = true := fun hl => by
    have := (tsLess_iff q p).1 hl
    omega
  rw [Commits.passed, h]
  exact congrArg not (Bool.eq_false_iff.2 hq)

theorem Commits.passed_eq_false {c : Commits} {p : Nat × Nat} (h : ∀ q, c.last = some q → q.1 < p.1 ∨ q.1 = p.1 ∧ q.2 < p.2) : c.passed p = false := by
  unfold Commits.passed
  split
  · exact congrArg not ((tsLess_iff _ p).2 (h _ ‹_›))
  · rfl

/-! ### Entries of a table (08 R192) -/

section
variable {d : Die} {lid n : Nat}

/-- A submission may take entry n of a launch's table. -/
def Die.vacant (d : Die) (lid n : Nat) : Bool := match kget (lid * 512 + n) d.tasks with | some t => !t.open_ | none => true

theorem Die.vacant_iff : d.vacant lid n = true ↔ ∀ t, kget (lid * 512 + n) d.tasks = some t → t.open_ = false := by
  unfold Die.vacant
  split <;> rename_i h
  · simp [h]
  · simp [h]

theorem Die.freeTask_eq_find (d : Die) (lid : Nat) : d.freeTask lid = (List.range 512).find? (d.vacant lid) := rfl

theorem Die.freeTask_eq_none (h : ∀ n < 512, ¬ d.vacant lid n = true) : d.freeTask lid = none := by
  rw [Die.freeTask_eq_find, List.find?_eq_none]
  exact fun n hn => h n (List.mem_range.1 hn)

theorem Die.freeTask_eq_some (hn : n < 512) (hv : d.vacant lid n = true) (hmin : ∀ m < n, ¬ d.vacant lid m = true) : d.freeTask lid = some n :=
  find?_least List.pairwise_lt_range (List.mem_range.2 hn) hv fun m hm => Bool.eq_false_iff.2 (hmin m hm)

end

theorem State.enterTask_full {s : State} {die : Nat} {t : OTask} (hf : (s.die die).freeTask t.lid = none) : s.enterTask die t = (s, none) := by
  unfold State.enterTask
  extract_lets
  split <;> rename_i heq
  · rfl
  · cases hf.symm.trans heq

theorem State.enterTask_enters {s : State} {die n : Nat} {t : OTask} (hf : (s.die die).freeTask t.lid = some n) :
    s.enterTask die t = (s.setDie die { s.die die with
      tasks := kset (t.lid * 512 + n) { t with gen := (s.die die).nextGen (t.lid * 512 + n) } (s.die die).tasks }, some (t.lid * 512 + n)) := by
  unfold State.enterTask
  extract_lets
  split <;> rename_i heq
  · cases hf.symm.trans heq
  · cases hf.symm.trans heq
    rfl

theorem State.enterTask_cycle (s : State) (die : Nat) (t : OTask) : (s.enterTask die t).1.cycle = s.cycle := by
  unfold State.enterTask
  extract_lets
  split <;> rfl

theorem OTask.ident_of_place (t : OTask) (lid : Nat) {n : Nat} (hn : n < 512) : t.ident (lid * 512 + n) = BitVec.ofNat 64 (t.gen * 512 + n) := by
  rw [OTask.ident, Nat.mul_comm, Nat.mul_add_mod_of_lt hn]

/-! ### A submission (08 R192) -/

/-- KEY is the top of its doubleword. -/
theorem bits_top (v : Word) : bits v.toNat 63 48 = v.toNat / 2 ^ 48 := Nat.mod_eq_of_lt (by have := v.isLt; omega)

/-- The entry is the rest of it. -/
theorem ofNat_bits_entry (v : Word) : BitVec.ofNat 64 (bits v.toNat 47 0) = v &&& 0xFFFFFFFFFFFF := by
  apply BitVec.eq_of_toNat_eq
  rw [BitVec.toNat_and, BitVec.toNat_ofNat, show BitVec.toNat (0xFFFFFFFFFFFF : Word) = 2 ^ 48 - 1 from rfl, Nat.and_two_pow_sub_one_eq_mod, bits]
  omega

/-- The (TS, KEY) that a card gives. -/
def cardOrder (card : List Word) : Nat × Nat := ((card.getD 0 0).toNat, bits (card.getD 1 0).toNat 63 48)

/-- A task as a context outside ordered tasks submits it. -/
def State.submitted (s : State) (w : CtxId) (card : List Word) (foot : List FootRange) : OTask :=
  { OTask.fresh (cardOrder card).1 (cardOrder card).2 (BitVec.ofNat 64 (bits (card.getD 1 0).toNat 47 0)) (card.getD 2 0) foot (s.core w.core).lid s.cycle with
    cluster := clusterOf w.core, parent := none, fp := bits (card.getD 3 0).toNat 47 0 }

section
variable {s : State} {w : CtxId} {card : List Word} {foot : List FootRange} (ht : s.taskOf w = none)
include ht

theorem State.submitTask_passed (hp : ((s.die (dieOf w.core)).commitsOf (s.core w.core).lid).passed (cardOrder card) = true) :
    s.submitTask w card foot = (s, 1) := by
  unfold State.submitTask
  simp only [ht]
  exact if_pos hp

variable (hp : ((s.die (dieOf w.core)).commitsOf (s.core w.core).lid).passed (cardOrder card) = false)
include hp

theorem State.submitTask_full (hf : (s.die (dieOf w.core)).freeTask (s.core w.core).lid = none) : s.submitTask w card foot = (s, 0) := by
  have henter : s.enterTask (dieOf w.core) (s.submitted w card foot) = (s, none) := State.enterTask_full hf
  unfold State.submitTask
  simp only [ht]
  refine (if_neg (Bool.eq_false_iff.1 hp)).trans ?_
  split <;> rename_i heq
  · exact congrArg (·, 0) (congrArg Prod.fst (heq.symm.trans henter))
  · cases heq.symm.trans henter

theorem State.submitTask_enters {n : Nat} (hn : n < 512) (hf : (s.die (dieOf w.core)).freeTask (s.core w.core).lid = some n) :
    ∃ gen, gen = (s.die (dieOf w.core)).nextGen ((s.core w.core).lid * 512 + n)
      ∧ s.submitTask w card foot = (s.setDie (dieOf w.core) { s.die (dieOf w.core) with
          tasks := kset ((s.core w.core).lid * 512 + n) { s.submitted w card foot with gen := gen } (s.die (dieOf w.core)).tasks }, BitVec.ofNat 64 (gen * 512 + n)) := by
  refine ⟨_, rfl, ?_⟩
  have henter := State.enterTask_enters (t := s.submitted w card foot) hf
  unfold State.submitTask
  simp only [ht]
  refine (if_neg (Bool.eq_false_iff.1 hp)).trans ?_
  split <;> rename_i heq
  · cases heq.symm.trans henter
  · obtain ⟨rfl, hkey⟩ := Prod.ext_iff.1 (heq.symm.trans henter)
    cases hkey
    simp only [State.die_setDie, State.submitted, OTask.fresh, kget_kset_same]
    exact congrArg _ (OTask.ident_of_place _ _ hn)

end

/-! ### The card of a submission (08 R190) -/

/-- Of a task card only FP has reserved bits. -/
theorem dwFault_taskCard (va a b c e : Word) :
    dwFault va taskCardCheck [a, b, c, e] = if e.toNat < 2 ^ 48 then none else some { cause := .reservedField, val := va + 24 } := by
  simp only [← bits_high_eq_zero_iff e (n := 48) (by decide)]
  by_cases h : bits e.toNat 63 48 = 0 <;> simp [dwFault, taskCardCheck, refuse, h]

section
variable {s t : State} {w : CtxId} {va : Word} {n : Nat} {got ds : List Word} {d : XReg} {sw : Bool}
  (hk : (s.ctx w).park = .otaskSub va n got d sw) (hg : got.length < 4) (hr : s.readCard w va 4 n got = (t, .ok ds))
include hk hg hr

theorem State.pollOtaskSub_reads (hd : ds.length < 4) : ((s.pollOtaskSub w).ctx w).park = .otaskSub va n ds d sw := by
  simp only [State.pollOtaskSub, hk, hg, if_true, hr, hd, State.ctx_modCtx]

theorem State.pollOtaskSub_read (hd : ds.length = 4) : s.pollOtaskSub w = t.cardRead w va n ds d sw := by
  simp only [State.pollOtaskSub, hk, hg, if_true, hr, hd, lt_irrefl, if_false]

end

theorem State.submitTask_cycle (s : State) (w : CtxId) (card : List Word) (foot : List FootRange) : (s.submitTask w card foot).1.cycle = s.cycle := by
  unfold State.submitTask
  dsimp only
  split_ifs
  · rfl
  · split <;> rename_i heq <;> exact (congrArg (fun p => p.1.cycle) heq).symm.trans (State.enterTask_cycle ..)

theorem State.cardRead_of_card {s : State} {w : CtxId} {va a b c e : Word} {n : Nat} {d : XReg} {sw : Bool} :
    (e.toNat < 2 ^ 48 → e = 0 → s.cardRead w va n [a, b, c, e] d sw
        = (s.submitTask w [a, b, c, e] []).1.completeX w d (s.submitTask w [a, b, c, e] []).2 sw s.cycle)
      ∧ (2 ^ 48 ≤ e.toNat → s.cardRead w va n [a, b, c, e] d sw = s.raiseParked w d { cause := .reservedField, val := va + 24 })
      ∧ (e.toNat < 2 ^ 48 → e.toNat % 8 ≠ 0 → s.cardRead w va n [a, b, c, e] d sw = s.raiseParked w d { cause := .misaligned, val := e }) := by
  refine ⟨fun hlt h0 => ?_, fun hle => ?_, fun hlt hal => ?_⟩
  · simp only [State.cardRead, dwFault_taskCard, if_pos hlt, List.getD_cons_succ, List.getD_cons_zero, if_pos h0, State.submitTask_cycle]
  · simp only [State.cardRead, dwFault_taskCard, Nat.not_lt.2 hle, if_false]
  · have h0 : e ≠ 0 := fun h0 => hal (by rw [h0]; rfl)
    simp only [State.cardRead, dwFault_taskCard, hlt, if_true, List.getD_cons_succ, List.getD_cons_zero, h0, if_false, ne_eq, hal, not_false_eq_true]

/-! ### The words -/

section
variable {s t : State} {sw : Bool} {d a : XReg}

theorem State.markOut_drew (w : CtxId) (d : Dest) (p : Producer) : (s.markOut w d p).drew = s.drew.markOut w d p := by
  unfold State.markOut
  split_ifs <;> rfl

theorem State.laterX_drew {w : CtxId} (hp : (s.core w.core).isPort d = false) (lat : Nat) (p : Producer) (v : Word) :
    (s.laterX w lat p d v).drew = s.drew.laterX w lat p d v := by
  simp only [State.laterX, State.later, Result.plain, State.core_drew, hp, Bool.false_eq_true, if_false]
  split_ifs
  · rfl
  · rw [← State.markOut_drew]
    rfl

theorem State.taskStatus_of_early {core ident : Nat} (h : ident < 512) : s.taskStatus core ident = 4 := if_pos h

theorem State.taskStatus_of_entry {core ident : Nat} {o : OTask} (h : 512 ≤ ident)
    (ho : kget ((s.core core).lid * 512 + ident % 512) (s.die (dieOf core)).tasks = some o) (hg : o.gen = ident / 512) :
    s.taskStatus core ident = min 255 o.runs * 2 ^ 8 + (if o.held.isSome then 8 else 0) + o.state := by
  rw [State.taskStatus, if_neg (Nat.not_lt.2 h)]
  simp only [ho, hg, if_true, bitIf]
  rfl

variable (hh : s.NoHints) (h : s.Clear [.x a] [.x d])
include hh h

theorem exec_otaskSub_parks (hal : ((s.ctx s.who).getX a).toNat % 32 = 0) (hown : ((s.ctx s.who).getX a).toNat + 32 ≤ 0x18000)
    (hr : s.readOwn s.who ((s.ctx s.who).getX a) 32 = (t, none)) :
    exec (.otaskSub sw d a) s = .next (t.parkedIn (.otaskSub ((s.ctx s.who).getX a) (s.cycle + 2) [] d sw)) := by
  have hs : s.Same t := by simpa only [hr] using State.Same.readOwn s s.who ((s.ctx s.who).getX a) 32
  refine (issue_outsideTasks (f := Form.of (.otaskSub sw d a) sw [.x a] [.x d]) _ h hh rfl (.inl rfl) rfl rfl).trans ?_
  simp only [Form.of, xvals_x, xvals_nil, op0_cons]
  rw [cardBody_parks (n := 4) (p := fun n => .otaskSub ((s.ctx s.who).getX a) n [] d sw) hal hown (h.noPort d (by simp)) hr, Form.finish_parkedIn hs h.noLead]

theorem exec_otaskSub_misaligned (hal : ((s.ctx s.who).getX a).toNat % 32 ≠ 0) :
    exec (.otaskSub sw d a) s = .next (s.raise s.who { cause := .misaligned, val := (s.ctx s.who).getX a }) := by
  refine (issue_outsideTasks (f := Form.of (.otaskSub sw d a) sw [.x a] [.x d]) _ h hh rfl (.inl rfl) rfl rfl).trans ?_
  simp only [Form.of, xvals_x, xvals_nil, op0_cons, cardBody_misaligned hal, Form.finish_trap]

theorem exec_otaskSub_outside (hal : ((s.ctx s.who).getX a).toNat % 32 = 0) (hown : 0x18000 < ((s.ctx s.who).getX a).toNat + 32) :
    exec (.otaskSub sw d a) s = .next (s.raise s.who { cause := .protection, val := (s.ctx s.who).getX a }) := by
  refine (issue_outsideTasks (f := Form.of (.otaskSub sw d a) sw [.x a] [.x d]) _ h hh rfl (.inl rfl) rfl rfl).trans ?_
  simp only [Form.of, xvals_x, xvals_nil, op0_cons, cardBody_outside (n := 4) hal hown, Form.finish_trap]

theorem exec_otaskStat : exec (.otaskStat sw d a) s = .next (s.drew.afterScalar sw 2 .unit d
    (BitVec.ofNat 64 (s.taskStatus s.who.core (((s.ctx s.who).getX a).toNat % 2 ^ 16)))) := by
  refine (issue_outsideTasks (f := Form.of (.otaskStat sw d a) sw [.x a] [.x d]) _ h hh rfl (.inl rfl) rfl rfl).trans ?_
  have hport : (s.drew.core s.who.core).isPort d = false := h.noPort d (by simp)
  simp only [Form.of, xvals_x, xvals_nil, op0_cons, State.laterX_drew (h.noPort d (by simp))]
  exact congrArg _ (Form.finish_laterX h.noLead (show s.drew.who = s.who from rfl) hport ..)

end

end Sys2Proof.Machine

/-- Settles O37: the words by their bodies, a submission by the last commit and the lowest free entry. -/
theorem orderedTaskWords : Obligations.OrderedTaskWords := by
  intro s t sw d a w va lid D
  refine ⟨fun h hh => ⟨exec_otaskSub_parks hh h, exec_otaskSub_misaligned hh h, exec_otaskSub_outside hh h, fun o hge ho hg _ => ?_, fun hlt => ?_⟩,
    fun va n got d sw ds hk hg hr => ⟨State.pollOtaskSub_reads hk hg hr, fun hd => ?_⟩, fun card foot ht => ?_⟩
  · have hslot : va.toNat % 2 ^ 16 % 512 = va.toNat % 512 := Nat.mod_mod_of_dvd _ (by decide)
    rw [exec_otaskStat hh h, State.taskStatus_of_entry hge (by rw [hslot]; exact ho) hg]
  · rw [exec_otaskStat hh h, State.taskStatus_of_early hlt]
    rfl
  · rw [State.pollOtaskSub_read hk hg hr hd]
    match ds, hd with
    | [_, _, _, _], _ => exact State.cardRead_of_card
  · intro ts key free
    have hkey : key = (cardOrder card).2 := (bits_top (card.getD 1 0)).symm
    have hfree (n : Nat) : free n ↔ D.vacant lid n = true := Die.vacant_iff.symm
    refine ⟨fun q hq hle => State.submitTask_passed ht (Commits.passed_of_last hq (hkey ▸ hle)), fun hlast => ?_⟩
    have hp := Commits.passed_eq_false (c := D.commitsOf lid) (p := cardOrder card) (hkey ▸ hlast)
    refine ⟨fun hfull => State.submitTask_full ht hp (Die.freeTask_eq_none fun n hn => mt (hfree n).2 (hfull n hn)), fun n hn hf hmin => ?_⟩
    obtain ⟨gen, hgen, hsub⟩ := State.submitTask_enters (foot := foot) ht hp hn
      (Die.freeTask_eq_some hn ((hfree n).1 hf) fun m hm => mt (hfree m).2 (hmin m hm))
    refine ⟨_, gen, hsub, hgen, { s.submitted w card foot with gen := gen }, ?_, rfl, rfl, ?_, ?_, rfl, rfl, rfl, rfl⟩
    · rw [State.die_setDie]
      exact kget_kset_same ..
    · exact hkey.symm
    · exact ofNat_bits_entry (card.getD 1 0)
end

section
/-! SUPPORT. The gang words and the formation of a gang (08 R198 to R202): what each leaves of the cores' gangs. -/

open Sys2Proof Sys2Proof.Machine
namespace Sys2Proof.Machine

/-! ### Folds over the cores of a cluster -/

/-- Each step of a fold changes what stands at its own core, and no other's: each core of the list is changed once. -/
theorem foldl_each {σ κ : Type} {proj : σ → Nat → κ} {step : σ → Nat → σ} {f : Nat → κ → κ}
    (h : ∀ s c m, proj (step s c) m = if m = c then f c (proj s c) else proj s m) {l : List Nat} (hl : l.Nodup) (s : σ) (m : Nat) :
    proj (l.foldl step s) m = if m ∈ l then f m (proj s m) else proj s m := by
  induction l generalizing s with
  | nil => rfl
  | cons c l ih =>
    obtain ⟨hc, hl⟩ := List.nodup_cons.1 hl
    rw [List.foldl_cons, ih hl, h]
    by_cases hm : m = c
    · subst hm
      simp [hc]
    · simp [hm]

/-! ### What leaves the gangs -/

/-- The gangs of all cores are the same. -/
structure State.SameGangs (s t : State) : Prop where
  gang : ∀ m, (t.core m).gang = (s.core m).gang

namespace State.SameGangs

variable {s t : State}

theorem refl (s : State) : s.SameGangs s := ⟨fun _ => rfl⟩
theorem trans {u : State} (h : s.SameGangs t) (k : t.SameGangs u) : s.SameGangs u := ⟨fun m => (k.gang m).trans (h.gang m)⟩

theorem modCore (s : State) (c : Nat) {f : Core → Core} (hf : ∀ k, (f k).gang = k.gang) : s.SameGangs (s.modCore c f) := by
  refine ⟨fun m => ?_⟩
  by_cases hm : m = c
  · rw [hm, State.core_modCore, hf]
  · rw [State.core_modCore_ne _ hm]

theorem modCtx (s : State) (w : CtxId) (f : Ctx → Ctx) : s.SameGangs (s.modCtx w f) :=
  modCore s w.core (f := fun k => { k with ctxs := k.ctxs.set w.ctx.val (f (s.ctx w)) w.ctx.isLt }) fun _ => rfl
theorem post (s : State) (due : Nat) (i : Instr) : s.SameGangs (s.post due i) := ⟨fun _ => rfl⟩
theorem drew (s : State) : s.SameGangs s.drew := ⟨fun _ => rfl⟩

theorem foldl {α : Type} {f : State → α → State} (h : ∀ (s : State) (a : α), s.SameGangs (f s a)) (s : State) (l : List α) : s.SameGangs (l.foldl f s) := by
  induction l generalizing s with
  | nil => exact refl s
  | cons a l ih => exact (h s a).trans (ih _)

theorem postLink (s : State) (src dst due : Nat) (credit : Bool) (i : Instr) : s.SameGangs (s.postLink src dst due credit i) :=
  iteInduction (fun _ => post ..) (fun _ => post ..)

theorem sendCredit (s : State) (core : Nat) (q : Port) : s.SameGangs (s.sendCredit core q) :=
  iteInduction (fun _ => (postLink ..).trans (drew _)) (fun _ => refl s)

theorem sendPort (s : State) (core : Nat) (p : Fin 8) (from_ : Nat) (v : Word) : s.SameGangs (s.sendPort core p from_ v) :=
  iteInduction (fun _ => (postLink ..).trans (drew _)) (fun _ => refl s)

theorem markOut (s : State) (w : CtxId) (d : Dest) (by_ : Producer) : s.SameGangs (s.markOut w d by_) :=
  iteInduction (fun _ => refl s) (fun _ => modCtx ..)

theorem retire (s : State) (w : CtxId) (sw : Bool) (next : Word) : s.SameGangs (s.retire w sw next) := modCtx ..

theorem answerX (s : State) (w : CtxId) (d : XReg) (at_ : Nat) (v : Word) : s.SameGangs (s.answerX w d at_ v) := by
  refine iteInduction (fun _ => ?_) (fun _ => modCtx ..)
  split
  · exact iteInduction (fun _ => sendPort ..) (fun _ => (markOut ..).trans (post ..))
  · exact refl s

theorem returnCredits (s : State) (w : CtxId) : s.SameGangs (s.returnCredits w) :=
  iteInduction (fun _ => refl s) (fun _ => (modCtx ..).trans (foldl (fun _ _ => sendCredit ..) _ _))

theorem finishPark (s : State) (w : CtxId) (sw : Bool) (from_ : Nat) : s.SameGangs (s.finishPark w sw from_) := (returnCredits s w).trans (modCtx ..)

theorem completeX (s : State) (w : CtxId) (d : XReg) (v : Word) (sw : Bool) (from_ : Nat) : s.SameGangs (s.completeX w d v sw from_) :=
  (answerX s w d (from_ - 1) v).trans (finishPark ..)

end State.SameGangs

/-! ### What leaves the contexts -/

/-- All contexts and the core cycle are the same. -/
structure State.SameCtxs (s t : State) : Prop where
  ctx : ∀ w, t.ctx w = s.ctx w
  cycle : t.cycle = s.cycle

namespace State.SameCtxs

variable {s t : State}

theorem refl (s : State) : s.SameCtxs s := ⟨fun _ => rfl, rfl⟩
theorem trans {u : State} (h : s.SameCtxs t) (k : t.SameCtxs u) : s.SameCtxs u := ⟨fun w => (k.ctx w).trans (h.ctx w), k.cycle.trans h.cycle⟩

theorem post (s : State) (due : Nat) (i : Instr) : s.SameCtxs (s.post due i) := ⟨fun _ => rfl, rfl⟩

theorem modGang (s : State) (c : Nat) (g : Core → Gang) : s.SameCtxs (s.modCore c (fun k => { k with gang := g k })) := by
  refine ⟨fun w => ?_, rfl⟩
  by_cases hw : w.core = c
  · rw [State.ctx, State.ctx, hw, State.core_modCore]
  · rw [State.ctx, State.ctx, State.core_modCore_ne _ hw]

theorem foldl {α : Type} {f : State → α → State} (h : ∀ (s : State) (a : α), s.SameCtxs (f s a)) (s : State) (l : List α) : s.SameCtxs (l.foldl f s) := by
  induction l generalizing s with
  | nil => exact refl s
  | cons a l ih => exact (h s a).trans (ih _)

theorem leaveGang (s : State) (w : CtxId) (next : Word) : s.SameCtxs (s.leaveGang w next) := by
  refine iteInduction (fun _ => iteInduction (fun _ => ?_) (fun _ => ?_)) (fun _ => refl s)
  · exact (foldl (fun _ _ => modGang ..) s _).trans (modGang ..)
  · exact (foldl (fun _ _ => iteInduction (fun _ => modGang ..) (fun _ => refl _)) s _).trans (modGang ..)

theorem forward (s : State) (w : CtxId) (g : Core) (held : Bool) (i : Instr) : s.SameCtxs (s.forward w g held i) := by
  refine iteInduction (fun _ => ?_) (fun _ => refl s)
  split
  · exact foldl (fun s c => (modGang s c (fun k => { k.gang with inFlight := k.gang.inFlight + 1 })).trans (post ..)) s _
  · exact refl s

end State.SameCtxs

/-! ### The positions of a mask -/

theorem gangPos_val (core : Nat) : (gangPos core).val = posOf core := Nat.mod_eq_of_lt (posOf_lt core)

theorem bitGet_gangPos (b : BitVec 8) (core : Nat) : bitGet b (gangPos core) = b.getLsbD (posOf core) := by rw [bitGet, gangPos_val]

theorem bitGet_setWidth_gangPos (v : Word) (core : Nat) : bitGet (v.setWidth 8) (gangPos core) = v.getLsbD (posOf core) := by
  rw [bitGet_gangPos, BitVec.getLsbD_setWidth, decide_eq_true (posOf_lt core), Bool.true_and]

theorem bitSet_zero_gangPos (core : Nat) : bitSet 0 (gangPos core) true = 1#8 <<< posOf core := by
  rw [← gangPos_val core]
  exact BitVec.zero_or

theorem mem_maskMates {core c : Nat} {mask : BitVec 8} :
    c ∈ maskMates core mask ↔ c ∈ coresOfCluster (clusterOf core) ∧ c ≠ core ∧ mask.getLsbD (posOf c) = true := by
  simp [maskMates, bitGet_gangPos]

theorem nodup_maskMates (core : Nat) (mask : BitVec 8) : (maskMates core mask).Nodup := (nodup_coresOfCluster _).filter _

/-! ### Leaders and followers -/

section
variable {k : Core} {w : CtxId} (hi : k.inGang w = true)
include hi

theorem Core.leads_eq_false_iff : k.leads w = false ↔ k.gang.leader.val ≠ posOf w.core := by
  rw [show k.leads w = (k.inGang w && decide (k.gang.leader.val = posOf w.core)) from rfl, hi, Bool.true_and, decide_eq_false_iff_not]

theorem Core.follows_iff : k.follows w = true ↔ k.gang.attached = true ∧ k.gang.leader.val ≠ posOf w.core := by
  obtain ⟨hactive, hctx⟩ := Bool.and_eq_true_iff.1 hi
  rw [Core.follows, hactive, hctx]
  simp

end

/-! ### lead, follow, join and stat -/

section
variable {s : State} {sw : Bool} {d a : XReg} (hh : s.NoHints)
include hh

section
variable (h : s.Clear [.x a] [.x d]) (ht : s.NoTask)
include h ht

theorem exec_gangLead : exec (.gangLead sw d a) s = .next (
    if 2 ^ 8 ≤ ((s.ctx s.who).getX a).toNat ∨ ((s.ctx s.who).getX a).getLsbD (posOf s.who.core) = false ∨ (s.core s.who.core).ganged = true then
      s.raise s.who { cause := .illegal, val := (s.ctx s.who).getX a }
    else s.parkedIn (.gangLead (((s.ctx s.who).getX a).setWidth 8) d sw)) := by
  refine (issue_outsideTasks (f := { Form.of (.gangLead sw d a) sw [.x a] [.x d] with inTask := false }) _ h hh rfl (.inr ht) rfl rfl).trans ?_
  simp only [Form.of, xvals_x, xvals_nil, op0_cons, bitGet_setWidth_gangPos, Bool.or_eq_true, Bool.not_eq_true', decide_eq_true_eq, ne_eq,
    bits_high_eq_zero_iff _ (n := 8) (by decide), Nat.not_lt, or_assoc, State.reserveX_eq (h.noPort d (by simp))]
  split_ifs
  · rw [Form.finish_trap]
  · rw [Form.finish_parkedIn (.refl s) h.noLead]

theorem exec_gangFollow : exec (.gangFollow sw d a) s = .next (
    if 2 ^ 3 ≤ ((s.ctx s.who).getX a).toNat ∨ (s.core s.who.core).ganged = true then s.raise s.who { cause := .illegal, val := (s.ctx s.who).getX a }
    else s.parkedIn (.gangFollow (Fin.ofNat 8 ((s.ctx s.who).getX a).toNat) d sw)) := by
  refine (issue_outsideTasks (f := { Form.of (.gangFollow sw d a) sw [.x a] [.x d] with inTask := false }) _ h hh rfl (.inr ht) rfl rfl).trans ?_
  simp only [Form.of, xvals_x, xvals_nil, op0_cons, Bool.or_eq_true, decide_eq_true_eq, ne_eq,
    bits_high_eq_zero_iff _ (n := 3) (by decide), Nat.not_lt, State.reserveX_eq (h.noPort d (by simp))]
  split_ifs
  · rw [Form.finish_trap]
  · rw [Form.finish_parkedIn (.refl s) h.noLead]

end

theorem exec_gangStat (h : s.Clear [] [.x d]) : exec (.gangStat sw d) s = .next (s.afterScalar sw 1 .unit d (BitVec.ofNat 64
    (if (s.core s.who.core).gang.active then (s.core s.who.core).gang.mask.toNat + (if (s.core s.who.core).gang.attached then 2 ^ 8 else 0)
      + (if (s.core s.who.core).gang.leader.val = posOf s.who.core then 2 ^ 9 else 0) else 0))) := by
  refine (issue_outsideTasks (f := Form.of (.gangStat sw d) sw [] [.x d]) _ h hh rfl (.inl rfl) rfl rfl).trans ?_
  simp only [bitIf, decide_eq_true_eq]
  exact congrArg _ (Form.finish_laterX h.noLead rfl (h.noPort d (by simp)) ..)

section
variable (h : s.Clear [.x a] [])
include h

/-- A context outside a gang and an attached follower pass. -/
theorem exec_gangJoin_passes (hp : (s.core s.who.core).inGang s.who = false ∨ (s.core s.who.core).follows s.who = true) :
    exec (.gangJoin sw a) s = .next (s.afterWord sw id) := by
  refine (issue_outsideTasks (f := Form.of (.gangJoin sw a) sw [.x a] []) _ h hh rfl (.inl rfl) rfl rfl).trans ?_
  simp only [Form.of]
  rw [if_pos (by simpa using hp), Form.finish_done h.noLead]
  rfl

theorem exec_gangJoin_waits (hi : (s.core s.who.core).inGang s.who = true) (hf : (s.core s.who.core).follows s.who = false) :
    exec (.gangJoin sw a) s = .next ((s.modCore s.who.core (fun k => { k with
      gang := { k.gang with rendezvous := some (((s.ctx s.who).getX a).setWidth 4) } })).parkedIn (.gangJoin (((s.ctx s.who).getX a).setWidth 4) sw)) := by
  refine (issue_outsideTasks (f := Form.of (.gangJoin sw a) sw [.x a] []) _ h hh rfl (.inl rfl) rfl rfl).trans ?_
  simp only [Form.of, xvals_x, xvals_nil, op0_cons, hi, hf, h.noLead, Bool.not_true, Bool.or_false, Bool.false_and, Bool.false_eq_true, if_false]
  rw [Form.finish_park h.noLead, State.parkedIn, State.modCore_who]

end
end

/-! ### The end of a gang (08 R202) -/

section
variable {s : State} {w : CtxId}

/-- A member's gang after a follower's core has left it. -/
def Gang.without (g : Gang) (leader : Fin 8) (core : Nat) : Gang :=
  if g.active && decide (g.leader = leader) then { g with mask := g.mask &&& ~~~(bitSet 0 (Fin.ofNat 8 (posOf core)) true) } else g

/-- A mate's gang after its leader has ended it, with the leader's next word. -/
def Gang.ended (g : Gang) (next : Word) : Gang := if g.attached && g.behind.isNone then { g with stop := some next } else Gang.reset

theorem Gang.without_of_mate {g : Gang} {leader : Fin 8} (ha : g.active = true) (hl : g.leader = leader) (core : Nat) :
    g.without leader core = { g with mask := g.mask &&& ~~~(1#8 <<< posOf core) } := by
  refine (if_pos (by rw [ha, decide_eq_true hl]; rfl)).trans ?_
  exact congrArg (fun b => { g with mask := g.mask &&& ~~~b }) (bitSet_zero_gangPos core)

/-- A follower's leave strikes it from the masks of its gang's other members. -/
theorem State.gang_leaveGang_follower (next : Word) (hi : (s.core w.core).inGang w = true) (hl : (s.core w.core).gang.leader.val ≠ posOf w.core) (m : Nat) :
    ((s.leaveGang w next).core m).gang = if m = w.core then Gang.reset
      else if m ∈ coresOfCluster (clusterOf w.core) then (s.core m).gang.without (s.core w.core).gang.leader w.core else (s.core m).gang := by
  refine (congrArg (fun t => (State.core t m).gang) ((if_pos hi).trans (if_neg hl))).trans ?_
  by_cases hm : m = w.core
  · rw [if_pos hm, hm, State.core_modCore]
  · rw [if_neg hm, State.core_modCore_ne _ hm]
    refine (foldl_each (proj := fun s m => (State.core s m).gang) (f := fun _ g => g.without (s.core w.core).gang.leader w.core) (fun t c n => ?_)
      ((nodup_coresOfCluster _).filter _) s m).trans ?_
    · unfold Gang.without
      by_cases hn : n = c
      · subst hn
        rw [if_pos rfl]
        split_ifs
        · rw [State.core_modCore]
        · rfl
      · rw [if_neg hn]
        split_ifs
        · rw [State.core_modCore_ne _ hn]
        · rfl
    · simp [hm]

/-- A leader's end of its gang. -/
theorem State.gang_leaveGang_leader (next : Word) (hl : (s.core w.core).leads w = true) (m : Nat) :
    ((s.leaveGang w next).core m).gang = if m = w.core then Gang.reset
      else if m ∈ s.gangMates w.core then (s.core m).gang.ended next else (s.core m).gang := by
  obtain ⟨hi, hpos⟩ := Bool.and_eq_true_iff.1 hl
  refine (congrArg (fun t => (State.core t m).gang) ((if_pos hi).trans (if_pos (of_decide_eq_true hpos)))).trans ?_
  by_cases hm : m = w.core
  · rw [if_pos hm, hm, State.core_modCore]
  · rw [if_neg hm, State.core_modCore_ne _ hm]
    have hmates : (s.gangMates w.core).Nodup := List.Nodup.filter _ (nodup_coresOfCluster (clusterOf w.core))
    have hfold := State.core_foldl_modCore (fun k => { k with gang := k.gang.ended next }) hmates s m
    refine (congrArg Core.gang hfold).trans ?_
    split_ifs <;> rfl

/-- A word on its way to a follower is noted with the follower's core. -/
def State.forwardTo (s : State) (w : CtxId) (word : BitVec 32) (c : Nat) : State :=
  (s.modCore c (fun k => { k with gang := { k.gang with inFlight := k.gang.inFlight + 1 } })).post (s.cycle + 2) (.forwardedWordArrival c word (s.ctx w).nextPc)

theorem State.gang_forwardTo (s : State) (w : CtxId) (word : BitVec 32) (c m : Nat) : ((s.forwardTo w word c).core m).gang
    = if m = c then { (s.core c).gang with inFlight := (s.core c).gang.inFlight + 1 } else (s.core m).gang := by
  unfold State.forwardTo
  by_cases hm : m = c
  · rw [if_pos hm, hm, State.core_post, State.core_modCore]
  · rw [if_neg hm, State.core_post, State.core_modCore_ne _ hm]

/-- A forwarded word is noted with active members, and with no other core (08 R200). -/
theorem State.gang_forward (s : State) (w : CtxId) (g : Core) (held : Bool) (i : Instr) (m : Nat) : ((s.forward w g held i).core m).gang = (s.core m).gang
    ∨ m ≠ w.core ∧ (s.core m).gang.active = true ∧ ∃ n, ((s.forward w g held i).core m).gang = { (s.core m).gang with inFlight := n } := by
  have hsent (word : BitVec 32) (l : List Nat) (hl : l.Nodup) (hm : m ∈ l → m ≠ w.core ∧ (s.core m).gang.active = true) :
      ((l.foldl (fun s c => s.forwardTo w word c) s).core m).gang = (s.core m).gang
        ∨ m ≠ w.core ∧ (s.core m).gang.active = true ∧ ∃ n, ((l.foldl (fun s c => s.forwardTo w word c) s).core m).gang = { (s.core m).gang with inFlight := n } := by
    rw [foldl_each (proj := fun s m => (State.core s m).gang) (f := fun _ g => { g with inFlight := g.inFlight + 1 }) (fun s => s.gang_forwardTo w word) hl s m]
    split_ifs with h
    · exact .inr ⟨(hm h).1, (hm h).2, _, rfl⟩
    · exact .inl rfl
  unfold State.forward
  split_ifs
  · split
    · refine hsent _ _ ((nodup_coresOfCluster _).filter _) fun hm => ?_
      simp only [List.mem_filter, Bool.and_eq_true, decide_eq_true_eq] at hm
      obtain ⟨-, ⟨⟨⟨hne, hactive⟩, -⟩, -⟩, -⟩ := hm
      exact ⟨hne, hactive⟩
    · exact .inl rfl
  · exact .inl rfl

theorem State.gang_forward_own (s : State) (w : CtxId) (g : Core) (held : Bool) (i : Instr) : ((s.forward w g held i).core w.core).gang = (s.core w.core).gang :=
  (s.gang_forward w g held i w.core).resolve_right fun h => h.1 rfl

theorem State.gang_forward_inactive (s : State) (w : CtxId) (g : Core) (held : Bool) (i : Instr) {m : Nat} (hm : (s.core m).gang.active = false) :
    ((s.forward w g held i).core m).gang = (s.core m).gang :=
  (s.gang_forward w g held i m).resolve_right fun h => Bool.eq_false_iff.1 hm h.2.1

/-- Of an active member's gang only the words on their way are counted. -/
theorem State.gang_forward_inFlight (s : State) (w : CtxId) (g : Core) (held : Bool) (i : Instr) (m : Nat) :
    ∃ n, ((s.forward w g held i).core m).gang = { (s.core m).gang with inFlight := n } := by
  rcases s.gang_forward w g held i m with h | ⟨-, -, h⟩
  · exact ⟨(s.core m).gang.inFlight, h⟩
  · exact h

theorem State.of_mem_gangMates {s : State} {core m : Nat} (h : m ∈ s.gangMates core) : m ≠ core ∧ (s.core m).gang.active = true := by
  simp only [State.gangMates, List.mem_filter, Bool.and_eq_true, decide_eq_true_eq] at h
  obtain ⟨-, ⟨⟨hne, hactive⟩, -⟩, -⟩ := h
  exact ⟨hne, hactive⟩

theorem Gang.ended_attached {g : Gang} (ha : g.attached = true) (hb : g.behind = none) (next : Word) : g.ended next = { g with stop := some next } :=
  if_pos (by rw [ha, hb]; rfl)

theorem Gang.ended_left {g : Gang} (h : g.attached = false ∨ g.behind ≠ none) (next : Word) : g.ended next = Gang.reset :=
  if_neg fun hg => by
    obtain ⟨ha, hb⟩ := Bool.and_eq_true_iff.1 hg
    exact h.elim (fun h => Bool.eq_false_iff.1 h ha) fun h => h (Option.isNone_iff_eq_none.1 hb)

/-- `gang.end` of a context that need not wait for a follower's buffer. -/
theorem exec_gangEnd {sw : Bool} (hh : s.NoHints) (hf : s.gangFull s.who = false) : exec (.gangEnd sw) s = .next
    (((s.leaveGang s.who (seqNext (s.ctx s.who).pc)).retire s.who sw (seqNext (s.ctx s.who).pc)).forward s.who (s.core s.who.core) (s.ctx s.who).intrap (.gangEnd sw)) := by
  have hready : (Form.of (.gangEnd sw) sw [] []).ready (s.core s.who.core) (s.ctx s.who) = true :=
    Form.ready_of rfl (fun _ => List.not_mem_nil.elim) (fun _ => List.not_mem_nil.elim) fun _ _ => List.not_mem_nil
  have hchecks : (Form.of (.gangEnd sw) sw [] []).checks (s.core s.who.core) (s.ctx s.who) = none :=
    Form.checks_eq_none hh (fun h => nomatch h) (fun h => nomatch h) rfl
  show issue (Form.of (.gangEnd sw) sw [] []) _ s = _
  simp only [issue, hready, hf, hchecks]
  have hpc := congrArg Ctx.pc ((State.SameCtxs.leaveGang s s.who (seqNext (s.ctx s.who).pc)).ctx s.who)
  show Host.Outcome.next (((s.leaveGang s.who (seqNext (s.ctx s.who).pc)).retire s.who sw
    (seqNext ((s.leaveGang s.who (seqNext (s.ctx s.who).pc)).ctx s.who).pc)).forward s.who (s.core s.who.core) (s.ctx s.who).intrap (.gangEnd sw)) = _
  rw [hpc]

/-- The state after a word that ends or leaves a gang: what the word's context and the gangs are. -/
theorem State.ctx_gangEnd (s : State) (sw : Bool) (g : Core) (held : Bool) (i : Instr) :
    (((s.leaveGang s.who (seqNext (s.ctx s.who).pc)).retire s.who sw (seqNext (s.ctx s.who).pc)).forward s.who g held i).ctx s.who = (s.afterWord sw id).ctx s.who := by
  have hleave := State.SameCtxs.leaveGang s s.who (seqNext (s.ctx s.who).pc)
  rw [(State.SameCtxs.forward ..).ctx, State.retire, State.ctx_modCtx, hleave.ctx, hleave.cycle, State.afterWord, State.after, State.ctx_modCtx]
  rfl

end

/-! ### The formation of a gang (08 R199) -/

section
variable {s : State} {w : CtxId} {mask : BitVec 8} {d : XReg} {sw : Bool}

/-- The gang of a member as it forms. -/
def Gang.formed (mask : BitVec 8) (leader : Fin 8) (c : CtxNo) : Gang :=
  { Gang.reset with active := true, mask := mask, leader := leader, ctx := c, attached := true }

theorem State.gang_joinGang (s : State) (leader v : CtxId) (mask : BitVec 8) (d : XReg) (sw : Bool) (m : Nat) :
    ((s.joinGang leader v mask d sw).core m).gang = if m = v.core then Gang.formed mask (gangPos leader.core) v.ctx else (s.core m).gang := by
  unfold State.joinGang
  by_cases hm : m = v.core
  · rw [if_pos hm, hm, State.core_modCore]
    rfl
  · rw [if_neg hm, State.core_modCore_ne _ hm]
    exact ((State.SameGangs.completeX ..).trans (.modCtx ..)).gang m

theorem State.followerOf_core {c : Nat} {p : Fin 8} {f : CtxId × XReg × Bool} (h : s.followerOf c p = some f) : f.1.core = c := by
  obtain ⟨n, -, hn⟩ := List.exists_of_findSome?_eq_some h
  simp only at hn
  split at hn
  · split_ifs at hn
    cases hn
    rfl
  · cases hn

/-- A member that follows joins; one that does not stays as it is. -/
def State.joinFollower (s0 : State) (w : CtxId) (mask : BitVec 8) (s : State) (c : Nat) : State :=
  match s0.followerOf c (gangPos w.core) with | some f => s.joinGang w f.1 mask f.2.1 f.2.2 | none => s

/-- A member's gang as it joins. -/
def State.gangJoined (s0 : State) (w : CtxId) (mask : BitVec 8) (c : Nat) (g : Gang) : Gang :=
  match s0.followerOf c (gangPos w.core) with | some f => Gang.formed mask (gangPos w.core) f.1.ctx | none => g

theorem State.gang_joinFollower (s0 s : State) (w : CtxId) (mask : BitVec 8) (c m : Nat) :
    ((s0.joinFollower w mask s c).core m).gang = if m = c then s0.gangJoined w mask c (s.core c).gang else (s.core m).gang := by
  unfold State.joinFollower State.gangJoined
  split
  · rename_i f hf
    rw [State.gang_joinGang, State.followerOf_core hf]
  · split_ifs with h
    · rw [h]
    · rfl

/-- The members found join in the order of the cluster's cores. -/
theorem State.foldl_joinFollower (s0 s : State) (w : CtxId) (mask : BitVec 8) (l : List Nat) :
    (l.filterMap (fun c => s0.followerOf c (gangPos w.core))).foldl (fun s f => s.joinGang w f.1 mask f.2.1 f.2.2) s = l.foldl (s0.joinFollower w mask) s := by
  induction l generalizing s with
  | nil => rfl
  | cons c l ih => cases hf : s0.followerOf c (gangPos w.core) <;> simp [hf, State.joinFollower, ih]

variable (hk : (s.ctx w).park = .gangLead mask d sw)
include hk

theorem State.pollLead_waits (h : ∃ c ∈ maskMates w.core mask, s.followerOf c (gangPos w.core) = none) : s.pollLead w = s := by
  obtain ⟨c, hc, hnone⟩ := h
  have hlen : ¬ ((maskMates w.core mask).filterMap (fun c => s.followerOf c (gangPos w.core))).length = (maskMates w.core mask).length := by
    rw [List.filterMap_length_eq_length]
    exact fun hall => by simpa [hnone] using hall c hc
  simp only [State.pollLead, hk, hlen, if_false]

theorem State.pollLead_forms (h : ∀ c ∈ maskMates w.core mask, (s.followerOf c (gangPos w.core)).isSome = true) :
    s.pollLead w = ((maskMates w.core mask).foldl (s.joinFollower w mask) s).joinGang w w mask d sw := by
  simp only [State.pollLead, hk, List.filterMap_length_eq_length.2 h, if_true, State.foldl_joinFollower]

theorem State.gang_pollLead (h : ∀ c ∈ maskMates w.core mask, (s.followerOf c (gangPos w.core)).isSome = true) :
    ((s.pollLead w).core w.core).gang = Gang.formed mask (gangPos w.core) w.ctx
      ∧ ∀ c f, c ∈ maskMates w.core mask → s.followerOf c (gangPos w.core) = some f → ((s.pollLead w).core c).gang = Gang.formed mask (gangPos w.core) f.1.ctx := by
  rw [State.pollLead_forms hk h]
  refine ⟨by rw [State.gang_joinGang, if_pos rfl], fun c f hc hf => ?_⟩
  obtain ⟨-, hne, -⟩ := mem_maskMates.1 hc
  rw [State.gang_joinGang, if_neg hne,
    foldl_each (proj := fun s m => (State.core s m).gang) (fun t => s.gang_joinFollower t w mask) (nodup_maskMates w.core mask), if_pos hc, State.gangJoined, hf]

end

end Sys2Proof.Machine

/-- Settles O38: each word by its lemma; the members' gangs after an end and after the formation by the folds over the cluster's cores. -/
theorem gangWords : Obligations.GangWords := by
  intro s sw d a hh w k v g
  refine ⟨fun h ht => ⟨fun hg hv hp => ?_, fun hg hv => ?_, fun hbad => ?_, fun hbad => ?_⟩, exec_gangStat hh, fun h => ⟨fun hact => ?_, fun hact hctx hatt => ?_,
    fun hact hctx hatt => ?_⟩, fun h => ⟨fun hi => ?_, fun hi => ?_⟩, fun hl hf => ?_, fun mask sw hk _ => ?_⟩
  · rw [exec_gangLead hh h ht, if_neg]
    simp only [not_or]
    exact ⟨Nat.not_le.2 hv, by rw [hp]; simp, by rw [hg]; simp⟩
  · rw [exec_gangFollow hh h ht, if_neg]
    simp only [not_or]
    exact ⟨Nat.not_le.2 hv, by rw [hg]; simp⟩
  · rw [exec_gangLead hh h ht, if_pos (by tauto)]
  · exact (exec_gangFollow hh h ht).trans (congrArg _ (if_pos hbad.symm))
  · exact exec_gangJoin_passes hh h (.inl (by rw [Core.inGang, hact, Bool.false_and]))
  · have hi : k.inGang w = true := by rw [Core.inGang, hact, Bool.true_and, decide_eq_true hctx]
    have hpos : g.leader.val ≠ posOf w.core := (Core.leads_eq_false_iff hi).1 h.noLead
    exact exec_gangJoin_passes hh h (.inr (by rw [Core.follows_iff hi]; exact ⟨hatt, hpos⟩))
  · have hi : k.inGang w = true := by rw [Core.inGang, hact, Bool.true_and, decide_eq_true hctx]
    exact exec_gangJoin_waits hh h hi (Bool.eq_false_iff.2 fun hf => Bool.eq_false_iff.1 hatt ((Core.follows_iff hi).1 hf).1)
  · have hleave : s.leaveGang w (seqNext (s.ctx w).pc) = s := if_neg (Bool.eq_false_iff.1 hi)
    rw [exec_gangEnd hh (State.gangFull_eq h.noLead), State.forward_eq h.noLead, hleave]
    rfl
  · have hpos : g.leader.val ≠ posOf w.core := (Core.leads_eq_false_iff hi).1 h.noLead
    refine ⟨_, exec_gangEnd hh (State.gangFull_eq h.noLead), ?_, State.ctx_gangEnd .., fun m hm hne hact hlead => ?_⟩
    · rw [State.forward_eq h.noLead, (State.SameGangs.retire ..).gang, State.gang_leaveGang_follower _ hi hpos, if_pos rfl]
    · rw [State.forward_eq h.noLead, (State.SameGangs.retire ..).gang, State.gang_leaveGang_follower _ hi hpos, if_neg hne, if_pos hm,
        Gang.without_of_mate hact hlead]
  · have hgang (m : Nat) := ((State.SameGangs.retire (s.leaveGang w (seqNext (s.ctx w).pc)) w sw (seqNext (s.ctx w).pc)).gang m).trans
      (State.gang_leaveGang_leader (seqNext (s.ctx w).pc) hl m)
    refine ⟨_, exec_gangEnd hh hf, ?_, State.ctx_gangEnd .., fun m hm => ?_⟩
    · exact (State.gang_forward_own ..).trans ((hgang w.core).trans (if_pos rfl))
    · obtain ⟨hne, hactive⟩ := State.of_mem_gangMates hm
      have hended := ((hgang m).trans (if_neg hne)).trans (if_pos hm)
      refine ⟨fun hatt hbehind => ?_, fun hleft => ?_⟩
      · rw [Gang.ended_attached hatt hbehind] at hended
        obtain ⟨n, hn⟩ := State.gang_forward_inFlight _ w (s.core w.core) (s.ctx w).intrap (.gangEnd sw) m
        exact ⟨(congrArg Gang.stop hn).trans (congrArg Gang.stop hended), (congrArg Gang.active hn).trans ((congrArg Gang.active hended).trans hactive)⟩
      · rw [Gang.ended_left hleft] at hended
        exact (State.gang_forward_inactive _ _ _ _ _ (congrArg Gang.active hended)).trans hended
  · have hmem (c : Nat) : c ∈ maskMates w.core mask ↔ c ∈ coresOfCluster (clusterOf w.core) ∧ c ≠ w.core ∧ mask.getLsbD (posOf c) = true := mem_maskMates
    refine ⟨fun ⟨c, hc, hnone⟩ => State.pollLead_waits hk ⟨c, (hmem c).2 hc, hnone⟩, fun hall => ?_⟩
    obtain ⟨hlead, hmates⟩ := State.gang_pollLead hk fun c hc => hall c ((hmem c).1 hc)
    exact ⟨hlead, fun c f hc hf => hmates c f ((hmem c).2 hc) hf⟩
end

section
/-! SUPPORT. Tables of ordered tasks are none of a fetch's business (08 R189 to R197; 21 R370 to R376). -/

open Sys2Proof Sys2Proof.Machine
namespace Sys2Proof.Machine

/-- The ordered tasks of every die are the same. -/
structure State.KeepsTasks (s t : State) : Prop where
  tasks : ∀ d, (t.die d).tasks = (s.die d).tasks

namespace State.KeepsTasks

variable {s t : State}

theorem refl (s : State) : s.KeepsTasks s := ⟨fun _ => rfl⟩
theorem trans {u : State} (h : s.KeepsTasks t) (k : t.KeepsTasks u) : s.KeepsTasks u := ⟨fun d => (k.tasks d).trans (h.tasks d)⟩

theorem setDie (s : State) (d : Nat) {k : Die} (hk : k.tasks = (s.die d).tasks) : s.KeepsTasks (s.setDie d k) := by
  refine ⟨fun e => ?_⟩
  by_cases he : e = d
  · rw [he, State.die_setDie, hk]
  · rw [State.die_setDie_ne _ he]

theorem modDie (s : State) (d : Nat) {f : Die → Die} (hf : ∀ k, (f k).tasks = k.tasks) : s.KeepsTasks (s.modDie d f) := setDie s d (hf _)

theorem post (s : State) (due : Nat) (i : Instr) : s.KeepsTasks (s.post due i) := ⟨fun _ => rfl⟩

theorem foldl {α : Type} {f : State → α → State} (h : ∀ (s : State) (a : α), s.KeepsTasks (f s a)) (s : State) (l : List α) : s.KeepsTasks (l.foldl f s) := by
  induction l generalizing s with
  | nil => exact refl s
  | cons a l ih => exact (h s a).trans (ih _)

theorem writeMem (s : State) (key : Nat) (bytes : List Byte) : s.KeepsTasks (s.writeMem key bytes) := by
  unfold State.writeMem State.writeMemAfter
  refine trans ?_ ((foldl (fun _ _ => post ..) _ _).trans (foldl (fun _ _ => post ..) _ _))
  exact ⟨fun _ => rfl⟩

theorem sendRequest (s : State) (home : Nat) (r : PageRequest) : s.KeepsTasks (s.sendRequest home r).1 := by
  unfold State.sendRequest
  dsimp only
  split_ifs
  · refine .trans (setDie s home ?_) (writeMem ..)
    rfl
  · exact refl s

theorem requestPage (s : State) (home asker tenant : Nat) (kind : AccessKind) (va : Nat) : s.KeepsTasks (s.requestPage home asker tenant kind va) := by
  refine iteInduction (fun _ => refl s) (fun _ => ?_)
  refine .trans (sendRequest ..) (modDie _ home (f := fun d => { d with requests := d.requests ++ [_] }) ?_)
  exact fun _ => rfl

theorem lookup (s : State) (home asker tenant : Nat) (kind : AccessKind) (va : Nat) : s.KeepsTasks (s.lookup home asker tenant kind va).1 := by
  unfold State.lookup
  dsimp only
  split
  · exact refl s
  split
  · exact setDie _ _ rfl
  split
  · exact setDie _ _ rfl
  split
  · exact setDie _ _ rfl
  split
  · exact refl s
  split
  · exact refl s
  split
  · split
    · exact requestPage ..
    · exact refl s
  · exact setDie _ _ rfl

theorem dropPages (s : State) (home tenant va : Nat) : s.KeepsTasks (s.dropPages home tenant va) :=
  modDie s home (f := fun d => { d with pages := d.pages.filter (fun e => !e.covers tenant va) }) fun _ => rfl

theorem ruling (s : State) (home asker tenant : Nat) (kind : AccessKind) (va : Nat) : s.KeepsTasks (s.ruling home asker tenant kind va).1 := by
  have h := lookup s home asker tenant kind va
  unfold State.ruling
  split <;> rename_i heq <;> rw [heq] at h
  · exact h
  · rename_i u e
    split
    · exact (h.trans (dropPages u home tenant va)).trans (lookup (u.dropPages home tenant va) home asker tenant kind va)
    · exact h

/-- A fetch sets A of its leaf (21 R376). -/
theorem enter (s : State) (home tenant va : Nat) (e : LookEntry) : s.KeepsTasks (s.enter home tenant .fetch va e).1 := by
  unfold State.enter
  split
  · exact refl s
  · cases e.leaf with
    | none => exact refl s
    | some leaf =>
      refine iteInduction (fun _ => refl s) (fun _ => ?_)
      refine .trans (writeMem ..) (modDie _ home (f := fun d => { d with pages := d.pages.map _ }) ?_)
      exact fun _ => rfl

theorem resolveFetch (s : State) (core : Nat) (va : Word) : s.KeepsTasks (s.resolveFetch core va).1 := by
  have h := ruling s (homeDie va.toNat) (dieOf core) (s.tenantOf core) .fetch va.toNat
  unfold State.resolveFetch State.fetchEntry State.translateFrom
  dsimp only
  split_ifs
  · exact refl s
  · exact refl s
  · exact refl s
  · generalize s.ruling (homeDie va.toNat) (dieOf core) (s.tenantOf core) .fetch va.toNat = r at h ⊢
    obtain ⟨u, e | e⟩ := r
    · exact h
    · have henter := h.trans (enter u (homeDie va.toNat) (s.tenantOf core) va.toNat e)
      dsimp only
      split <;> rename_i heq <;> rw [heq] at henter <;> exact henter

theorem codeWord (s : State) (core line key i : Nat) : s.KeepsTasks (s.codeWord core line key i).1 := by
  unfold State.codeWord
  dsimp only
  split
  · exact refl s
  · exact ⟨fun _ => rfl⟩

/-- The check of a control target (01 R14). -/
theorem checkTarget (s : State) (core : Nat) (target : Word) (all : Bool) : s.KeepsTasks (s.checkTarget core target all).1 := by
  have h := resolveFetch s core target
  unfold State.checkTarget
  refine iteInduction (motive := fun p : State × Option Trap => s.KeepsTasks p.1) (fun _ => refl s) (fun _ => ?_)
  split <;> rename_i heq <;> rw [heq] at h
  · exact h
  · rename_i u key
    have hword : s.KeepsTasks (u.codeWord core (target.toNat / 128 * 128) key 0).1 := .trans h (codeWord ..)
    dsimp only
    split_ifs <;> exact hword

end State.KeepsTasks

end Sys2Proof.Machine
end

section
/-! SUPPORT. The start selector and the task dispatcher (13 R266 to R270; 08 R177, R190). -/

open Sys2Proof Sys2Proof.Machine
namespace Sys2Proof.Machine

/-! ### Taking a start (13 R268) -/

section
variable {s u : State} {core : Nat} {n : CtxNo} {p : Pending}

/-- The pending start that the selector of a core takes: the first that finds a slot. -/
def State.chosen (s : State) (core : Nat) : Option Pending := firstPending ((s.pending core).filter (fun p => (s.slotFor core p.2).isSome))

theorem State.select_none (h : s.chosen core = none) : s.select core = s := by
  unfold State.select
  rw [show firstPending _ = none from h]

theorem State.select_some (h : s.chosen core = some p) (hf : s.slotFor core p = some n) : s.select core = s.takeStart { core := core, ctx := n } p := by
  unfold State.select
  rw [show firstPending _ = some p from h]
  simp only [hf]

/-- A start whose entry passes its check, in a core that has given the start up to its slot: nothing else of the core differs. -/
theorem State.startIn_setCore {k : Core} {entry : Word} (hlid : k.lid = (s.core core).lid) (hlines : k.lines = (s.core core).lines)
    (hc : s.checkTarget core entry true = (u, none)) (a b : Word) (src : BitVec 4) (role : Role) (from_ : Nat) :
    ∃ v l, (s.setCore core k).startIn { core := core, ctx := n } ((s.setCore core k).entryState core entry a b src role from_) = v
      ∧ Ctx.Started (v.ctx { core := core, ctx := n }) entry a b src role from_ (s.launchTrap core) ∧ v.core core = { k with ctxs := l } := by
  have hcode : s.SameCode (s.setCore core k) := ⟨⟨rfl, rfl, rfl, rfl⟩, rfl, rfl⟩
  obtain ⟨v, hv⟩ := hcode.checkTarget rfl (by rw [State.core_setCore, hlid]) (by rw [State.core_setCore, hlines]) hc
  have hs := State.same_startIn (s := s.setCore core k) (w := { core := core, ctx := n }) (c := (s.setCore core k).entryState core entry a b src role from_) hv
  obtain ⟨l, hl⟩ := State.core_seated (s := s.setCore core k) (w := { core := core, ctx := n }) (c := (s.setCore core k).entryState core entry a b src role from_) core
  have htrap : (s.setCore core k).launchTrap core = s.launchTrap core := by
    rw [State.launchTrap, State.launchTrap, State.SameCode.launchOf_eq (s := s) (t := s.setCore core k) rfl (by rw [State.core_setCore, hlid])]
  refine ⟨_, l, rfl, ?_, ?_⟩
  · rw [hs.ctx, State.ctx_seated, ← htrap]
    exact State.started_entryState ..
  · rw [hs.core, hl, State.core_setCore]

/-- The task at the bottom of the deque starts (08 R179, 13 R268). -/
theorem exec_startSelector_deque {e : DequeTask} (h : s.chosen core = some .deque) (hf : s.freeSlot core = some n) (he : (s.core core).deque.getLast? = some e)
    (hc : s.checkTarget core e.entry true = (u, none)) : ∃ v l, exec (.startSelector core) s = .next v
      ∧ Ctx.Started (v.ctx { core := core, ctx := n }) e.entry e.arg0 e.arg1 2 .plain (s.cycle + 1) (s.launchTrap core)
      ∧ v.core core = { s.core core with deque := (s.core core).deque.dropLast, ctxs := l } := by
  obtain ⟨v, l, hv, hstarted, hcore⟩ := State.startIn_setCore (n := n) (k := { s.core core with deque := (s.core core).deque.dropLast }) rfl rfl hc e.arg0 e.arg1 2 .plain (s.cycle + 1)
  refine ⟨v, l, ?_, hstarted, hcore⟩
  show Host.Outcome.next (s.select core) = _
  rw [State.select_some h hf]
  simp only [State.takeStart, he, State.setCore_cycle, hv]

/-- A tile-ready entry that has fired starts its handler (14 R290). -/
theorem exec_startSelector_tile {i : Fin 16} {age : Nat} {entry arg : Word} {rest : List (Nat × Word × Word)} (h : s.chosen core = some (.tile i)) (hf : s.freeSlot core = some n)
    (he : ((s.core core).tileReady.get i).fired = (age, entry, arg) :: rest) (hc : s.checkTarget core entry true = (u, none)) : ∃ v l, exec (.startSelector core) s = .next v
      ∧ Ctx.Started (v.ctx { core := core, ctx := n }) entry arg (BitVec.ofNat 64 i.val) 4 .plain (s.cycle + 1) (s.launchTrap core)
      ∧ v.core core = { s.core core with tileReady := (s.core core).tileReady.set i.val { (s.core core).tileReady.get i with fired := rest } i.isLt, ctxs := l } := by
  obtain ⟨v, l, hv, hstarted, hcore⟩ := State.startIn_setCore (n := n) (k := { s.core core with
    tileReady := (s.core core).tileReady.set i.val { (s.core core).tileReady.get i with fired := rest } i.isLt }) rfl rfl hc arg (BitVec.ofNat 64 i.val) 4 .plain (s.cycle + 1)
  refine ⟨v, l, ?_, hstarted, hcore⟩
  show Host.Outcome.next (s.select core) = _
  rw [State.select_some h hf]
  simp only [State.takeStart, he, State.setCore_cycle, hv]

end

/-! ### The task dispatcher (13 R267) -/

section
variable {s : State} {w : CtxId} {key : Nat} {o : OTask}

/-- A task as it is granted a slot. -/
def OTask.granted (o : OTask) (w : CtxId) (cycle : Nat) : OTask :=
  { o with state := 1, runs := min 255 (o.runs + 1), startedAt := cycle, running := some w, home := w.core, firstStore := none
           buffer := [], buffered := [], direct := false, exitDec := none, held := none, killed := false, slopes := [], stepped := o.records }

/-- The table with the task granted. -/
def State.granted (s : State) (w : CtxId) (key : Nat) (o : OTask) : State :=
  s.modDie (dieOf w.core) (fun d => { d with tasks := kset key (o.granted w s.cycle) d.tasks })

/-- A task's context as it starts (08 R190). -/
def State.taskEntry (s : State) (w : CtxId) (key : Nat) (o : OTask) : Ctx :=
  let c := (s.granted w key o).entryState w.core o.entry o.arg (o.ident key) (if o.crossing.isSome then 7 else 6) (.task key) (s.cycle + 4)
  (c.setX 12 (BitVec.ofNat 64 o.ts)).setX 13 (BitVec.ofNat 64 o.key)

variable (s w key o) in
/-- The granted task's context stands in its slot; where its entry fails the check, the trap is held (08 R196). -/
theorem State.startTask_eq : ∃ v, ((s.granted w key o).seated w (s.taskEntry w key o)).Same v
    ∧ ((s.granted w key o).seated w (s.taskEntry w key o)).KeepsTasks v ∧ (s.startTask w key o = v ∨ ∃ e, s.startTask w key o = v.holdTrap w key e) := by
  have hs := State.Same.checkTarget ((s.granted w key o).seated w (s.taskEntry w key o)) w.core (s.taskEntry w key o).pc true
  have hk := State.KeepsTasks.checkTarget ((s.granted w key o).seated w (s.taskEntry w key o)) w.core (s.taskEntry w key o).pc true
  refine ⟨_, hs, hk, ?_⟩
  have hplaced : (s.granted w key o).placed w (s.taskEntry w key o)
    = ((s.granted w key o).seated w (s.taskEntry w key o)).checkTarget w.core (s.taskEntry w key o).pc true := State.placed_eq
  unfold State.startTask
  extract_lets
  split <;> rename_i heq
  · exact .inl (congrArg Prod.fst (heq.symm.trans hplaced))
  · rename_i e
    exact .inr ⟨e, congrArg (fun v => State.holdTrap v w key e) (congrArg Prod.fst (heq.symm.trans hplaced))⟩

theorem Die.modTask_eq {d : Die} {f : OTask → OTask} (h : kget key d.tasks = some o) : d.modTask key f = { d with tasks := kset key (f o) d.tasks } := by
  rw [Die.modTask, h]

theorem State.ctx_holdTrap (s : State) (w : CtxId) (key : Nat) (e : Trap) :
    (s.holdTrap w key e).ctx w = { s.ctx w with park := .held e, parkedAt := s.cycle } := by
  rw [State.holdTrap, State.ctx_modDie, State.ctx_modCtx]

theorem State.task_holdTrap {s : State} {o : OTask} (h : kget key (s.die (dieOf w.core)).tasks = some o) (e : Trap) :
    kget key ((s.holdTrap w key e).die (dieOf w.core)).tasks = some { o with held := some e } := by
  rw [State.holdTrap, State.die_modDie]
  refine (congrArg (fun d : Die => kget key d.tasks) (Die.modTask_eq h)).trans ?_
  exact kget_kset_same ..

/-- What a granted task's context holds as it starts. -/
structure Ctx.StartsTask (x : Ctx) (key : Nat) (o : OTask) (from_ : Nat) : Prop where
  live : x.live = true
  pc : x.pc = o.entry
  arg0 : x.getX 10 = o.arg
  arg1 : x.getX 11 = o.ident key
  ts : x.getX 12 = BitVec.ofNat 64 o.ts
  keyArg : x.getX 13 = BitVec.ofNat 64 o.key
  src : x.src = 6
  role : x.role = .task key
  readyAt : x.readyAt = from_

theorem State.startsTask_taskEntry (s : State) (w : CtxId) (key : Nat) (ho : o.crossing = none) (n : Nat) :
    Ctx.StartsTask { s.taskEntry w key o with serial := n } key o (s.cycle + 4) :=
  ⟨rfl, rfl, rfl, rfl, rfl, rfl, if_neg (by simp [ho]), rfl, rfl⟩

theorem Ctx.StartsTask.held {x : Ctx} {from_ : Nat} (h : x.StartsTask key o from_) (e : Trap) (n : Nat) :
    Ctx.StartsTask { x with park := .held e, parkedAt := n } key o from_ := ⟨h.live, h.pc, h.arg0, h.arg1, h.ts, h.keyArg, h.src, h.role, h.readyAt⟩

theorem State.startTask_starts (ho : o.crossing = none) : ((s.startTask w key o).ctx w).StartsTask key o (s.cycle + 4)
    ∧ ∃ held, kget key ((s.startTask w key o).die (dieOf w.core)).tasks = some { o.granted w s.cycle with held := held } := by
  obtain ⟨v, hs, hk, hv⟩ := s.startTask_eq w key o
  have hctx : (v.ctx w).StartsTask key o (s.cycle + 4) := by
    rw [hs.ctx, State.ctx_seated]
    exact s.startsTask_taskEntry w key ho _
  have htask : kget key (v.die (dieOf w.core)).tasks = some (o.granted w s.cycle) := by
    rw [hk.tasks, show (((s.granted w key o).seated w (s.taskEntry w key o)).die (dieOf w.core)) = (s.granted w key o).die (dieOf w.core) from rfl, State.granted,
      State.die_modDie]
    exact kget_kset_same ..
  rcases hv with hv | ⟨e, hv⟩ <;> rw [hv]
  · exact ⟨hctx, none, htask⟩
  · rw [State.ctx_holdTrap]
    exact ⟨hctx.held e _, some e, State.task_holdTrap htask e⟩

/-- The dispatcher's answer to a core. -/
def State.dispatchTask (s : State) (core : Nat) : State :=
  match s.chosen core with | some (.task _) => s.select core | _ => s

theorem exec_taskDispatch (s : State) (die : Nat) :
    exec (.taskDispatch die) s = .next (((s.cores.map (·.1)).filter (fun c => decide (dieOf c = die))).foldl State.dispatchTask s) := rfl

theorem exec_taskDispatch_task {core : Nat} {n : CtxNo} (hcores : (s.cores.map (·.1)).filter (fun c => dieOf c = dieOf core) = [core])
    (h : s.chosen core = some (.task key)) (hf : s.freeSlot core = some n) (hk : kget key (s.die (dieOf core)).tasks = some o) (ho : o.crossing = none) :
    exec (.taskDispatch (dieOf core)) s = .next (s.startTask { core := core, ctx := n } key o) := by
  rw [exec_taskDispatch, hcores, List.foldl_cons, List.foldl_nil, State.dispatchTask, h]
  dsimp only
  rw [State.select_some h hf]
  simp only [State.takeStart, hk, ho, Option.isSome_none, Bool.false_eq_true, if_false]

end

/-! ### Restore and swap-out (13 R272, R273) -/

section
variable {s t : State} {core : Nat} {n : CtxNo}

/-- A swapped-out context as it comes back to a slot. -/
def Ctx.restored (c : Ctx) (cycle : Nat) : Ctx :=
  { c with readyAt := cycle + 32, outstanding := c.outstanding.map (fun o => { o with past := true })
           park := if c.outstanding.isEmpty && decide (c.park = .marker) then .none else c.park }

/-- A core that restores a context into a slot. -/
def Core.restores (k : Core) (n : CtxNo) (i : Nat) (x : Swapped) (cycle : Nat) : Core :=
  { (k.freeSpill x.space) with swapped := k.swapped.eraseIdx i, mover := .back n (cycle + 32) }

/-- The state in which a restored context stands in its slot. -/
def State.restored (s : State) (w : CtxId) (i : Nat) (x : Swapped) : State :=
  (s.modCore w.core (fun k => k.restores w.ctx i x s.cycle)).setCtx w (x.ctx.restored s.cycle)

/-- A restore whose record translates, of a context that has no entries of ports to give back: an ordered task's place is noted at its die. -/
theorem State.restoreSwapped_eq {w : CtxId} {i : Nat} {x : Swapped} (hx : (s.core w.core).swapped[i]? = some x) (hp : x.ctx.popped = [])
    (hr : s.spillAccess w.core .read x.space.far = (t, true)) :
    s.restoreSwapped w i = t.restored w i x ∨ ∃ f, s.restoreSwapped w i = (t.restored w i x).modDie (dieOf w.core) f := by
  have hcredits : (t.restored w i x).returnCredits w = t.restored w i x := by
    have hpopped : ((t.restored w i x).ctx w).popped = [] := (congrArg Ctx.popped (State.ctx_setCtx ..)).trans hp
    rw [State.returnCredits, hpopped]
    rfl
  unfold State.restoreSwapped
  rw [hx]
  simp only [hr, Bool.not_true, Bool.false_eq_true, if_false]
  split <;> split
  · exact .inr ⟨_, rfl⟩
  · exact .inr ⟨_, congrArg (fun v => State.modDie v (dieOf w.core) _) hcredits⟩
  · exact .inl rfl
  · exact .inl hcredits

theorem exec_resumeRestore {i : Nat} {x : Swapped} (h : s.chosen core = some (.resume i)) (hf : s.freeSlot core = some n)
    (hx : (s.core core).swapped[i]? = some x) (hp : x.ctx.popped = []) (hok : (s.spillAccess core .read x.space.far).2 = true) :
    ∃ u, exec (.resumeRestore core) s = .next u ∧ u.ctx { core := core, ctx := n } = x.ctx.restored s.cycle
      ∧ (u.core core).mover = .back n (s.cycle + 32) ∧ (u.core core).swapped = (s.core core).swapped.eraseIdx i := by
  have hb := State.Beside.spillAccess s core .read x.space.far
  generalize hr : s.spillAccess core .read x.space.far = r at hok hb
  obtain ⟨t, ok⟩ := r
  subst hok
  have hctx : (t.restored { core := core, ctx := n } i x).ctx { core := core, ctx := n } = x.ctx.restored s.cycle := by
    rw [State.restored, State.ctx_setCtx, hb.cycle]
  have hcore : ∃ l, (t.restored { core := core, ctx := n } i x).core core = { (s.core core).restores n i x s.cycle with ctxs := l } := by
    rw [State.restored, State.core_setCtx, State.core_modCore, hb.core, hb.cycle]
    exact ⟨_, rfl⟩
  obtain ⟨l, hl⟩ := hcore
  refine ⟨s.restoreSwapped { core := core, ctx := n } i, ?_, ?_⟩
  · show execResumeRestore core s = _
    unfold execResumeRestore
    rw [show firstPending _ = some (.resume i) from h]
    exact congrArg _ (State.select_some h hf)
  · rcases State.restoreSwapped_eq (w := { core := core, ctx := n }) hx hp hr with he | ⟨f, he⟩ <;> rw [he]
    · rw [hl]
      exact ⟨hctx, rfl, rfl⟩
    · rw [State.core_modDie, hl, State.ctx_modDie]
      exact ⟨hctx, rfl, rfl⟩

theorem State.Same.fillSpill (s : State) (core : Nat) (sp : Spill) (bytes : List Byte) : s.Same (s.fillSpill core sp bytes) := by
  refine State.Same.foldl _ (fun s l => ?_) s _
  split
  · exact .writePage ..
  · exact .refl s

theorem State.takeSpill_takes {sp : Spill} {m : Nat} (h : s.takeSpill core m = (t, some sp)) :
    t.cycle = s.cycle ∧ ∃ a b, t.core core = { s.core core with spillUsed := a, ovfUsed := b } := by
  have hb := State.Beside.spillAccess s core .write ((s.core core).spillFor (m / 64)).far
  unfold State.takeSpill at h
  dsimp only at h
  split at h <;> rename_i heq <;> rw [heq] at hb <;> cases h
  refine ⟨hb.cycle, ?_⟩
  rw [State.core_modCore, hb.core]
  exact ⟨_, _, rfl⟩

/-- A swap-out whose record finds its space: a record is added, and the slot is vacated. -/
theorem State.swapOut_eq {w : CtxId} {sp : Spill} (ht : s.takeSpill w.core 1024 = (t, some sp)) : ∃ (u : State) (x : Swapped), u.cores = t.cores ∧ u.cycle = t.cycle
    ∧ s.swapOut w = u.modCore w.core (fun k => { k with
        swapped := k.swapped ++ [x], mover := .out w.ctx (u.cycle + 32), ctxs := k.ctxs.set w.ctx.val { Ctx.reset with readyAt := u.cycle + 32 } w.ctx.isLt }) := by
  have hs := State.Same.fillSpill ((t.takeResults w).1.hurry w) w.core sp
  unfold State.swapOut
  rw [ht]
  exact ⟨_, _, (hs _).cores, (hs _).cycle, rfl⟩

theorem exec_swapOut {sp : Spill} (hm : (s.core core).mover = .idle) (hroom : 1024 ≤ (s.core core).spillRoom) (hv : s.victim core = some n)
    (ht : s.takeSpill core 1024 = (t, some sp)) : ∃ u, exec (.swapOut core) s = .next u ∧ (u.core core).mover = .out n (s.cycle + 32)
      ∧ u.ctx { core := core, ctx := n } = { Ctx.reset with readyAt := s.cycle + 32 } ∧ (u.core core).swapped.length = (s.core core).swapped.length + 1 := by
  obtain ⟨u, x, hcores, hcycle, hu⟩ := State.swapOut_eq (w := { core := core, ctx := n }) ht
  obtain ⟨htcycle, a, b, htcore⟩ := State.takeSpill_takes ht
  have hcore : u.core core = { s.core core with spillUsed := a, ovfUsed := b } := by rw [State.core, hcores, ← htcore, State.core]
  refine ⟨s.swapOut { core := core, ctx := n }, ?_, ?_⟩
  · show Host.Outcome.next (s.swapStep core) = _
    rw [State.swapStep, if_pos (by simp [hm, hroom]), hv]
  · rw [hu, State.ctx, State.core_modCore, hcore, hcycle, htcycle]
    exact ⟨rfl, Vector.getElem_set_self .., List.length_append⟩

theorem exec_swapOut_none (h : (s.core core).mover ≠ .idle ∨ (s.core core).spillRoom < 1024 ∨ s.victim core = none) : exec (.swapOut core) s = .next s := by
  show Host.Outcome.next (s.swapStep core) = _
  rw [State.swapStep]
  split_ifs with hif
  · obtain ⟨hm, hroom⟩ := Bool.and_eq_true_iff.1 hif
    have hv : s.victim core = none := (h.resolve_left (not_not.2 (of_decide_eq_true hm))).resolve_left (Nat.not_lt.2 (of_decide_eq_true hroom))
    rw [hv]
  · rfl

theorem exec_swapOutComplete {e : Nat} (h : (s.core core).mover = .out n e) :
    exec (.swapOutComplete core) s = .next (if e ≤ s.cycle then s.modCore core (fun k => { k with mover := .idle }) else s) := by
  show Host.Outcome.next (s.moverEnd core) = _
  rw [State.moverEnd, h]

end

end Sys2Proof.Machine
end

section
/-! SUPPORT. Migrants, stealing, forwarded words and fetched lines (08 R188, R200; 13 R271; 01 R12). -/

open Sys2Proof Sys2Proof.Machine
namespace Sys2Proof.Machine

section
variable {s t : State} {core : Nat}

/-- A change of a core that comes to the same for the core as it stands. -/
theorem State.modCore_congr {f g : Core → Core} (h : f (s.core core) = g (s.core core)) : s.modCore core f = s.modCore core g := by
  rw [State.modCore, h, State.modCore]

/-! ### Migrants (08 R188) -/

theorem exec_migrationArrival {m : Migrant} {before after : List Migrant} (hk : (s.core core).arrivals = before ++ m :: after) (hm : m.arrived = none)
    (hothers : ∀ x ∈ before ++ after, x.ctx.serial ≠ m.ctx.serial) : exec (.migrationArrival { core := core, serial := m.ctx.serial }) s
      = .next (s.modCore core (fun k => { k with arrivals := before ++ after ++ [{ m with arrived := some s.cycle }] })) := by
  have hbefore : ∀ x ∈ before, x.ctx.serial ≠ m.ctx.serial := fun x hx => hothers x (List.mem_append_left _ hx)
  have hafter : ∀ x ∈ after, x.ctx.serial ≠ m.ctx.serial := fun x hx => hothers x (List.mem_append_right _ hx)
  refine congrArg Host.Outcome.next (State.modCore_congr ?_)
  have hrest {l : List Migrant} (hl : ∀ x ∈ l, x.ctx.serial ≠ m.ctx.serial) :
      l.filter (fun x => decide (x.ctx.serial = m.ctx.serial) && x.arrived.isNone) = [] ∧ l.filter (fun x => !(decide (x.ctx.serial = m.ctx.serial) && x.arrived.isNone)) = l :=
    ⟨List.filter_eq_nil_iff.2 fun x hx => by simp [hl x hx], List.filter_eq_self.2 fun x hx => by simp [hl x hx]⟩
  simp only [hk, List.filter_append, List.filter_cons, (hrest hbefore).1, (hrest hbefore).2, (hrest hafter).1, (hrest hafter).2, hm]
  simp

/-! ### Stealing (13 R271) -/

theorem exec_stealBackoffExpiry {e : Nat} (h : (s.core core).steal.backoff = some e) : exec (.stealBackoffExpiry core) s
    = .next (if e ≤ s.cycle then s.modCore core (fun k => { k with steal := { k.steal with backoff := none } }) else s) := by
  show Host.Outcome.next (s.backoffEnd core) = _
  rw [State.backoffEnd, h]

theorem exec_stealAttempt {l : Launch} {b : Berth} {d : LaunchDesc} (hl : s.launchOf core = some l) (hb : l.berth = some b) (hd : l.desc = some d) (hrun : l.state = .running)
    (ha : (s.core core).steal.attempt = none) (ho : (s.core core).steal.backoff = none) (hq : (s.core core).deque = []) (hf : (s.freeSlot core).isSome = true)
    (hp : s.pending core = []) : exec (.stealAttempt core) s = .next (s.stealTry core b d.steal) := by
  obtain ⟨⟩ := l
  cases hb
  cases hd
  cases hrun
  show Host.Outcome.next (s.stealStep core) = _
  rw [State.stealStep, hl]
  exact congrArg _ (if_pos (by simp [ha, ho, hq, hf, hp]))

/-- A scan beyond the reach of its launch has failed. -/
theorem Steal.next_beyond {x : Steal} {b : Berth} {reach fuel : Nat} (h : reach < x.level) : x.next core b reach (fuel + 1) = (x, none) := if_pos h

theorem Steal.next_victim {x : Steal} {b : Berth} {reach fuel v : Nat} (h : x.level ≤ reach) (hv : x.nextVictim core b = some v) :
    x.next core b reach (fuel + 1) = (x, some v) := by
  rw [Steal.next, if_neg (Nat.not_lt.2 h), hv]

theorem State.steal_stealTry_fails {b : Berth} {reach : Nat} (h : reach < (s.core core).steal.level) :
    ((s.stealTry core b reach).core core).steal = (s.core core).steal.failed s.cycle := by
  rw [State.stealTry, Steal.next_beyond h, State.core_modCore]

theorem State.attempt_stealTry {b : Berth} {reach v : Nat} (h : (s.core core).steal.level ≤ reach) (hv : (s.core core).steal.nextVictim core b = some v) :
    ((s.stealTry core b reach).core core).steal.attempt
      = some { victim := v, there := s.cycle + s.linkDelay core v, back := s.cycle + 2 * s.linkDelay core v, got := none } := by
  rw [State.stealTry, Steal.next_victim h hv, State.core_drew, State.core_modCore]

/-! ### Forwarded words and fetched lines (08 R200; 01 R12) -/

theorem exec_forwardedWordArrival {word : BitVec 32} {pc : Word} (ha : (s.core core).gang.active = true) (hatt : (s.core core).gang.attached = true) :
    exec (.forwardedWordArrival core word pc) s = .next (s.modCore core (fun k => { k with
      gang := { k.gang with inFlight := k.gang.inFlight - 1, queue := k.gang.queue ++ [(word, pc)] } })) := by
  refine congrArg Host.Outcome.next (State.modCore_congr ?_)
  simp only [ha, hatt, Bool.and_self, if_true]

theorem State.countAccess_mem (s : State) (home tenant stack : Nat) (e : LookEntry) : (s.countAccess home tenant stack e).mem = s.mem :=
  iteInduction (motive := fun t : State => t.mem = s.mem) (fun _ => rfl) (fun _ => iteInduction (motive := fun t : State => t.mem = s.mem) (fun _ => rfl) (fun _ => rfl))

theorem State.fetchEntry_of_resolveFetch {va : Word} {key : Nat} (h : s.resolveFetch core va = (t, .ok key)) : ∃ e, s.fetchEntry core va = (t, .ok (key, e)) := by
  unfold State.resolveFetch at h
  split at h <;> rename_i heq
  · cases h
  · cases h
    exact ⟨_, heq⟩

theorem exec_lineFetched {line key : Nat} (h : s.resolveFetch core (BitVec.ofNat 64 line) = (t, .ok key)) : ∃ u, exec (.lineFetched core line) s = .next u
    ∧ kget line (u.core core).lines = some (key, t.lineWords key) ∧ line ∉ (u.core core).fetching ∧ u.mem = t.mem := by
  obtain ⟨e, he⟩ := State.fetchEntry_of_resolveFetch h
  have hfetch : s.fetchLine core line = (t.countAccess (homeDie line) (t.tenantOf core) (dieOf core / 2) e).modCore core (fun k => { k with
      fetching := k.fetching.filter (fun l => decide (l ≠ line)), lines := kset line (key, t.lineWords key) k.lines }) := by
    rw [State.fetchLine, he]
  refine ⟨s.fetchLine core line, rfl, ?_⟩
  rw [hfetch, State.core_modCore]
  exact ⟨kget_kset_same .., by simp, (State.modCore_mem ..).trans (State.countAccess_mem ..)⟩

end

end Sys2Proof.Machine

/-- Settles O47: each event by its lemma; a start by its entry's check in the state in which it stands in its slot. -/
theorem startEvents : Obligations.StartEvents := by
  intro s t core k at_ taken starts
  refine ⟨fun h => congrArg Host.Outcome.next (State.select_none h), fun n e h hf he hc => ?_, fun n i age entry arg rest h hf he hc => ?_,
    fun n key o hcores h hf hk ho _ => ?_, fun die hcores => ?_, fun i n x h hf hx hp hok => ?_, fun n sp hm hroom hv ht => ?_, exec_swapOut_none,
    fun n e hm => ⟨fun he => ?_, fun he => ?_⟩, fun m before after hk hm hothers => exec_migrationArrival hk hm hothers, fun e hb => ⟨fun he => ?_, fun he => ?_⟩,
    fun l b d hl hb hd hrun ha ho hq hf hp => ?_, fun word pc ha hatt => exec_forwardedWordArrival ha hatt, fun line key h => exec_lineFetched h⟩
  · obtain ⟨v, l, hexec, hx, hcore⟩ := exec_startSelector_deque h hf he hc
    exact ⟨v, hexec, hx.live, hx.pc, hx.arg0, hx.arg1, hx.src, hx.role, hx.readyAt, congrArg Core.deque hcore⟩
  · obtain ⟨v, l, hexec, hx, hcore⟩ := exec_startSelector_tile h hf he hc
    refine ⟨v, hexec, hx.live, hx.pc, hx.arg0, hx.arg1, hx.src, hx.role, hx.readyAt, ?_⟩
    exact (congrArg (fun k => (Core.tileReady k |>.get i).fired) hcore).trans (congrArg TileReady.fired (Vector.getElem_set_self ..))
  · obtain ⟨hx, held, htask⟩ := State.startTask_starts (s := s) (w := at_ n) (key := key) ho
    exact ⟨_, exec_taskDispatch_task hcores h hf hk ho, hx.live, hx.pc, hx.arg0, hx.arg1, hx.src, hx.role, hx.readyAt, hx.ts, hx.keyArg, _, htask, rfl, rfl, rfl, rfl⟩
  · rw [exec_taskDispatch, hcores]
    rfl
  · obtain ⟨u, hexec, hctx, hmover, hswapped⟩ := exec_resumeRestore h hf hx hp hok
    refine ⟨u, hexec, hctx.trans ?_, hmover, hswapped⟩
    simp only [Ctx.restored, Bool.and_eq_true, List.isEmpty_iff, decide_eq_true_eq]
  · obtain ⟨u, hexec, hmover, hctx, hlen⟩ := exec_swapOut hm hroom hv ht
    exact ⟨u, hexec, hmover, congrArg Ctx.live hctx, congrArg Ctx.readyAt hctx, hlen⟩
  · exact (exec_swapOutComplete hm).trans (congrArg _ (if_pos he))
  · exact (exec_swapOutComplete hm).trans (congrArg _ (if_neg (Nat.not_le.2 he)))
  · exact (exec_stealBackoffExpiry hb).trans (congrArg _ (if_pos he))
  · exact (exec_stealBackoffExpiry hb).trans (congrArg _ (if_neg (Nat.not_le.2 he)))
  · have hexec := exec_stealAttempt hl hb hd hrun ha ho hq hf hp
    refine ⟨fun hlevel => ⟨_, hexec, ?_⟩, fun v hlevel hv => ⟨_, hexec, State.attempt_stealTry hlevel hv⟩⟩
    rw [State.steal_stealTry_fails hlevel]
    exact ⟨rfl, rfl⟩
end

section
/-! SUPPORT. The commit of a task that is alone in its launch's table (08 R194; 13 R277). -/

open Sys2Proof Sys2Proof.Machine
namespace Sys2Proof.Machine

section
variable {s : State} {die key : Nat} {o : OTask} (ht : (s.die die).tasks = [(key, o)])
include ht

/-- The table's only open task is the commit point. -/
theorem Die.commitPoint_alone (ho : o.state = 2) : (s.die die).commitPoint (key / 512) = some (key, o) := by
  simp [Die.commitPoint, ht, OTask.open_, ho]

omit ht in
/-- With no other task in the table an abort reaches none. -/
theorem State.abortAll_alone {t : State} {p : OTask} (hp : (t.die die).tasks = [(key, p)]) (lid : Nat) : t.abortAll die lid key [] [] = t := by
  have hreached : (t.die die).reached lid key [] = [] := by simp [Die.reached, hp]
  simp only [State.abortAll, hp, List.length_singleton, Die.abortSet, hreached]
  rfl

/-- The order of a commit is noted, its task is done, and the next commit is a core cycle later. -/
theorem State.beginCommit_alone (hb : o.buffered = []) (he : o.exitDec = none) (hc : o.crossing = none) (hk : o.killed = false) :
    s.beginCommit die key o = ((s.modDie die (fun d => d.modCommits (key / 512) (fun c => { c with last := some o.order }))).modDie die
      (fun d => { d with tasks := d.tasks.map (fun e => if e.2.parent = some key then (e.1, { e.2 with parent := none }) else e) })).modDie die
      (fun d => (d.modTask key (fun t => { t with state := 3 })).modCommits (key / 512) (fun c => { c with from_ := s.cycle + 1 })) := by
  have htasks : ((s.modDie die (fun d => d.modCommits (key / 512) (fun c => { c with last := some o.order }))).die die).tasks = [(key, o)] := by
    rw [State.die_modDie]
    exact ht
  unfold State.beginCommit
  simp only [State.commitRecords, hc, htasks, List.filter_cons, List.filter_nil, ne_eq, not_true_eq_false, decide_false, Bool.and_false, Bool.false_and, Bool.false_eq_true, if_false,
    List.map_nil, List.filterMap_nil, List.append_nil, State.abortAll_alone htasks, State.reschedule, List.foldl_nil, hk, hb, he, List.isEmpty_nil, Bool.or_true,
    Option.isNone_none, Bool.and_true, if_true]
  rfl

theorem exec_taskCommit_alone (hbusy : ((s.die die).commitsOf (key / 512)).busy = none) (hfrom : ((s.die die).commitsOf (key / 512)).from_ ≤ s.cycle)
    (hholds : ((s.die die).commitsOf (key / 512)).holds = []) (ho : o.state = 2) : exec (.taskCommit die) s = .next (s.beginCommit die key o) := by
  have hlids : (s.die die).taskLids = [key / 512] := by rw [Die.taskLids, ht]; rfl
  have hpoint := Die.commitPoint_alone ht ho
  have hcommit : s.tryCommit die (key / 512) = s.beginCommit die key o := by
    simp [State.tryCommit, hbusy, Nat.not_lt.2 hfrom, hpoint, ho, hholds]
  have hstep : s.commitStep die (key / 512) = s.beginCommit die key o := by
    simp [State.commitStep, hbusy, Nat.not_lt.2 hfrom, hpoint, ho, hcommit]
  show Host.Outcome.next ((s.die die).taskLids.foldl (fun s lid => s.commitStep die lid) s) = _
  rw [hlids, List.foldl_cons, List.foldl_nil, hstep]

end

theorem Die.commitsOf_modCommits (d : Die) (lid : Nat) (f : Commits → Commits) : (d.modCommits lid f).commitsOf lid = f (d.commitsOf lid) := by
  rw [Die.commitsOf, Die.modCommits, kget_kset_same]
  rfl

theorem Die.commitsOf_modTask (d : Die) (key : Nat) (f : OTask → OTask) (lid : Nat) : (d.modTask key f).commitsOf lid = d.commitsOf lid := by
  unfold Die.modTask
  split <;> rfl

section
variable {s : State} {die key : Nat} {o : OTask} (ht : (s.die die).tasks = [(key, o)]) (hb : o.buffered = []) (he : o.exitDec = none) (hc : o.crossing = none)
  (hk : o.killed = false)
include ht hb he hc hk

theorem State.commits_beginCommit_alone : ((s.beginCommit die key o).die die).commitsOf (key / 512)
    = { (s.die die).commitsOf (key / 512) with last := some o.order, from_ := s.cycle + 1 } := by
  rw [State.beginCommit_alone ht hb he hc hk]
  simp only [State.die_modDie, Die.commitsOf_modCommits, Die.commitsOf_modTask]
  exact congrArg (fun c : Commits => { c with from_ := s.cycle + 1 })
    (Die.commitsOf_modCommits (s.die die) (key / 512) (fun c => { c with last := some o.order }))

theorem State.task_beginCommit_alone : ∃ o', kget key ((s.beginCommit die key o).die die).tasks = some o' ∧ o'.state = 3 ∧ o'.gen = o.gen := by
  obtain ⟨p, hp, hgen⟩ : ∃ p, kget key ([(key, o)].map (fun e : Nat × OTask => if e.2.parent = some key then (e.1, { e.2 with parent := none }) else e)) = some p
      ∧ p.gen = o.gen := by
    by_cases hparent : o.parent = some key <;> simp [kget, hparent]
  rw [State.beginCommit_alone ht hb he hc hk]
  simp only [State.die_modDie]
  refine ⟨{ p with state := 3 }, (congrArg (fun d : Die => kget key d.tasks) (Die.modTask_eq (o := p) ?_)).trans (kget_kset_same ..), rfl, hgen⟩
  rw [← ht] at hp
  exact hp

theorem State.mem_beginCommit_alone : (s.beginCommit die key o).mem = s.mem := by
  rw [State.beginCommit_alone ht hb he hc hk]
  rfl

end

end Sys2Proof.Machine
end

section
/-! SUPPORT. Draws (16 R335), samples (09 R212) and crossing submissions (16 R325). -/

open Sys2Proof Sys2Proof.Machine
namespace Sys2Proof.Machine

/-! ### Draws (16 R335) -/

/-- The walk stops at the candidate in whose share of the running sums the ticket lies. -/
theorem walkTicket_append {ticket st w : Nat} (pre post : List (Nat × Nat)) {sum : Nat} (hlo : sum + (pre.map (·.2)).sum ≤ ticket)
    (hhi : ticket < sum + (pre.map (·.2)).sum + w) : walkTicket ticket (pre ++ (st, w) :: post) sum = st := by
  induction pre generalizing sum with
  | nil =>
    cases post with
    | nil => rfl
    | cons p post => exact if_pos (by simpa using hhi)
  | cons p pre ih =>
    rw [List.map_cons, List.sum_cons] at hlo hhi
    obtain ⟨q, rest, hq⟩ : ∃ q rest, pre ++ (st, w) :: post = q :: rest := by cases pre <;> exact ⟨_, _, rfl⟩
    have hwalk : walkTicket ticket (p :: (pre ++ (st, w) :: post)) sum = walkTicket ticket (pre ++ (st, w) :: post) (sum + p.2) := by
      rw [hq]
      exact if_neg (by omega)
    exact hwalk.trans (ih (by omega) (by omega))

section
variable {g : StageSet} {h : Word} {lfsr : BitVec 32}

theorem StageSet.draw_none (hc : g.candidates h = []) : g.draw h lfsr = (g.effectOrExit h, lfsr) := by
  rw [StageSet.draw, hc]

theorem StageSet.draw_one {st w : Nat} (hc : g.candidates h = [(st, w)]) : g.draw h lfsr = (st, lfsr) := by
  rw [StageSet.draw, hc]

theorem StageSet.draw_many {a b : Nat × Nat} {rest : List (Nat × Nat)} (hc : g.candidates h = a :: b :: rest) :
    g.draw h lfsr = (walkTicket ((lfsrStep lfsr).toNat * ((a :: b :: rest).map (·.2)).sum / 2 ^ 32) (a :: b :: rest) 0, lfsrStep lfsr) := by
  rw [StageSet.draw, hc]

/-- Among several candidates the ticket decides. -/
theorem StageSet.draw_ticket {a b : Nat × Nat} {rest pre post : List (Nat × Nat)} {st w : Nat} (hc : g.candidates h = a :: b :: rest)
    (hsplit : g.candidates h = pre ++ (st, w) :: post) (hlo : (pre.map (·.2)).sum ≤ (lfsrStep lfsr).toNat * ((a :: b :: rest).map (·.2)).sum / 2 ^ 32)
    (hhi : (lfsrStep lfsr).toNat * ((a :: b :: rest).map (·.2)).sum / 2 ^ 32 < (pre.map (·.2)).sum + w) : g.draw h lfsr = (st, lfsrStep lfsr) := by
  rw [StageSet.draw_many hc]
  have hwalk (ticket : Nat) (hlo : (pre.map (·.2)).sum ≤ ticket) (hhi : ticket < (pre.map (·.2)).sum + w) : walkTicket ticket (a :: b :: rest) 0 = st := by
    rw [hc.symm.trans hsplit]
    exact walkTicket_append pre post (by omega) (by omega)
  rw [hwalk _ hlo hhi]

end

/-- A draw puts its record into the queue of the stage chosen. -/
theorem exec_stageDraw {s : State} {cl n st : Nat} {r : Record} {v : BitVec 32} (hr : (s.cluster cl).nextDraw s.cycle = some (n, r))
    (hd : ((s.cluster cl).sets.get (headerSet r.header)).draw r.header (s.cluster cl).lfsr = (st, v)) : ∃ u, exec (.stageDraw cl) s = .next u ∧ (u.cluster cl).lfsr = v
      ∧ kget n (u.cluster cl).records = some { r with draw := none, queued := some (st, s.cycle + 1) } := by
  refine ⟨_, rfl, ?_⟩
  rw [State.cluster_modCluster, Cluster.drawOne, hr]
  dsimp only
  rw [hd]
  exact ⟨rfl, kget_kset_same ..⟩

/-! ### Samples (09 R212) -/

section
variable {f : Nat → List Byte} {m : Nat} (hf : ∀ n, (f n).length = m)
include hf

/-- Pieces of one length, one behind the other. -/
theorem length_flatMap_const (l : List Nat) : (l.flatMap f).length = m * l.length := by
  induction l with
  | nil => rfl
  | cons a l ih => rw [List.flatMap_cons, List.length_append, hf, ih, List.length_cons]; ring

theorem take_drop_flatMap (l : List Nat) (n : Nat) (hn : n < l.length) : ((l.flatMap f).drop (m * n)).take m = f l[n] := by
  induction l generalizing n with
  | nil => cases hn
  | cons a l ih =>
    cases n with
    | zero => exact List.take_left' (hf a)
    | succ n =>
      rw [List.flatMap_cons, Nat.mul_succ, Nat.add_comm, ← List.drop_drop, List.drop_left' (hf a)]
      exact ih n (Nat.lt_of_succ_lt_succ hn)

end

/-- The word of a sample for a variable's index. -/
def Cluster.sampleWord (k : Cluster) (tick n : Nat) : Nat :=
  match kget n k.vars with | some v => (cxAdvance v.x v.s ((tick : Int) - v.t) k.cxTick).toNat | none => 0x7FC00000

theorem Cluster.sample_eq (k : Cluster) (tick : Nat) : k.sample tick = (List.range 512).flatMap (fun n => leBytes 4 (k.sampleWord tick n)) := rfl

theorem Cluster.sampleWord_lt (k : Cluster) (tick n : Nat) : k.sampleWord tick n < 256 ^ 4 := by
  unfold Cluster.sampleWord
  split
  · exact BitVec.isLt _
  · decide

theorem Cluster.length_sample (k : Cluster) (tick : Nat) : (k.sample tick).length = 2048 := by
  rw [Cluster.sample_eq, length_flatMap_const fun n => length_leBytes 4 _, List.length_range]

theorem Cluster.word_sample (k : Cluster) (tick n : Nat) (hn : n < 512) : leValue (((k.sample tick).drop (4 * n)).take 4) = k.sampleWord tick n := by
  rw [Cluster.sample_eq, take_drop_flatMap (fun n => length_leBytes 4 _) _ n (by rwa [List.length_range]), List.getElem_range, leValue_leBytes,
    Nat.mod_eq_of_lt (k.sampleWord_lt tick n)]

section
variable {s : State} {w : CtxId} {tick va : Word} {d : XReg} {sw : Bool} (hk : (s.ctx w).park = .cxSample tick va d none sw)
include hk

theorem exec_sampleCapture (hr : s.sampleReady w.core tick.toNat = true) : ∃ u, exec (.sampleCapture w) s = .next u
    ∧ (u.ctx w).park = .cxSample tick va d (some (s.cycle, (s.cluster (clusterOf w.core)).sample tick.toNat)) sw := by
  refine ⟨s.capture w, rfl, ?_⟩
  simp only [State.capture, hk, hr, if_true, State.ctx_modDie, State.ctx_modCtx]

theorem exec_sampleCapture_early (hr : s.sampleReady w.core tick.toNat = false) : exec (.sampleCapture w) s = .next s := by
  show Host.Outcome.next (s.capture w) = _
  simp only [State.capture, hk, hr, Bool.false_eq_true, if_false]

end

/-! ### Crossing submissions (16 R325) -/

section
variable {s : State} {cl slot n : Nat} {v : CxVar}

/-- A variable's crossing task as its unit submits it (16 R325). -/
def State.crossingTask (s : State) (cl slot : Nat) (v : CxVar) : OTask :=
  { OTask.fresh v.next v.index (s.handlerEntry (coreOfCluster cl 0) v.handler) (BitVec.ofNat 64 v.index) [] (s.core (coreOfCluster cl 0)).lid s.cycle with
    cluster := cl, crossing := some slot }

/-- The state in which a unit's task stands in its place and the variable names it. -/
def State.crossingSubmitted (s : State) (cl slot n : Nat) (v : CxVar) : State :=
  ((s.enterTask (dieOf (coreOfCluster cl 0)) (s.crossingTask cl slot v)).1).modVar cl slot
    (fun v => { v with task := some ((s.core (coreOfCluster cl 0)).lid * 512 + n), due := none })

theorem State.submitCrossing_enters (hv : kget slot (s.cluster cl).vars = some v) (hrun : (s.cluster cl).cxRunning = true) (ht : v.task = none)
    {due : Nat} (hdue : v.due = some due) (hle : due ≤ s.cycle)
    (hp : ((s.die (dieOf (coreOfCluster cl 0))).commitsOf (s.core (coreOfCluster cl 0)).lid).passed (v.next, v.index) = false)
    (hf : (s.die (dieOf (coreOfCluster cl 0))).freeTask (s.core (coreOfCluster cl 0)).lid = some n) :
    s.submitCrossing cl slot = s.crossingSubmitted cl slot n v := by
  have henter := State.enterTask_enters (t := s.crossingTask cl slot v) hf
  unfold State.submitCrossing
  simp only [hv, hrun, ht, hdue, hle, decide_true, Option.isSome_none, Bool.not_true, Bool.or_false, Bool.false_eq_true, if_false]
  split <;> rename_i heq
  · cases heq.symm.trans henter
  · obtain ⟨hstate, hkey⟩ := Prod.ext_iff.1 (heq.symm.trans henter)
    cases hkey
    rw [hp]
    exact (if_neg Bool.false_ne_true).trans (congrArg
      (fun t => State.modVar t cl slot (fun v => { v with task := some ((s.core (coreOfCluster cl 0)).lid * 512 + n), due := none }))
      (hstate.trans (congrArg Prod.fst henter).symm))

theorem State.die_modVar (s : State) (cl slot : Nat) (f : CxVar → CxVar) (d : Nat) : (s.modVar cl slot f).die d = s.die d := rfl

theorem State.task_crossingSubmitted (hf : (s.die (dieOf (coreOfCluster cl 0))).freeTask (s.core (coreOfCluster cl 0)).lid = some n) :
    ∃ gen, kget ((s.core (coreOfCluster cl 0)).lid * 512 + n) ((s.crossingSubmitted cl slot n v).die (dieOf (coreOfCluster cl 0))).tasks
      = some { s.crossingTask cl slot v with gen := gen } := by
  refine ⟨(s.die (dieOf (coreOfCluster cl 0))).nextGen ((s.core (coreOfCluster cl 0)).lid * 512 + n), ?_⟩
  rw [State.crossingSubmitted, State.die_modVar, State.enterTask_enters (t := s.crossingTask cl slot v) hf, State.die_setDie]
  exact kget_kset_same ..

theorem State.vars_crossingSubmitted (hv : kget slot (s.cluster cl).vars = some v)
    (hf : (s.die (dieOf (coreOfCluster cl 0))).freeTask (s.core (coreOfCluster cl 0)).lid = some n) :
    kget slot ((s.crossingSubmitted cl slot n v).cluster cl).vars = some { v with task := some ((s.core (coreOfCluster cl 0)).lid * 512 + n), due := none } := by
  rw [State.crossingSubmitted, State.enterTask_enters (t := s.crossingTask cl slot v) hf, State.modVar, State.cluster_modCluster,
    (State.Same.setDie ..).cluster, hv]
  exact kget_kset_same ..

end

end Sys2Proof.Machine
end

section
/-! SUPPORT. The control block (14 R286 to R296): tags, tile-ready entries and consumption. -/

open Sys2Proof Sys2Proof.Machine
namespace Sys2Proof.Machine

section
variable {s t : State} {core : Nat}

/-! ### What a change of the control block leaves (14 R286) -/

/-- Watches apart nothing differs when a change of the control block is seen. -/
theorem State.InCores.touchControl (s : State) (core off : Nat) (m : Moment) : s.InCores (s.touchControl core off m) :=
  iteInduction (fun _ => .post ..) (fun _ => .refl s)

@[simp] theorem State.core_touchControl (s : State) (core off : Nat) (m : Moment) (n : Nat) : (s.touchControl core off m).core n = s.core n :=
  iteInduction (motive := fun t : State => t.core n = s.core n) (fun _ => rfl) (fun _ => rfl)

theorem State.touchControl_mem (s : State) (core off : Nat) (m : Moment) : (s.touchControl core off m).mem = s.mem := (State.InCores.touchControl ..).mem

/-! ### Firing (14 R291) -/

/-- An entry as it has fired. -/
def TileReady.firedAt (e : TileReady) (at_ : Nat) : TileReady :=
  { e with dw0 := e.dw0 &&& 0xFFFFFFFFFFFF#64, fired := e.fired ++ [(at_, e.dw0 &&& 0xFFFFFFFFFFFF#64, e.dw1)] }

theorem State.fireEntry_waits {i : Fin 16} (m : Moment) (h : (s.core core).fires ((s.core core).tileReady.get i) = false) : s.fireEntry core i m = s :=
  if_neg (Bool.eq_false_iff.1 h)

theorem State.fireEntry_fires {i : Fin 16} (m : Moment) (h : (s.core core).fires ((s.core core).tileReady.get i) = true) : s.fireEntry core i m
    = (s.setCore core { s.core core with tileReady := (s.core core).tileReady.set i.val (((s.core core).tileReady.get i).firedAt m.at_) i.isLt }).touchControl
      core (0x800 + 32 * i.val) m := if_pos h

/-- A firing changes no tag and no memory. -/
theorem State.fireEntry_keeps (s : State) (core : Nat) (i : Fin 16) (m : Moment) :
    (s.fireEntry core i m).mem = s.mem ∧ ((s.fireEntry core i m).core core).tags = (s.core core).tags := by
  cases h : (s.core core).fires ((s.core core).tileReady.get i) with
  | false => rw [State.fireEntry_waits m h]; exact ⟨rfl, rfl⟩
  | true =>
    rw [State.fireEntry_fires m h, State.core_touchControl, State.core_setCore]
    exact ⟨State.touchControl_mem .., rfl⟩

theorem exec_tileReadyFire_waits {i : Fin 16} (h : (s.core core).fires ((s.core core).tileReady.get i) = false) :
    exec (.tileReadyFire core i.val) s = .next s := by
  show Host.Outcome.next (s.fireEntry core (Fin.ofNat 16 i.val) s.ofEngine) = _
  rw [Fin.ofNat_val_eq_self, State.fireEntry_waits _ h]

theorem exec_tileReadyFire {i : Fin 16} (h : (s.core core).fires ((s.core core).tileReady.get i) = true) : ∃ u, exec (.tileReadyFire core i.val) s = .next u
    ∧ (u.core core).tileReady.get i = ((s.core core).tileReady.get i).firedAt (s.cycle - 1) := by
  refine ⟨s.fireEntry core i s.ofEngine, ?_, ?_⟩
  · show Host.Outcome.next (s.fireEntry core (Fin.ofNat 16 i.val) s.ofEngine) = _
    rw [Fin.ofNat_val_eq_self]
  · rw [State.fireEntry_fires _ h, State.core_touchControl, State.core_setCore]
    exact Vector.getElem_set_self ..

/-! ### Tags (14 R288, R289) -/

theorem exec_tileTagStore_refused {tile : Nat} {v : Word} (h : 16 ≤ v.toNat) : exec (.tileTagStore core tile v) s = .next s :=
  congrArg Host.Outcome.next (if_pos (by omega))

/-- The tags stand as they are stored, whatever fires on them. -/
theorem State.setTagAt_tags (s : State) (core tile : Nat) (g : TileTag) (m : Moment) :
    (s.setTagAt core tile g m).mem = s.mem ∧ ((s.setTagAt core tile g m).core core).tags = ((s.core core).setTag tile g).tags := by
  have hset : ((s.modCore core (fun k => k.setTag tile g)).touchControl core (8 * tile) m).mem = s.mem
      ∧ (((s.modCore core (fun k => k.setTag tile g)).touchControl core (8 * tile) m).core core).tags = ((s.core core).setTag tile g).tags := by
    rw [State.core_touchControl, State.core_modCore]
    exact ⟨State.touchControl_mem .., rfl⟩
  have hfires (l : List (Fin 16)) (t : State) : (l.foldl (fun s e => s.fireEntry core e m) t).mem = t.mem
      ∧ ((l.foldl (fun s e => s.fireEntry core e m) t).core core).tags = (t.core core).tags := by
    induction l generalizing t with
    | nil => exact ⟨rfl, rfl⟩
    | cons e l ih =>
      obtain ⟨hmem, htags⟩ := t.fireEntry_keeps core e m
      exact ⟨(ih _).1.trans hmem, (ih _).2.trans htags⟩
  unfold State.setTagAt
  dsimp only
  split_ifs
  · exact ⟨(hfires ..).1.trans hset.1, (hfires ..).2.trans hset.2⟩
  · exact hset

theorem exec_tileTagStore {tile : Nat} {v : Word} (h : v.toNat < 16) : ∃ u, exec (.tileTagStore core tile v) s = .next u ∧ u.mem = s.mem
    ∧ (u.core core).tag tile = { (s.core core).tag tile with track := v.getLsbD 3, consumed := v.getLsbD 1, valid := v.getLsbD 0 } := by
  obtain ⟨hmem, htags⟩ := s.setTagAt_tags core tile { (s.core core).tag tile with track := v.getLsbD 3, consumed := v.getLsbD 1, valid := v.getLsbD 0 } s.ofStore
  refine ⟨_, congrArg Host.Outcome.next (if_neg (by omega)), hmem, ?_⟩
  refine (congrArg (fun l => (kget tile l).getD TileTag.reset) htags).trans ?_
  rw [Core.setTag, kget_kset_same]
  rfl

/-! ### Tile-ready entries (14 R290, R291) -/

theorem bitAt_top (v : Word) : bitAt v.toNat 63 = decide (2 ^ 63 ≤ v.toNat) := by
  have hlt := v.isLt
  rw [Bool.eq_iff_iff, bitAt, beq_iff_eq, decide_eq_true_eq]
  omega

/-- Without ARMED an entry's first doubleword is its address. -/
theorem and_entry_mask {v : Word} (hv : v.toNat < 2 ^ 63) : v &&& 0x8000FFFFFFFFFFFF#64 = v &&& 0xFFFFFFFFFFFF#64 := by
  have htop : v.getLsbD 63 = false := Nat.testBit_lt_two_pow hv
  have hmask : ∀ i : Fin 64, i ≠ 63 → (0x8000FFFFFFFFFFFF#64).getLsbD i.val = (0xFFFFFFFFFFFF#64).getLsbD i.val := by decide
  refine BitVec.eq_of_getLsbD_eq fun i hi => ?_
  rw [BitVec.getLsbD_and, BitVec.getLsbD_and]
  by_cases h63 : i = 63
  · rw [h63, htop, Bool.false_and, Bool.false_and]
  · rw [hmask ⟨i, hi⟩ fun h => h63 (congrArg Fin.val h)]

theorem Core.fires_unarmed {k : Core} {e : TileReady} (h : e.dw0.toNat < 2 ^ 63) : k.fires e = false := by
  rw [Core.fires, bitAt_top, decide_eq_false (Nat.not_le.2 h), Bool.false_and]

theorem exec_tileReadyEntryStore_refused {i : Fin 16} {v : Word} (hv : 2 ^ 63 ≤ v.toNat) (h : (s.core core).armOk ((s.core core).tileReady.get i).dw2 = false) :
    exec (.tileReadyEntryStore core i.val 0 v) s = .next s := by
  refine congrArg Host.Outcome.next (if_pos ?_)
  rw [Fin.ofNat_val_eq_self, bitAt_top, h, decide_eq_true hv]
  rfl

/-- A store that does not arm sets the entry's address. -/
theorem exec_tileReadyEntryStore {i : Fin 16} {v : Word} (hv : v.toNat < 2 ^ 63) : ∃ u, exec (.tileReadyEntryStore core i.val 0 v) s = .next u
    ∧ (u.core core).tileReady.get i = { (s.core core).tileReady.get i with dw0 := v &&& 0xFFFFFFFFFFFF#64, armedAt := s.cycle } := by
  refine ⟨s.entryStore core i 0 v, ?_, ?_⟩
  · refine congrArg Host.Outcome.next ((if_neg ?_).trans ?_)
    · rw [bitAt_top, decide_eq_false (Nat.not_le.2 hv)]
      simp
    · rw [Fin.ofNat_val_eq_self]
  · have haddr : (v &&& 0xFFFFFFFFFFFF#64).toNat < 2 ^ 63 := by
      rw [BitVec.toNat_and]
      exact Nat.and_le_left.trans_lt hv
    unfold State.entryStore
    dsimp only
    rw [and_entry_mask hv, State.fireEntry_waits, State.core_touchControl, State.core_setCore]
    · exact Vector.getElem_set_self ..
    · rw [State.core_touchControl, State.core_setCore]
      exact Core.fires_unarmed (by rw [show Vector.get _ _ = _ from Vector.getElem_set_self ..]; exact haddr)

/-! ### Consumption (14 R295) -/

section
variable {i : Fin 8} {n : Word}

theorem exec_consume_nothing (h : ((s.core core).rings.get i).size = 0 ∨ n = 0) : exec (.consume core i.val n) s = .next s := by
  show Host.Outcome.next (s.consume core (Fin.ofNat 8 i.val) n) = _
  rw [Fin.ofNat_val_eq_self, State.consume]
  exact congrArg _ (if_pos (by simpa using h))

/-- A ring as its last message leaves it. -/
def Ring.emptied (r : Ring) : Ring := { r with head := 0, tail := 0, used := 0 }

theorem State.skipPads_empty {r : Ring} (h : r.used = 0) (fuel : Nat) : s.skipPads core r fuel = r := by
  cases fuel with
  | zero => rfl
  | succ fuel => exact if_pos h

theorem State.releaseRing_empty {r : Ring} (h : r.used = 0) (m : Nat) : s.releaseRing core r m = r := by
  cases m with
  | zero => rfl
  | succ m => exact if_pos h

/-- One message fills the ring: it is no pad, and its release empties the ring. -/
theorem State.releaseRing_last {r : Ring} (hu : 0 < r.used) (he : s.ringEntry core r = (r.used, false)) (m : Nat) :
    s.releaseRing core (s.skipPads core r 2) (m + 1) = r.emptied := by
  have hskip : s.skipPads core r 2 = r := by
    rw [State.skipPads, if_neg hu.ne', he]
    rfl
  have hadvance : r.advance r.used = r.emptied := by simp [Ring.advance, Ring.emptied]
  rw [hskip, State.releaseRing, if_neg hu.ne', he]
  dsimp only
  rw [hadvance, State.skipPads_empty rfl, State.releaseRing_empty rfl]

theorem exec_consume_last (hs : ((s.core core).rings.get i).size ≠ 0) (hn : n ≠ 0) (hu : 0 < ((s.core core).rings.get i).used)
    (he : s.ringEntry core ((s.core core).rings.get i) = (((s.core core).rings.get i).used, false)) : ∃ u, exec (.consume core i.val n) s = .next u ∧ u.mem = s.mem
      ∧ (u.core core).rings.get i = { ((s.core core).rings.get i).emptied with readyAge := none } := by
  have hpos : n.toNat ≠ 0 := fun h => hn (BitVec.eq_of_toNat_eq h)
  obtain ⟨m, hm⟩ : ∃ m, min n.toNat 4096 = m + 1 := ⟨min n.toNat 4096 - 1, by omega⟩
  have hconsume : s.consume core i n = (s.setCore core ((s.core core).setRing i { ((s.core core).rings.get i).emptied with readyAge := none })).touchControl
      core (0xA00 + 32 * i.val) s.ofStore := by
    refine (if_neg (by simpa [hs] using hn)).trans ?_
    rw [hm, State.releaseRing_last hu he]
    rfl
  refine ⟨s.consume core i n, ?_, ?_⟩
  · show Host.Outcome.next (s.consume core (Fin.ofNat 8 i.val) n) = _
    rw [Fin.ofNat_val_eq_self]
  · rw [hconsume, State.core_touchControl, State.core_setCore]
    exact ⟨State.touchControl_mem .., Vector.getElem_set_self ..⟩

end

end

end Sys2Proof.Machine
end

section
/-! SUPPORT. A trip of the stall watchdog (14 R298, R299). -/

open Sys2Proof Sys2Proof.Machine
namespace Sys2Proof.Machine

section
variable {s t : State} {core g : Nat}

theorem exec_stallWatchdogTrip_none (h : s.lackingFifos g = []) : exec (.stallWatchdogTrip g) s = .next s := by
  show Host.Outcome.next (s.trip g) = _
  rw [State.trip, h]
  rfl

/-- Spill space is no port's business. -/
theorem State.ports_takeSpill {sp : Spill} {m : Nat} (h : s.takeSpill core m = (t, some sp)) (n : Nat) : (t.core n).ports = (s.core n).ports := by
  have hb := State.Beside.spillAccess s core .write ((s.core core).spillFor (m / 64)).far
  unfold State.takeSpill at h
  dsimp only at h
  split at h <;> rename_i heq <;> rw [heq] at hb <;> cases h
  by_cases hn : n = core
  · rw [hn, State.core_modCore, hb.core]
  · rw [State.core_modCore_ne _ hn, hb.core]

/-- A FIFO with 8 entries more, at both its ends. -/
def State.enlarged (s : State) (core : Nat) (p : Fin 8) (cap : Nat) (sp : Spill) (sender : Nat) (n : Fin 8) : State :=
  (s.modCore core (fun k => k.setPort p { k.ports.get p with capacity := cap, spill := (k.ports.get p).spill.join sp })).modCore sender
    (fun k => k.setPort n { k.ports.get n with credits := (k.ports.get n).credits + 8 })

theorem exec_stallWatchdogTrip_one {cap sender : Nat} {p n : Fin 8} {sp : Spill} (h : s.lackingFifos g = [((cap, core, p), (sender, n))]) (hcap : cap + 8 ≤ 1024)
    (hroom : 64 ≤ (s.core core).spillRoom) (ht : s.takeSpill core 64 = (t, some sp)) :
    exec (.stallWatchdogTrip g) s = .next (t.enlarged core p (cap + 8) sp sender n) := by
  show Host.Outcome.next (s.trip g) = _
  rw [State.trip, h]
  refine congrArg _ ((if_neg ?_).trans ?_)
  · simp [Nat.not_lt.2 hcap, Nat.not_lt.2 hroom]
  · rw [ht]
    rfl

theorem State.capacity_enlarged (t : State) (core : Nat) (p : Fin 8) (cap : Nat) (sp : Spill) (sender : Nat) (n : Fin 8) :
    (((t.enlarged core p cap sp sender n).core core).ports.get p).capacity = cap := by
  unfold State.enlarged
  by_cases hc : core = sender
  · subst hc
    rw [State.core_modCore, State.core_modCore]
    by_cases hp : p = n
    · subst hp
      rw [Core.ports_setPort_same, Core.ports_setPort_same]
    · rw [Core.ports_setPort_ne _ hp, Core.ports_setPort_same]
  · rw [State.core_modCore_ne _ hc, State.core_modCore, Core.ports_setPort_same]

theorem State.credits_enlarged (t : State) (core : Nat) (p : Fin 8) (cap : Nat) (sp : Spill) (sender : Nat) (n : Fin 8) :
    (((t.enlarged core p cap sp sender n).core sender).ports.get n).credits = ((t.core sender).ports.get n).credits + 8 := by
  unfold State.enlarged
  rw [State.core_modCore, Core.ports_setPort_same]
  by_cases hc : sender = core
  · subst hc
    rw [State.core_modCore]
    by_cases hp : n = p
    · subst hp
      rw [Core.ports_setPort_same]
    · rw [Core.ports_setPort_ne _ hp]
  · rw [State.core_modCore_ne _ hc]

end

end Sys2Proof.Machine

/-- Settles O48: each event by its lemma; a commit of a task that is alone aborts none, and a draw's ticket falls to the candidate whose share holds it. -/
theorem unitEvents : Obligations.UnitEvents := by
  intro s cl k
  refine ⟨fun die key o ht hbusy hfrom hholds ho _ hb he hc hk => ?_, fun n r hr => ?_, fun w tick va d sw hk hw => ⟨fun hr => ?_, exec_sampleCapture_early hk⟩,
    fun slot v n => ?_, fun core => ⟨fun tile v hv => exec_tileTagStore_refused hv, fun tile v _ hv => ?_, fun i dw v => ?_, fun i n => ⟨exec_consume_nothing, fun hs hn hu he => ?_⟩,
      fun g => exec_stallWatchdogTrip_none, fun g cap p n sender t sp h hcap hroom ht => ?_⟩⟩
  · have hcommits := State.commits_beginCommit_alone ht hb he hc hk
    exact ⟨_, exec_taskCommit_alone ht hbusy hfrom hholds ho, congrArg Commits.last hcommits, congrArg Commits.from_ hcommits,
      State.task_beginCommit_alone ht hb he hc hk, State.mem_beginCommit_alone ht hb he hc hk⟩
  · exact ⟨fun hc => exec_stageDraw hr (StageSet.draw_none hc), fun st w hc => exec_stageDraw hr (StageSet.draw_one hc),
      fun a b rest hc pre st w post hsplit hlo hhi => exec_stageDraw hr (StageSet.draw_ticket hc hsplit hlo hhi)⟩
  · obtain ⟨u, hexec, hpark⟩ := exec_sampleCapture hk hr
    rw [hw] at hpark
    exact ⟨u, _, hexec, hpark, Cluster.length_sample .., fun n hn => Cluster.word_sample k tick.toNat n hn⟩
  · intro core lid D hv hrun ht ⟨due, hdue, hle⟩ hlast hf
    obtain ⟨gen, htask⟩ := State.task_crossingSubmitted (v := v) (slot := slot) hf
    have hsubmit := State.submitCrossing_enters hv hrun ht hdue hle (Commits.passed_eq_false hlast) hf
    exact ⟨s.crossingSubmitted cl slot n v, _, congrArg Host.Outcome.next hsubmit, htask, rfl, rfl, rfl, rfl, rfl, State.vars_crossingSubmitted hv hf⟩
  · obtain ⟨u, hexec, hmem, htag⟩ := exec_tileTagStore (s := s) (core := core) (tile := tile) hv
    exact ⟨u, hexec, hmem, congrArg TileTag.track htag, congrArg TileTag.consumed htag, congrArg TileTag.valid htag, (congrArg TileTag.poison htag :)⟩
  · refine ⟨fun hdw hv => ?_, fun hdw hv harm => hdw ▸ exec_tileReadyEntryStore_refused hv harm, fun hfires => ?_, exec_tileReadyFire_waits⟩
    · obtain ⟨u, hexec, hentry⟩ := exec_tileReadyEntryStore (s := s) (core := core) (i := i) hv
      exact ⟨u, hdw ▸ hexec, congrArg TileReady.dw0 hentry, (congrArg TileReady.fired hentry :)⟩
    · obtain ⟨u, hexec, hentry⟩ := exec_tileReadyFire hfires
      exact ⟨u, hexec, congrArg TileReady.dw0 hentry, congrArg TileReady.fired hentry⟩
  · exact exec_consume_last hs hn hu he
  · refine ⟨_, exec_stallWatchdogTrip_one h hcap hroom ht, State.capacity_enlarged .., ?_⟩
    rw [State.credits_enlarged, State.ports_takeSpill ht]
end
